-- ==== Sys2Proof/Word.lean ====
section
/-!
DEFINITION. Words and bytes, and their plainest arithmetic.
-/

namespace Sys2Proof

/-- A 32-bit word: a register, a port, a queue word (R7, R60). -/
abbrev Word := BitVec 32

/-- A byte of a memory, an image or a frame. -/
abbrev Byte := BitVec 8

end Sys2Proof
end

