-- ==== Sys2Proof/Syntax.lean ====
section
/-!
DEFINITION. The commands of the card: one constructor per row of the operation table, with the operands the row's
rule speaks of. What a command finds outside the card (an arriving frame, a pin, a voter's three copies, a storage
upset that the access meets) is an operand; what it finds inside is in the state.
-/

namespace Sys2Proof

/-- How a move names its source for a given destination (R78, R80): a short code with LAST, a port with SEG, or an
immediate with HI = 0. -/
inductive MoveForm where
  | short (src : BitVec 6) (last : Bool)
  | port (src : BitVec 8) (seg : BitVec 3)
  | imm (v : BitVec 20)
deriving DecidableEq, Repr

/-- A move's encoding as memory holds it (R78): one halfword, or two with the first in bits [31:16]. -/
inductive Encoding where
  | short (h : BitVec 16)
  | long (w : BitVec 32)
deriving DecidableEq, Repr

/-- A storage error that a queue operation meets (R276, R286): none; a changed bit in the slot of the word number `word` that
the operation reads, which fails its parity; a link slot or a descriptor with a double-bit error. -/
inductive QueueUpset where
  | none
  | parity (word : BitVec 7) (bit : BitVec 6)
  | link | descriptor
deriving DecidableEq, Repr

/-- A storage upset that an access finds in a SEC-DED word (R131). -/
inductive Upset where
  | none | single | double
deriving DecidableEq, Repr

/-- One access as a common store bank performs it (R238, R245, R246, R252): a word read, a read burst with what it finds in its
words from the first on, a word store with byte enables, a write burst, a write burst that an abort flit cut after some whole
beats. -/
inductive BankOp where
  | read (u : Upset)
  | readBurst (beats : BitVec 5) (found : List Upset)
  | store (w : BitVec 32) (be : BitVec 4) (u : Upset)
  | burst (ws : List (BitVec 32))
  | torn (ws : List (BitVec 32)) (beats : BitVec 4)
deriving DecidableEq, Repr

/-- Whether the DRBG instances of the draw unit disagree at a draw (R393): none, one against two, all three at a generate call. -/
inductive DrbgUpset where
  | none | one (d : BitVec 2) | all (call : BitVec 4)
deriving DecidableEq, Repr

/-- A write burst that a reset of its master cuts (R252): none; one into a common store bank, its words and the beats
accepted; one into an engine that buffers bursts; one into another target. -/
inductive Torn where
  | none
  | bank (addr : Word) (ws : List Word) (beats : BitVec 5)
  | qe | tally | ledger | other
deriving DecidableEq, Repr

/-- A recovery action that a supervisor presents (R212, R213, R218, R223). -/
inductive SupAct where
  | resync (t : BitVec 5) (p : BitVec 2)
  | swap (t : BitVec 5) (p : BitVec 2)
  | duplex (t : BitVec 5) (p : BitVec 2)
  | stop (t : BitVec 5)
deriving DecidableEq, Repr

/-- How a rebuild's copy ends (R215, step 6; the double-bit error of its situations). -/
inductive RebuildEnd where
  | ok | mismatch | sourceError
deriving DecidableEq, Repr

/-- What the scrubber reads (R229, R247): the next 32-byte row of a common store bank, and what it finds in the row's eight
words; else one word, in a core's local store, a queue's descriptor, a cell's link slot, or the MRAM by fabric address. -/
inductive ScrubSpot where
  | common (bank : BitVec 4) (found : List Upset)
  | local (core : BitVec 7) (addr : BitVec 17)
  | desc (q : BitVec 20)
  | link (cell : BitVec 18)
  | mram (addr : Word)
deriving DecidableEq, Repr

/-- An effect as a core presents it to its cluster voter (R198, R199): its kind with fabric address, queue or CTL port, its
size and data, and for a store the attribute bits [5:0] of the segment it went through. -/
inductive EffCopy where
  | store (addr : Word) (size : BitVec 3) (data : Word) (rights : BitVec 6)
  | push (q : BitVec 20) (data : Word) (eop : Bool)
  | drop (q : BitVec 20)
  | eoi (id : BitVec 10)
  | ctl (port : BitVec 8) (data : Word)
deriving DecidableEq, Repr

/-- A read request as a core presents it (R202, R205): a load or gather element with its size and its segment's attribute
bits, the fill of a cache line, a fetch group, a pop or stat of a queue, a claim. -/
inductive ReadCopy where
  | load (addr : Word) (size : BitVec 3) (rights : BitVec 6)
  | gather (addr : Word) (rights : BitVec 6)
  | line (addr : Word)
  | group (addr : Word)
  | pop (q : BitVec 20)
  | stat (q : BitVec 20)
  | claim
deriving DecidableEq, Repr

/-- What a read of a core finds in the word it reads: a storage upset (R131), in a local store word that of the positions in
`bad` alone; whether a cache hit fails its parity (R138); and what a line fill finds in the words of the line, in ascending
order, the word asked for apart (R135). -/
structure Meet where
  upset : Upset := .none
  bad : BitVec 3 := 7
  parity : Bool := false
  line : List Upset := []
deriving DecidableEq, Repr

/-- The circumstances of a move: what the first and the second of its fetch groups find, what the load number `word` (from 0) of
those that it makes finds, and the position, if one, that does not retire the move with the others (R206). -/
structure Circ where
  fetch : Meet := {}
  fetch2 : Meet := {}
  data : Meet := {}
  word : BitVec 5 := 0
  late : Option (BitVec 2) := none
deriving DecidableEq, Repr

/-- Where a register lies: on the fabric (R6), or in the mailbox window of the host bridge. -/
inductive Place where
  | fabric (addr : Word)
  | mailbox (off : BitVec 20)
deriving DecidableEq, Repr

/-- The dwords of the function's capabilities that show the card's state (R509, R513, R515): Device Serial Number, low and high; Link
Capabilities; Link Control 2; the uncorrectable and the correctable error status of AER. -/
inductive CapWord where
  | serialLow | serialHigh | linkCap | linkControl2 | uncorrectable | correctable
deriving DecidableEq, Repr

/-- A configuration request of the host (R509 to R513, R518): one that comes before the bridge's ROM check ends; a read of a dword
by its offset, or of a capability's; a write of ones that clear error status; a write of Memory Space Enable, of MSI-X Enable and the
function mask, of the power state, of a base address register, of Target Link Speed. -/
inductive CfgReq where
  | early
  | read (off : BitVec 12)
  | capability (c : CapWord)
  | clear (c : CapWord) (v : Word)
  | memory (en : Bool)
  | msix (en mask : Bool)
  | power (d3 : Bool)
  | bar (i : BitVec 3) (v : Word)
  | target (speed : BitVec 4)
deriving DecidableEq, Repr

/-- A state change of the PCIe link (R513): it trains to a rate and width, recovers at others, enters L1, leaves it,
goes down to Detect, or enters a state that is neither Detect nor L0 or L1. -/
inductive LinkChange where
  | train (speed : BitVec 4) (width : BitVec 6)
  | recover (speed : BitVec 4) (width : BitVec 6)
  | enterL1
  | leaveL1
  | down
  | away
deriving DecidableEq, Repr

/-- What the host does while the card boots (R27, R512): PERST# is released, with the rate and width that the link takes; a
configuration request; a read of MOD_STATUS. -/
inductive EarlyReq where
  | perst (speed : BitVec 4) (width : BitVec 6)
  | config (r : CfgReq)
  | status
deriving DecidableEq, Repr

/-- What a boot meets: in the self-tests of step 4 (R230, R556) a shared store that fails, and the cores whose local store, cache
or, for a reserve, self-test fails; before it ends, what the host does, in order; and whether a copy of the boot ROM fails, which
the other two mask (R231). -/
structure SelfTest where
  store : Bool
  cores : List (BitVec 7)
  early : List EarlyReq := []
  rom : Bool := false
deriving DecidableEq, Repr

/-- How UPD_ACTIVATE goes (R570, R571, R574): the copy is good, or its hash differs, or power fails after so many bytes of the copy,
or after step 3, with the ACTIVATED record begun or not. -/
inductive ActEnd where
  | good
  | differs
  | failCopy (bytes : BitVec 23)
  | failLate (record : Bool)
deriving DecidableEq, Repr

/-- The commands: one per row of the operation table. -/
inductive Instr where
  /-- REGISTER_WRITE (R7). -/
  | registerWrite (m : BitVec 6) (p : Place) (v : Word) (be : BitVec 4)
  /-- POWER_ON_RESET_RELEASE (R556). -/
  | powerOnResetRelease (psel : BitVec 2) (st : SelfTest) (noise : List Byte)
  /-- BOOT_CTL_WRITE (R59). -/
  | bootCtlWrite (m : BitVec 6) (v : Word)
  /-- BOOT_CTL_DURABLE (R59). -/
  | bootCtlDurable
  /-- PLAIN_MOVE (R60). -/
  | plainMove (t : BitVec 5) (e : Encoding) (c : Circ)
  /-- IMMEDIATE_MOVE (R80). -/
  | immediateMove (t : BitVec 5) (dst : BitVec 8) (hi : Bool) (imm : BitVec 20)
  /-- CTL_MODE_WRITE (R187). -/
  | ctlModeWrite (t : BitVec 5) (f : MoveForm)
  /-- SEGMENT_DESCRIPTOR_WRITE (R122). -/
  | segmentDescriptorWrite (t : BitVec 5) (port : BitVec 8) (f : MoveForm)
  /-- CONDITIONAL_BRANCH (R81). -/
  | conditionalBranch (t : BitVec 5) (cond : BitVec 4) (off : BitVec 24)
  /-- CALL_WITH_MASK (R154). -/
  | callWithMask (t : BitVec 5) (mask : BitVec 16) (tgtSrc : Bool) (off : BitVec 12)
  /-- ALU_ADD (R97). -/
  | aluAdd (t : BitVec 5) (f : MoveForm)
  /-- ALU_ADC (R97). -/
  | aluAdc (t : BitVec 5) (f : MoveForm)
  /-- ALU_SUB (R97). -/
  | aluSub (t : BitVec 5) (f : MoveForm)
  /-- ALU_SBC (R97). -/
  | aluSbc (t : BitVec 5) (f : MoveForm)
  /-- ALU_AND (R97). -/
  | aluAnd (t : BitVec 5) (f : MoveForm)
  /-- ALU_OR (R97). -/
  | aluOr (t : BitVec 5) (f : MoveForm)
  /-- ALU_XOR (R97). -/
  | aluXor (t : BitVec 5) (f : MoveForm)
  /-- ALU_ANDN (R97). -/
  | aluAndn (t : BitVec 5) (f : MoveForm)
  /-- ALU_SHL (R97). -/
  | aluShl (t : BitVec 5) (f : MoveForm)
  /-- ALU_SHR (R97). -/
  | aluShr (t : BitVec 5) (f : MoveForm)
  /-- ALU_SAR (R97). -/
  | aluSar (t : BitVec 5) (f : MoveForm)
  /-- ALU_ROL (R97). -/
  | aluRol (t : BitVec 5) (f : MoveForm)
  /-- ALU_ROR (R97). -/
  | aluRor (t : BitVec 5) (f : MoveForm)
  /-- ALU_CMP (R97). -/
  | aluCmp (t : BitVec 5) (f : MoveForm)
  /-- ALU_TST (R97). -/
  | aluTst (t : BitVec 5) (f : MoveForm)
  /-- DEC_ADD (R109). -/
  | decAdd (t : BitVec 5) (f : MoveForm)
  /-- DEC_ADC (R109). -/
  | decAdc (t : BitVec 5) (f : MoveForm)
  /-- DEC_SUB (R109). -/
  | decSub (t : BitVec 5) (f : MoveForm)
  /-- DEC_SBC (R109). -/
  | decSbc (t : BitVec 5) (f : MoveForm)
  /-- DEC_ADJ (R111). -/
  | decAdj (t : BitVec 5) (f : MoveForm)
  /-- DEC_CMP (R110). -/
  | decCmp (t : BitVec 5) (f : MoveForm)
  /-- DEC_SHL (R112). -/
  | decShl (t : BitVec 5) (f : MoveForm)
  /-- DEC_SHR (R112). -/
  | decShr (t : BitVec 5) (f : MoveForm)
  /-- DEC_B2D (R113). -/
  | decB2d (t : BitVec 5) (f : MoveForm)
  /-- DEC_D2B (R114). -/
  | decD2b (t : BitVec 5) (f : MoveForm)
  /-- DEC_ROUND (R115). -/
  | decRound (t : BitVec 5) (f : MoveForm)
  /-- DEC_MULW (R117). -/
  | decMulw (t : BitVec 5) (f : MoveForm)
  /-- DEC_DIVW (R118). -/
  | decDivw (t : BitVec 5) (f : MoveForm)
  /-- LONG_ROUTINE_STEP (R163). -/
  | longRoutineStep (t : BitVec 5) (c : Circ)
  /-- MUL_MULU (R102). -/
  | mulMulu (t : BitVec 5) (f : MoveForm)
  /-- MUL_MULS (R102). -/
  | mulMuls (t : BitVec 5) (f : MoveForm)
  /-- MUL_MAC (R102). -/
  | mulMac (t : BitVec 5) (f : MoveForm)
  /-- LSU_LDB (R128). -/
  | lsuLdb (t : BitVec 5) (f : MoveForm) (c : Circ)
  /-- LSU_LDBU (R128). -/
  | lsuLdbu (t : BitVec 5) (f : MoveForm) (c : Circ)
  /-- LSU_LDH (R128). -/
  | lsuLdh (t : BitVec 5) (f : MoveForm) (c : Circ)
  /-- LSU_LDHU (R128). -/
  | lsuLdhu (t : BitVec 5) (f : MoveForm) (c : Circ)
  /-- LSU_LDW (R128). -/
  | lsuLdw (t : BitVec 5) (f : MoveForm) (c : Circ)
  /-- LSU_STB (R128). -/
  | lsuStb (t : BitVec 5) (f : MoveForm)
  /-- LSU_STH (R128). -/
  | lsuSth (t : BitVec 5) (f : MoveForm)
  /-- LSU_STW (R128). -/
  | lsuStw (t : BitVec 5) (f : MoveForm)
  /-- GTH_GO (R143). -/
  | gthGo (t : BitVec 5) (f : MoveForm)
  /-- GTH_RESUME (R143). -/
  | gthResume (t : BitVec 5) (f : MoveForm)
  /-- GATHER_ELEMENT (R144). -/
  | gatherElement (t : BitVec 5) (c : Circ)
  /-- BR_JMP (R149). -/
  | brJmp (t : BitVec 5) (f : MoveForm)
  /-- BR_CALL (R149). -/
  | brCall (t : BitVec 5) (f : MoveForm)
  /-- BR_RET (R155). -/
  | brRet (t : BitVec 5) (f : MoveForm)
  /-- BR_RTI (R93). -/
  | brRti (t : BitVec 5) (f : MoveForm)
  /-- LP_GO (R157). -/
  | lpGo (t : BitVec 5) (f : MoveForm)
  /-- LP_EXIT (R160). -/
  | lpExit (t : BitVec 5) (f : MoveForm)
  /-- QP_PUSH (R285). -/
  | qpPush (t : BitVec 5) (f : MoveForm) (u : QueueUpset)
  /-- QP_POP (R273). -/
  | qpPop (t : BitVec 5) (f : MoveForm) (u : QueueUpset)
  /-- QP_DROP (R283). -/
  | qpDrop (t : BitVec 5) (f : MoveForm) (u : QueueUpset)
  /-- QP_STAT (R272). -/
  | qpStat (t : BitVec 5) (f : MoveForm) (u : QueueUpset)
  /-- CTL_EOI (R416). -/
  | ctlEoi (t : BitVec 5) (f : MoveForm)
  /-- CTL_WAIT (R419). -/
  | ctlWait (t : BitVec 5) (f : MoveForm)
  /-- CTL_FLUSH (R140). -/
  | ctlFlush (t : BitVec 5) (f : MoveForm)
  /-- CTL_FENCE (R142). -/
  | ctlFence (t : BitVec 5) (f : MoveForm)
  /-- CTL_USAVE (R168). -/
  | ctlUsave (t : BitVec 5) (f : MoveForm)
  /-- CTL_UREST (R170). -/
  | ctlUrest (t : BitVec 5) (f : MoveForm)
  /-- CTL_TRAP (R71). -/
  | ctlTrap (t : BitVec 5) (f : MoveForm)
  /-- CTL_CLAIM (R415). -/
  | ctlClaim (t : BitVec 5) (dst : BitVec 8)
  /-- VOTER_EFFECT (R199). -/
  | voterEffect (t : BitVec 5) (p : BitVec 2) (e : EffCopy)
  /-- VOTED_READ (R202). -/
  | votedRead (t : BitVec 5) (p : BitVec 2) (r : ReadCopy)
  /-- RETIREMENT_CHECK (R209). -/
  | retirementCheck (t : BitVec 5) (d0 d1 d2 : BitVec 64)
  /-- LAG_TIMEOUT (R200). -/
  | lagTimeout (t : BitVec 5) (p : BitVec 2)
  /-- REBUILD (R215). -/
  | rebuild (t : BitVec 5) (e : RebuildEnd)
  /-- INTERRUPT_ENTRY (R207). -/
  | interruptEntry (t : BitVec 5)
  /-- VOTER_COPY_MISMATCH (R220). -/
  | voterCopyMismatch (n : BitVec 3) (v : BitVec 2)
  /-- ENGINE_COPY_MISMATCH (R221). -/
  | engineCopyMismatch (e : BitVec 4) (torn : Torn)
  /-- SUPERVISOR_ACTION (R223). -/
  | supervisorAction (a0 a1 a2 : Option SupAct)
  /-- SUPERVISOR_VOTE_TIMEOUT (R223). -/
  | supervisorVoteTimeout (late : Option (BitVec 2))
  /-- SUPERVISOR_REBUILD (R224). -/
  | supervisorRebuild (i : BitVec 2) (ok : Bool) (torn : Torn)
  /-- SCRUB_ROW (R247). -/
  | scrubRow (spot : ScrubSpot) (u : Upset) (last : Bool)
  /-- COMMON_STORE_ACCESS (R245). -/
  | commonStoreAccess (m : BitVec 6) (a : Word) (op : BankOp)
  /-- LINK_FLIT_ERROR (R249). -/
  | linkFlitError (i : BitVec 5) (back again : Bool)
  /-- PACKET_CRC_FAILURE (R250). -/
  | packetCrcFailure (src dst : BitVec 4) (second : Bool)
  /-- STOP_INTAKE (R255). -/
  | stopIntake (who : BitVec 2)
  /-- RESUME_INTAKE (R255). -/
  | resumeIntake (who : BitVec 2)
  /-- THROTTLE_ON (R255). -/
  | throttleOn
  /-- THROTTLE_OFF (R255). -/
  | throttleOff
  /-- FATAL (R255). -/
  | fatal
  /-- HOST_FENCE (R244). -/
  | hostFence
  /-- HOST_FENCE_DONE (R244). -/
  | hostFenceDone
  /-- ENGINE_PORT_PUSH (R277). -/
  | enginePortPush (m : BitVec 6) (q : BitVec 20) (ws : List (Word × Bool))
  /-- ENGINE_PORT_POP (R277). -/
  | enginePortPop (m : BitVec 6) (q : BitVec 20) (n : BitVec 7) (u : QueueUpset)
  /-- ENGINE_PORT_STAT (R277). -/
  | enginePortStat (m : BitVec 6) (q : BitVec 20) (u : QueueUpset)
  /-- STALE_TIMER_DUE (R289). -/
  | staleTimerDue (q : BitVec 20)
  /-- QCMD_RESET (R297). -/
  | qcmdReset (m : BitVec 6) (q : BitVec 20)
  /-- QCMD_INSPECT (R297). -/
  | qcmdInspect (m : BitVec 6) (q : BitVec 20) (u : QueueUpset)
  /-- QCMD_INVALID (R297). -/
  | qcmdInvalid (m : BitVec 6) (v : Word)
  /-- WS_CTRL_EN_WRITE (R323). -/
  | wsCtrlEnWrite (m : BitVec 6) (v : Word)
  /-- TOKEN_CREATE (R307). -/
  | tokenCreate (u : QueueUpset)
  /-- STAGE_DISPATCH (R309). -/
  | stageDispatch (slot : BitVec 16)
  /-- STAGE_RESULT (R312). -/
  | stageResult (u : QueueUpset)
  /-- STAGE_TIMEOUT (R314). -/
  | stageTimeout (slot : BitVec 16)
  /-- INTAKE_PACKET_DISCARD (R316). -/
  | intakePacketDiscard (slot : BitVec 16) (u : QueueUpset)
  /-- READER_REPORT (R318). -/
  | readerReport
  /-- TALLY_BEGIN (R332). -/
  | tallyBegin
  /-- TALLY_HEAD (R332). -/
  | tallyHead
  /-- TALLY_COMMIT (R343). -/
  | tallyCommit
  /-- TALLY_ABORT (R344). -/
  | tallyAbort
  /-- TALLY_REWIND (R339). -/
  | tallyRewind
  /-- TALLY_END (R332). -/
  | tallyEnd
  /-- TALLY_ADD (R330). -/
  | tallyAdd (u : QueueUpset)
  /-- TALLY_READSPEC (R334). -/
  | tallyReadspec (u : QueueUpset)
  /-- TALLY_READCOMM (R334). -/
  | tallyReadcomm (u : QueueUpset)
  /-- TLY_LDCMD_GO (R346). -/
  | tlyLdcmdGo (m : BitVec 6) (v : Word)
  /-- TLY_CTRL_OPEN (R346). -/
  | tlyCtrlOpen (m : BitVec 6) (v : Word)
  /-- TLY_SEL_WRITE (R348). -/
  | tlySelWrite (m : BitVec 6) (v : Word)
  /-- LEDGER_COMMIT (R358). -/
  | ledgerCommit (u v : QueueUpset)
  /-- LEDGER_HEAD (R360). -/
  | ledgerHead (u : QueueUpset)
  /-- RECORD_DURABLE (R364). -/
  | recordDurable
  /-- CAIRN_SIGNED (R369). -/
  | cairnSigned (keyBad : Bool)
  /-- LED_ACKHI_WRITE (R371). -/
  | ledAckhiWrite (m : BitVec 6) (v : Word)
  /-- ANCHOR_DURABLE (R372). -/
  | anchorDurable
  /-- DRAIN_DMA_GO (R373). -/
  | drainDmaGo (m : BitVec 6) (v : Word)
  /-- DRAIN_DMA_DONE (R373). -/
  | drainDmaDone
  /-- LED_DURSEQLO_READ (R386). -/
  | ledDurseqloRead (m : BitVec 6)
  /-- POWER_FAIL (R374). -/
  | powerFail
  /-- CRYPTO_VERIFY (R380). -/
  | cryptoVerify (n : BitVec 3) (u v : QueueUpset) (mismatch keyBad : Bool)
  /-- CRYPTO_SEAL (R381). -/
  | cryptoSeal (n : BitVec 3) (u v : QueueUpset) (mismatch keyBad : Bool)
  /-- CRYPTO_HASH (R381). -/
  | cryptoHash (n : BitVec 3) (u v : QueueUpset) (mismatch keyBad : Bool)
  /-- DRAW_RANGE (R396). -/
  | drawRange (u : QueueUpset) (noise : List Byte) (bad : DrbgUpset) (keyBad : Bool)
  /-- DRAW_KOFN (R396). -/
  | drawKofn (u : QueueUpset) (noise : List Byte) (bad : DrbgUpset) (keyBad : Bool)
  /-- DRAW_HEALTH (R402). -/
  | drawHealth (u : QueueUpset)
  /-- PIC_SSET_WRITE (R409). -/
  | picSsetWrite (m : BitVec 6) (v : Word)
  /-- PIC_PSET_WRITE (R409). -/
  | picPsetWrite (m : BitVec 6) (t : BitVec 5) (v : Word)
  /-- MODERATION_TIMER (R427). -/
  | moderationTimer (g : BitVec 5)
  /-- PIC_MOD_WRITE (R429). -/
  | picModWrite (m : BitVec 6) (g : BitVec 5) (v : Word)
  /-- TG_START (R442). -/
  | tgStart (m : BitVec 6) (g : BitVec 4) (c : BitVec 8)
  /-- TG_STOP (R442). -/
  | tgStop (m : BitVec 6) (g : BitVec 4) (c : BitVec 8)
  /-- TIMER_MATCH (R445). -/
  | timerMatch (g : BitVec 4) (c : BitVec 3)
  /-- TIMER_OVERFLOW (R439). -/
  | timerOverflow (g : BitVec 4) (c : BitVec 3)
  /-- TIMER_CAPTURE (R448). -/
  | timerCapture (g : BitVec 4) (c : BitVec 3)
  /-- LINK_RESTART (R451). -/
  | linkRestart (g : BitVec 4) (c : BitVec 3) (k : BitVec 1)
  /-- LINK_OPEN (R451). -/
  | linkOpen (g : BitVec 4) (c : BitVec 3) (k : BitVec 1)
  /-- LINK_SHUT (R451). -/
  | linkShut (g : BitVec 4) (c : BitVec 3) (k : BitVec 1)
  /-- LINK_ARM (R451). -/
  | linkArm (g : BitVec 4) (c : BitVec 3) (k : BitVec 1)
  /-- LINK_FOLLOW (R451). -/
  | linkFollow (g : BitVec 4) (c : BitVec 3) (level : Bool)
  /-- TMR_KICK_ZERO (R439). -/
  | tmrKickZero (m : BitVec 6) (g : BitVec 4) (c : BitVec 3)
  /-- TMR_KICK_SNAP (R448). -/
  | tmrKickSnap (m : BitVec 6) (g : BitVec 4) (c : BitVec 3)
  /-- TMR_CNTHI_WRITE (R444). -/
  | tmrCnthiWrite (m : BitVec 6) (g : BitVec 4) (c : BitVec 3) (v : Word)
  /-- TMR_CNTLO_READ (R443). -/
  | tmrCntloRead (m : BitVec 6) (g : BitVec 4) (c : BitVec 3)
  /-- TMR_CAPLO_READ (R449). -/
  | tmrCaploRead (m : BitVec 6) (g : BitVec 4) (c : BitVec 3)
  /-- TMR_CMPHI_WRITE (R446). -/
  | tmrCmphiWrite (m : BitVec 6) (g : BitVec 4) (c : BitVec 3) (v : Word)
  /-- TMR_TOPHI_WRITE (R446). -/
  | tmrTophiWrite (m : BitVec 6) (g : BitVec 4) (c : BitVec 3) (v : Word)
  /-- TMR_PSC_WRITE (R440). -/
  | tmrPscWrite (m : BitVec 6) (g : BitVec 4) (c : BitVec 3) (v : Word)
  /-- TMR_LINK_WRITE (R450). -/
  | tmrLinkWrite (m : BitVec 6) (g : BitVec 4) (c : BitVec 3) (v : Word)
  /-- EVF_SWTRIG_WRITE (R460). -/
  | evfSwtrigWrite (m : BitVec 6) (v : Word)
  /-- EVF_SEL_WRITE (R464). -/
  | evfSelWrite (m : BitVec 6) (i : BitVec 7) (v : Word)
  /-- RTC_SECOND (R471). -/
  | rtcSecond
  /-- RTC_TRIM_CORRECTION (R470). -/
  | rtcTrimCorrection
  /-- RTC_LOAD (R468). -/
  | rtcLoad (m : BitVec 6) (v : Word)
  /-- RTC_LOAD_APPLY (R468). -/
  | rtcLoadApply
  /-- RTC_SUB_READ (R467). -/
  | rtcSubRead (m : BitVec 6)
  /-- MON_START (R473). -/
  | monStart
  /-- MON_INTERVAL (R473). -/
  | monInterval
  /-- MON_CONVERSION (R474). -/
  | monConversion (code : BitVec 12)
  /-- PD_VOTEA_WRITE (R478). -/
  | pdVoteaWrite (m : BitVec 6) (d : BitVec 5) (v : Word)
  /-- PD_VOTEB_WRITE (R479). -/
  | pdVotebWrite (m : BitVec 6) (d : BitVec 5) (v : Word)
  /-- DOMAIN_ENTRY (R477). -/
  | domainEntry (d : BitVec 5) (wake : BitVec 4)
  /-- DOMAIN_EXIT (R484). -/
  | domainExit (d : BitVec 5) (reserveOk : Bool)
  /-- RAIL_FAULT (R493). -/
  | railFault (n : BitVec 3)
  /-- CLK_SRC_WRITE (R499). -/
  | clkSrcWrite (m : BitVec 6) (d : BitVec 5) (v : Word)
  /-- PLL_LOCK (R495). -/
  | pllLock
  /-- CLOCK_FAILURE (R508). -/
  | clockFailure (root : Bool)
  /-- CLKSTOP_TIMEOUT (R505). -/
  | clkstopTimeout (m : BitVec 6) (a : Word) (wr : Bool) (v : Word) (captured : Bool)
  /-- PERST_ASSERT (R554). -/
  | perstAssert (torn : Torn)
  /-- PERST_DEASSERT (R512). -/
  | perstDeassert (speed : BitVec 4) (width : BitVec 6)
  /-- FLR (R519). -/
  | flr (torn : Torn)
  /-- HB_MSIGEN_WRITE (R517). -/
  | hbMsigenWrite (m : BitVec 6) (v : Word)
  /-- PTM_DIALOGUE (R530). -/
  | ptmDialogue (time : BitVec 64)
  /-- HB_PTMLO_READ (R531). -/
  | hbPtmloRead (m : BitVec 6)
  /-- MBX_CMD_WORD (R522). -/
  | mbxCmdWord (v : Word) (be : BitVec 4)
  /-- SERVICE_UART_WORD (R522). -/
  | serviceUartWord (bytes : List Byte)
  /-- FRAME_ABANDON (R522). -/
  | frameAbandon
  /-- MBX_RSP_READ (R524). -/
  | mbxRspRead
  /-- NOP (R526). -/
  | nop
  /-- STATUS (R526). -/
  | status
  /-- SWITCH_PROFILE (R58). -/
  | switchProfile (st : SelfTest) (noise : List Byte)
  /-- KEY_LOAD (R528). -/
  | keyLoad
  /-- KEY_ZERO (R528). -/
  | keyZero
  /-- KEY_INFO (R526). -/
  | keyInfo
  /-- UPD_BEGIN (R568). -/
  | updBegin
  /-- UPD_DATA (R568). -/
  | updData
  /-- UPD_VERIFY (R568). -/
  | updVerify
  /-- UPD_ACTIVATE (R570). -/
  | updActivate (how : ActEnd) (st : SelfTest) (noise : List Byte)
  /-- UPD_CONFIRM (R568). -/
  | updConfirm
  /-- UPD_ABORT (R568). -/
  | updAbort
  /-- DOORBELL_STOP_INTAKE (R520). -/
  | doorbellStopIntake
  /-- DOORBELL_RESUME_INTAKE (R520). -/
  | doorbellResumeIntake
  /-- ETH_FRAME_RECEIVE (R536). -/
  | ethFrameReceive (p : BitVec 1) (frame : List Byte) (corr uncorr : BitVec 16)
  /-- ETH_LINK_CHANGE (R532). -/
  | ethLinkChange (p : BitVec 1) (blk fec ok los : Bool)
  /-- TX_FAULT (R534). -/
  | txFault (p : BitVec 1) (level : Bool)
  /-- MOD_ABS_CHANGE (R535). -/
  | modAbsChange (p : BitVec 1) (absent : Bool)
  /-- SFP_READ (R535). -/
  | sfpRead (m : BitVec 6) (p : BitVec 1) (v : Word)
  /-- SFP_READ_DONE (R535). -/
  | sfpReadDone (p : BitVec 1) (data : Option Word)
  /-- EGRESS_DISPATCH (R545). -/
  | egressDispatch (port : BitVec 2) (u v : QueueUpset)
  /-- EGRESS_RAW_FRAME (R547). -/
  | egressRawFrame (port : BitVec 2) (u : QueueUpset)
  /-- SER_FRAME_RECEIVE (R551): the levels of the line, one per bit time, and the level before them (R549); after them the line is
  idle. -/
  | serFrameReceive (line : List Bool) (before : Bool)
  /-- COVER_LOOP (R581). -/
  | coverLoop (ohms : BitVec 12)
  /-- TEMPERATURE (R581). -/
  | temperature (code : BitVec 12)
  /-- VAON_GLITCH (R581). -/
  | vaonGlitch (mv : BitVec 16) (merged : Bool)
  /-- AONFAULT (R584). -/
  | aonfault
  /-- SUPPLY_SWITCHOVER (R575). -/
  | supplySwitchover (cell : Bool)
  /-- BATGONE (R578). -/
  | batgone
  /-- BATGONE_CLEAR (R579). -/
  | batgoneClear (m : BitVec 6) (inRange : Bool)
  /-- LOOPEN (R583). -/
  | loopen (m : BitVec 6)
  /-- ISLAND_POWER_LOSS (R580). -/
  | islandPowerLoss
  /-- TMP_LOGD0_READ (R590). -/
  | tmpLogd0Read (m : BitVec 6)
  /-- SUP_FLOGD0_READ (R234). -/
  | supFlogd0Read (m : BitVec 6)
  /-- CLV_RCNTLO_READ (R235). -/
  | clvRcntloRead (m : BitVec 6) (t : BitVec 5)
  /-- WS_SEQLO_READ (R325). -/
  | wsSeqloRead (m : BitVec 6)
  /-- WS_SLOTST_READ (R326). -/
  | wsSlotstRead (m : BitVec 6)
  /-- ETH_PEERST_READ (R553). -/
  | ethPeerstRead (m : BitVec 6) (p : BitVec 1)
  /-- AUDIT_OPEN (R593). -/
  | auditOpen (n : BitVec 16)
  /-- AUDIT_CLOSE (R593). -/
  | auditClose (n : BitVec 16)
  /-- AUDIT_READ (R592, R596): the 32 bits that the auditor clocks in, 0x03 and the audit address for READ. -/
  | auditRead (w : Word) (n : BitVec 16)
  /-- AUDIT_TRACE (R600). -/
  | auditTrace (n : BitVec 16)
  /-- AUDIT_SESSION_TIMEOUT (R593). -/
  | auditSessionTimeout
  /-- AUD_TRCSEL_WRITE (R601). -/
  | audTrcselWrite (m : BitVec 6) (v : Word)
  /-- HALT (R603). -/
  | halt (m : BitVec 6) (t : BitVec 5)
  /-- STEP (R603). -/
  | step (m : BitVec 6) (t : BitVec 5)
  /-- RESUME (R603). -/
  | resume (m : BitVec 6) (t : BitVec 5)
  /-- DBG_ACC_GO (R604). -/
  | dbgAccGo (m : BitVec 6) (v : Word)
  /-- TAP_RESET (R605). -/
  | tapReset
  /-- SAMPLE_PRELOAD (R605): `other` has the level of each pin that the card does not hold, `load` is what is shifted in. -/
  | samplePreload (other load : BitVec 39)
  /-- IDCODE (R605). -/
  | idcode
  /-- EXTEST (R606): what is shifted in, and above it the level of each pin that the card does not hold. -/
  | extest (data : BitVec 78)
  /-- CLAMP (R606). -/
  | clamp
  /-- HIGHZ (R606). -/
  | highz
  /-- DBGACC (R605). -/
  | dbgacc (w : BitVec 48)
  /-- KEYTAB (R607). -/
  | keytab (w : BitVec 1027)
  /-- SEAL (R607). -/
  | seal (v : Word)
  /-- BYPASS (R605). -/
  | bypass
  /-- REGISTER_READ (R9). -/
  | registerRead (m : BitVec 6) (p : Place)
  /-- KERNEL_EDGE (R438). -/
  | kernelEdge (g : BitVec 4) (c : BitVec 3)
  /-- EV_PIN_EDGE (R437): the level lasts `periods` PCLK periods; `restart` names the channels, 8 times the group plus the channel,
  at which a RESTART event falls on this edge (R453). -/
  | evPinEdge (k : BitVec 3) (level : Bool) (periods : BitVec 32) (restart : BitVec 72)
  /-- SLCK_EDGE (R467). -/
  | slckEdge
  /-- TMR_CTRL_WRITE (R441). -/
  | tmrCtrlWrite (m : BitVec 6) (g : BitVec 4) (c : BitVec 3) (v : Word)
  /-- TMR_IEN_WRITE (R454). -/
  | tmrIenWrite (m : BitVec 6) (g : BitVec 4) (c : BitVec 3) (v : Word)
  /-- TMR_CAPCTL_WRITE (R448). -/
  | tmrCapctlWrite (m : BitVec 6) (g : BitVec 4) (c : BitVec 3) (v : Word)
  /-- DRW_ENTIN_WRITE (R7). -/
  | drwEntinWrite (m : BitVec 6) (v : Word)
  /-- DRAIN_WINDOW_WRITE (R516). -/
  | drainWindowWrite
  /-- CONFIGURATION_REQUEST (R512). -/
  | configurationRequest (r : CfgReq)
  /-- MSIX_VECTOR_UNMASK (R518). -/
  | msixVectorUnmask (v : Option (BitVec 6))
  /-- PCIE_LINK_STATE_CHANGE (R513). -/
  | pcieLinkStateChange (c : LinkChange)
  /-- ROUTER_FAILURE (R250). -/
  | routerFailure (r : BitVec 4)
  /-- DUPLICATED_LOGIC_MISMATCH (R231). -/
  | duplicatedLogicMismatch
  /-- INGRESS_COMPARATOR_DISAGREEMENT (R220). -/
  | ingressComparatorDisagreement (n : BitVec 3)
  /-- ISLAND_POWER_UP (R580). -/
  | islandPowerUp (cell : Bool)
  /-- COVER_LOOP_CLOSED (R582). -/
  | coverLoopClosed (ohms : BitVec 12)
  /-- TAMPER_TEMPERATURE_NORMAL (R582). -/
  | tamperTemperatureNormal (code : BitVec 12)
deriving DecidableEq, Repr

end Sys2Proof
end

