-- ==== Sys2Proof/Decode.lean ====
section
/-!
DEFINITION. The decoder of table words. The operation table of this block gives no row any bits (every row's command is
named, not encoded), so no word spells a command. The encodings of moves, which are data of the spec, are decoded by
`decodeMove` in Machine/Operands.lean.
-/

namespace Sys2Proof

/-- The command that a word spells by the table's bits: none, as no row has bits. -/
def decodeTableWord (_nbits _w : Nat) : Option Instr := none

end Sys2Proof
end

