-- ==== Sys2Proof/Config.lean ====
section
/-!
DEFINITION. What the spec leaves open: values without a body, so that nothing can be proved of them. Each is applied
to a counter that `State` holds (`fresh`), or to the operands it depends on. Log entry 2.
-/

namespace Sys2Proof

/-- A value the spec leaves open, 32 bits wide, one for each draw (log entry 2). -/
opaque Config.freeWord : Nat → BitVec 32

/-- The word that an engine goes on with when its read of an address ended with an error response over a failed route; applied to
the address and to a counter that `State` holds (log entry 83). -/
opaque Config.lostWord : Nat → Nat → BitVec 32

/-- Byte i of x ++ y of vendor key e, as Oselaeb writes it at manufacture (R558, R624, log entry 92). -/
opaque Config.vendorKey : Nat → Nat → BitVec 8

end Sys2Proof
end

