-- ==== Sys2Proof/Machine/RegMap.lean ====
section
/-!
DEFINITION. Every register of the fabric (spec chapters 01 to 24): its address, its fields with their bits, access
type (R7) and reset value, as the register tables of the spec give them. A field the tables call "Fused", "Pins",
"Weave", "Scan", "AON" or "BCB" has here the value the log entries 3 and 4 name. Names are the spec's: NAME for the
address (a function of the instance numbers), NAME_FIELD for a field.
-/

namespace Sys2Proof.Machine

/-- The access types of R7. -/
inductive FTy where
  | rw | ro | w1c | w1s | wo | rc | lk
deriving DecidableEq, Repr

/-- One field of a register: bits hi down to lo, its access type and its reset value. -/
structure Fld where
  hi : Nat
  lo : Nat
  ty : FTy
  rst : Nat
deriving DecidableEq, Repr

/-- One register definition: the address of its first instance and two instance dimensions (count, stride). -/
structure RegRow where
  name : String
  base : Nat
  n1 : Nat
  s1 : Nat
  n2 : Nat
  s2 : Nat
  flds : List Fld
deriving DecidableEq, Repr

/-- B_g of the timer chapter: TG0 to TG7 lie in the cluster blocks, TG8 in the system blocks (R21). -/
def tgBase (g : Nat) : Nat := if g = 8 then 0x40050000 else 0x48010000 + 0x100000 * g

/-! ### Spec chapter 01: Device identification and module control -/

def MOD_ID_PART : Fld := ⟨31, 16, .ro, 0x7264⟩
def MOD_ID_VARIANT : Fld := ⟨15, 8, .ro, 0x43⟩
def MOD_ID : Nat := 0x40000000
def MOD_REV_STEP : Fld := ⟨15, 8, .ro, 0x42⟩
def MOD_REV_METAL : Fld := ⟨7, 0, .ro, 1⟩
def MOD_REV : Nat := 0x40000004
def MOD_SERIAL0_SERIAL : Fld := ⟨31, 0, .ro, 0⟩
def MOD_SERIAL0 : Nat := 0x40000008
def MOD_SERIAL1_SERIAL : Fld := ⟨31, 0, .ro, 0⟩
def MOD_SERIAL1 : Nat := 0x4000000c
def MOD_CAPS_CLUSTERS : Fld := ⟨31, 24, .ro, 8⟩
def MOD_CAPS_TRIADS : Fld := ⟨23, 16, .ro, 0x20⟩
def MOD_CAPS_CORES : Fld := ⟨15, 8, .ro, 0x68⟩
def MOD_CAPS : Nat := 0x40000010
def MOD_STATUS_SEALED : Fld := ⟨7, 7, .ro, 0⟩
def MOD_STATUS_KEYLOST : Fld := ⟨6, 6, .ro, 0⟩
def MOD_STATUS_RTCINV : Fld := ⟨5, 5, .ro, 0⟩
def MOD_STATUS_FATAL : Fld := ⟨4, 4, .ro, 0⟩
def MOD_STATUS_SAFEHALT : Fld := ⟨3, 3, .ro, 0⟩
def MOD_STATUS_INTAKE : Fld := ⟨2, 2, .ro, 0⟩
def MOD_STATUS_TRIADS : Fld := ⟨1, 1, .ro, 0⟩
def MOD_STATUS_READY : Fld := ⟨0, 0, .ro, 0⟩
def MOD_STATUS : Nat := 0x40000020
def MOD_HOLECNT_COUNT : Fld := ⟨15, 0, .rc, 0⟩
def MOD_HOLECNT : Nat := 0x40000028
def MOD_SCRATCH_DATA : Fld := ⟨31, 0, .rw, 0⟩
def MOD_SCRATCH : Nat := 0x40000030
def MOD_STOP_SCANLOCK : Fld := ⟨3, 3, .ro, 0⟩
def MOD_STOP_BOOTSTOP : Fld := ⟨2, 2, .ro, 1⟩
def MOD_STOP_SUPSTOP : Fld := ⟨1, 1, .ro, 0⟩
def MOD_STOP_HOSTSTOP : Fld := ⟨0, 0, .ro, 0⟩
def MOD_STOP : Nat := 0x40000034

/-- The registers of spec chapter 01. -/
def regRows01 : List RegRow :=
  [⟨"MOD_ID", 0x40000000, 1, 0x4, 1, 0x4, [ MOD_ID_PART, MOD_ID_VARIANT]⟩,
   ⟨"MOD_REV", 0x40000004, 1, 0x4, 1, 0x4, [ MOD_REV_STEP, MOD_REV_METAL]⟩,
   ⟨"MOD_SERIAL0", 0x40000008, 1, 0x4, 1, 0x4, [ MOD_SERIAL0_SERIAL]⟩,
   ⟨"MOD_SERIAL1", 0x4000000c, 1, 0x4, 1, 0x4, [ MOD_SERIAL1_SERIAL]⟩,
   ⟨"MOD_CAPS", 0x40000010, 1, 0x4, 1, 0x4, [ MOD_CAPS_CLUSTERS, MOD_CAPS_TRIADS, MOD_CAPS_CORES]⟩,
   ⟨"MOD_STATUS", 0x40000020, 1, 0x4, 1, 0x4, [ MOD_STATUS_SEALED, MOD_STATUS_KEYLOST, MOD_STATUS_RTCINV, MOD_STATUS_FATAL, MOD_STATUS_SAFEHALT, MOD_STATUS_INTAKE, MOD_STATUS_TRIADS, MOD_STATUS_READY]⟩,
   ⟨"MOD_HOLECNT", 0x40000028, 1, 0x4, 1, 0x4, [ MOD_HOLECNT_COUNT]⟩,
   ⟨"MOD_SCRATCH", 0x40000030, 1, 0x4, 1, 0x4, [ MOD_SCRATCH_DATA]⟩,
   ⟨"MOD_STOP", 0x40000034, 1, 0x4, 1, 0x4, [ MOD_STOP_SCANLOCK, MOD_STOP_BOOTSTOP, MOD_STOP_SUPSTOP, MOD_STOP_HOSTSTOP]⟩]

/-! ### Spec chapter 02: The weave image and stored profiles -/

def WV_STATUS_ERRSECT : Fld := ⟨23, 16, .ro, 0xff⟩
def WV_STATUS_ERROR : Fld := ⟨15, 8, .ro, 0⟩
def WV_STATUS_UNBOUND : Fld := ⟨7, 7, .ro, 0⟩
def WV_STATUS_LOCK : Fld := ⟨5, 5, .ro, 0⟩
def WV_STATUS_BYPIN : Fld := ⟨4, 4, .ro, 0⟩
def WV_STATUS_PROFILE : Fld := ⟨3, 2, .ro, 0⟩
def WV_STATUS_STATE : Fld := ⟨1, 0, .ro, 0⟩
def WV_STATUS : Nat := 0x400c0100
def WV_HASH_HASH : Fld := ⟨31, 0, .ro, 0⟩
def WV_HASH (i : Nat) : Nat := 0x400c0110 + 0x4 * i
def WV_BUILD0_BUILD : Fld := ⟨31, 0, .ro, 0⟩
def WV_BUILD0 : Nat := 0x400c0130
def WV_BUILD1_BUILD : Fld := ⟨31, 0, .ro, 0⟩
def WV_BUILD1 : Nat := 0x400c0134
def BOOT_CTL_PEND : Fld := ⟨8, 8, .ro, 0⟩
def BOOT_CTL_NEXTPROF : Fld := ⟨5, 4, .rw, 0⟩
def BOOT_CTL_PINSEL : Fld := ⟨0, 0, .rw, 0⟩
def BOOT_CTL : Nat := 0x400c0140
def WV_PSEL_LIVE : Fld := ⟨9, 8, .ro, 0⟩
def WV_PSEL_SAMPLED : Fld := ⟨1, 0, .ro, 0⟩
def WV_PSEL : Nat := 0x400c0144
def WV_SLOTSTAT_ACTIVE0 : Fld := ⟨3, 3, .ro, 0⟩
def WV_SLOTSTAT_ACTIVE1 : Fld := ⟨7, 7, .ro, 0⟩
def WV_SLOTSTAT_ACTIVE2 : Fld := ⟨11, 11, .ro, 0⟩
def WV_SLOTSTAT_ACTIVE3 : Fld := ⟨15, 15, .ro, 0⟩
def WV_SLOTSTAT_OK0 : Fld := ⟨2, 2, .ro, 0⟩
def WV_SLOTSTAT_OK1 : Fld := ⟨6, 6, .ro, 0⟩
def WV_SLOTSTAT_OK2 : Fld := ⟨10, 10, .ro, 0⟩
def WV_SLOTSTAT_OK3 : Fld := ⟨14, 14, .ro, 0⟩
def WV_SLOTSTAT_SIGOK0 : Fld := ⟨1, 1, .ro, 0⟩
def WV_SLOTSTAT_SIGOK1 : Fld := ⟨5, 5, .ro, 0⟩
def WV_SLOTSTAT_SIGOK2 : Fld := ⟨9, 9, .ro, 0⟩
def WV_SLOTSTAT_SIGOK3 : Fld := ⟨13, 13, .ro, 0⟩
def WV_SLOTSTAT_PRESENT0 : Fld := ⟨0, 0, .ro, 0⟩
def WV_SLOTSTAT_PRESENT1 : Fld := ⟨4, 4, .ro, 0⟩
def WV_SLOTSTAT_PRESENT2 : Fld := ⟨8, 8, .ro, 0⟩
def WV_SLOTSTAT_PRESENT3 : Fld := ⟨12, 12, .ro, 0⟩
def WV_SLOTSTAT : Nat := 0x400c0148

/-- The registers of spec chapter 02. -/
def regRows02 : List RegRow :=
  [⟨"WV_STATUS", 0x400c0100, 1, 0x4, 1, 0x4, [WV_STATUS_ERRSECT, WV_STATUS_ERROR, WV_STATUS_UNBOUND, WV_STATUS_LOCK, WV_STATUS_BYPIN, WV_STATUS_PROFILE, WV_STATUS_STATE]⟩,
   ⟨"WV_HASH", 0x400c0110, 8, 0x4, 1, 0x4, [WV_HASH_HASH]⟩,
   ⟨"WV_BUILD0", 0x400c0130, 1, 0x4, 1, 0x4, [WV_BUILD0_BUILD]⟩,
   ⟨"WV_BUILD1", 0x400c0134, 1, 0x4, 1, 0x4, [WV_BUILD1_BUILD]⟩,
   ⟨"BOOT_CTL", 0x400c0140, 1, 0x4, 1, 0x4, [BOOT_CTL_PEND, BOOT_CTL_NEXTPROF, BOOT_CTL_PINSEL]⟩,
   ⟨"WV_PSEL", 0x400c0144, 1, 0x4, 1, 0x4, [WV_PSEL_LIVE, WV_PSEL_SAMPLED]⟩,
   ⟨"WV_SLOTSTAT", 0x400c0148, 1, 0x4, 1, 0x4, [WV_SLOTSTAT_ACTIVE0, WV_SLOTSTAT_ACTIVE1, WV_SLOTSTAT_ACTIVE2, WV_SLOTSTAT_ACTIVE3, WV_SLOTSTAT_OK0, WV_SLOTSTAT_OK1, WV_SLOTSTAT_OK2, WV_SLOTSTAT_OK3, WV_SLOTSTAT_SIGOK0, WV_SLOTSTAT_SIGOK1, WV_SLOTSTAT_SIGOK2, WV_SLOTSTAT_SIGOK3, WV_SLOTSTAT_PRESENT0, WV_SLOTSTAT_PRESENT1, WV_SLOTSTAT_PRESENT2, WV_SLOTSTAT_PRESENT3]⟩]

/-! ### Spec chapter 08: Supervisors and cluster voters -/

def SUP_STATUS_HALTCAUSE : Fld := ⟨15, 12, .ro, 0⟩
def SUP_STATUS_SAFEHALT : Fld := ⟨8, 8, .ro, 0⟩
def SUP_STATUS_SUP2 : Fld := ⟨5, 4, .ro, 0⟩
def SUP_STATUS_SUP1 : Fld := ⟨3, 2, .ro, 0⟩
def SUP_STATUS_SUP0 : Fld := ⟨1, 0, .ro, 0⟩
def SUP_STATUS : Nat := 0x40080000
def SUP_REPEAT_MS : Fld := ⟨15, 0, .lk, 0x3e8⟩
def SUP_REPEAT : Nat := 0x40080004
def SUP_SCRUBCTL_EN : Fld := ⟨0, 0, .lk, 0⟩
def SUP_SCRUBCTL : Nat := 0x40080008
def SUP_SCRUBST_CORR : Fld := ⟨31, 16, .rc, 0⟩
def SUP_SCRUBST_PASSES : Fld := ⟨15, 0, .ro, 0⟩
def SUP_SCRUBST (i : Nat) : Nat := 0x40080010 + 0x4 * i
def SUP_SCRUBDBL_MRAM : Fld := ⟨31, 24, .rc, 0⟩
def SUP_SCRUBDBL_DESC : Fld := ⟨23, 16, .rc, 0⟩
def SUP_SCRUBDBL_LOCAL : Fld := ⟨15, 8, .rc, 0⟩
def SUP_SCRUBDBL_COMMON : Fld := ⟨7, 0, .rc, 0⟩
def SUP_SCRUBDBL : Nat := 0x40080020
def SUP_FLOGCNT_COUNT : Fld := ⟨31, 0, .ro, 0⟩
def SUP_FLOGCNT : Nat := 0x40080030
def SUP_FLOGSEL_INDEX : Fld := ⟨9, 0, .rw, 0⟩
def SUP_FLOGSEL : Nat := 0x40080034
def SUP_FLOGD_WORD : Fld := ⟨31, 0, .ro, 0⟩
def SUP_FLOGD (i : Nat) : Nat := 0x40080040 + 0x4 * i
def SUP_TRIAD_P2 : Fld := ⟨27, 24, .ro, 0⟩
def SUP_TRIAD_P1 : Fld := ⟨23, 20, .ro, 0⟩
def SUP_TRIAD_P0 : Fld := ⟨19, 16, .ro, 0⟩
def SUP_TRIAD_PAUSED : Fld := ⟨14, 14, .ro, 0⟩
def SUP_TRIAD_MODE : Fld := ⟨13, 12, .ro, 0⟩
def SUP_TRIAD_ENTRY : Fld := ⟨11, 8, .lk, 0⟩
def SUP_TRIAD_GROUP : Fld := ⟨7, 4, .lk, 0⟩
def SUP_TRIAD_DET : Fld := ⟨2, 2, .lk, 0⟩
def SUP_TRIAD_DUPLEXOK : Fld := ⟨1, 1, .lk, 0⟩
def SUP_TRIAD_EN : Fld := ⟨0, 0, .lk, 0⟩
def SUP_TRIAD (i : Nat) : Nat := 0x40080100 + 0x4 * i
def SUP_CLUSTER_LOST : Fld := ⟨28, 16, .ro, 0⟩
def SUP_CLUSTER_RSVJ : Fld := ⟨7, 6, .ro, 0⟩
def SUP_CLUSTER_RSVUSED : Fld := ⟨4, 4, .ro, 0⟩
def SUP_CLUSTER_RSVAVAIL : Fld := ⟨1, 1, .ro, 0⟩
def SUP_CLUSTER_RSVEN : Fld := ⟨0, 0, .lk, 0⟩
def SUP_CLUSTER (i : Nat) : Nat := 0x40080200 + 0x4 * i
def CLV_STATUS_MASKED : Fld := ⟨28, 16, .ro, 0⟩
def CLV_STATUS_PAUSED : Fld := ⟨15, 12, .ro, 0⟩
def CLV_STATUS_DUPLEX : Fld := ⟨11, 8, .ro, 0⟩
def CLV_STATUS_V2 : Fld := ⟨5, 4, .ro, 0⟩
def CLV_STATUS_V1 : Fld := ⟨3, 2, .ro, 0⟩
def CLV_STATUS_V0 : Fld := ⟨1, 0, .ro, 0⟩
def CLV_STATUS (i : Nat) : Nat := 0x48000000 + 0x100000 * i
def CLV_LSCNT_CORR : Fld := ⟨31, 16, .rc, 0⟩
def CLV_LSCNT_DBL : Fld := ⟨15, 8, .rc, 0⟩
def CLV_LSCNT_DISC : Fld := ⟨7, 0, .rc, 0⟩
def CLV_LSCNT (i : Nat) : Nat := 0x48000010 + 0x100000 * i
def CLV_DIV_DIVERGE : Fld := ⟨31, 16, .rc, 0⟩
def CLV_DIV_RESYNC : Fld := ⟨15, 8, .rc, 0⟩
def CLV_DIV (i j : Nat) : Nat := 0x48000100 + 0x100000 * i + 0x20 * j
def CLV_RCNTLO_COUNT : Fld := ⟨31, 0, .ro, 0⟩
def CLV_RCNTLO (i j : Nat) : Nat := 0x48000104 + 0x100000 * i + 0x20 * j
def CLV_RCNTHI_COUNT : Fld := ⟨31, 0, .ro, 0⟩
def CLV_RCNTHI (i j : Nat) : Nat := 0x48000108 + 0x100000 * i + 0x20 * j
def CLV_CHKLO_CHECK : Fld := ⟨31, 0, .ro, 0⟩
def CLV_CHKLO (i j : Nat) : Nat := 0x4800010c + 0x100000 * i + 0x20 * j
def CLV_CHKHI_CHECK : Fld := ⟨31, 0, .ro, 0⟩
def CLV_CHKHI (i j : Nat) : Nat := 0x48000110 + 0x100000 * i + 0x20 * j

/-- The registers of spec chapter 08. -/
def regRows08 : List RegRow :=
  [⟨"SUP_STATUS", 0x40080000, 1, 0x4, 1, 0x4, [SUP_STATUS_HALTCAUSE, SUP_STATUS_SAFEHALT, SUP_STATUS_SUP2, SUP_STATUS_SUP1, SUP_STATUS_SUP0]⟩,
   ⟨"SUP_REPEAT", 0x40080004, 1, 0x4, 1, 0x4, [SUP_REPEAT_MS]⟩,
   ⟨"SUP_SCRUBCTL", 0x40080008, 1, 0x4, 1, 0x4, [SUP_SCRUBCTL_EN]⟩,
   ⟨"SUP_SCRUBST", 0x40080010, 4, 0x4, 1, 0x4, [SUP_SCRUBST_CORR, SUP_SCRUBST_PASSES]⟩,
   ⟨"SUP_SCRUBDBL", 0x40080020, 1, 0x4, 1, 0x4, [SUP_SCRUBDBL_MRAM, SUP_SCRUBDBL_DESC, SUP_SCRUBDBL_LOCAL, SUP_SCRUBDBL_COMMON]⟩,
   ⟨"SUP_FLOGCNT", 0x40080030, 1, 0x4, 1, 0x4, [SUP_FLOGCNT_COUNT]⟩,
   ⟨"SUP_FLOGSEL", 0x40080034, 1, 0x4, 1, 0x4, [SUP_FLOGSEL_INDEX]⟩,
   ⟨"SUP_FLOGD", 0x40080040, 4, 0x4, 1, 0x4, [SUP_FLOGD_WORD]⟩,
   ⟨"SUP_TRIAD", 0x40080100, 32, 0x4, 1, 0x4, [SUP_TRIAD_P2, SUP_TRIAD_P1, SUP_TRIAD_P0, SUP_TRIAD_PAUSED, SUP_TRIAD_MODE, SUP_TRIAD_ENTRY, SUP_TRIAD_GROUP, SUP_TRIAD_DET, SUP_TRIAD_DUPLEXOK, SUP_TRIAD_EN]⟩,
   ⟨"SUP_CLUSTER", 0x40080200, 8, 0x4, 1, 0x4, [SUP_CLUSTER_LOST, SUP_CLUSTER_RSVJ, SUP_CLUSTER_RSVUSED, SUP_CLUSTER_RSVAVAIL, SUP_CLUSTER_RSVEN]⟩,
   ⟨"CLV_STATUS", 0x48000000, 8, 0x100000, 1, 0x4, [CLV_STATUS_MASKED, CLV_STATUS_PAUSED, CLV_STATUS_DUPLEX, CLV_STATUS_V2, CLV_STATUS_V1, CLV_STATUS_V0]⟩,
   ⟨"CLV_LSCNT", 0x48000010, 8, 0x100000, 1, 0x4, [CLV_LSCNT_CORR, CLV_LSCNT_DBL, CLV_LSCNT_DISC]⟩,
   ⟨"CLV_DIV", 0x48000100, 8, 0x100000, 4, 0x20, [CLV_DIV_DIVERGE, CLV_DIV_RESYNC]⟩,
   ⟨"CLV_RCNTLO", 0x48000104, 8, 0x100000, 4, 0x20, [CLV_RCNTLO_COUNT]⟩,
   ⟨"CLV_RCNTHI", 0x48000108, 8, 0x100000, 4, 0x20, [CLV_RCNTHI_COUNT]⟩,
   ⟨"CLV_CHKLO", 0x4800010c, 8, 0x100000, 4, 0x20, [CLV_CHKLO_CHECK]⟩,
   ⟨"CLV_CHKHI", 0x48000110, 8, 0x100000, 4, 0x20, [CLV_CHKHI_CHECK]⟩]

/-! ### Spec chapter 09: Lattice and common store -/

def LAT_HFENCE_GO : Fld := ⟨31, 31, .wo, 0⟩
def LAT_HFENCE_DONE : Fld := ⟨15, 0, .ro, 0⟩
def LAT_HFENCE : Nat := 0x40090040
def LAT_STATUS_MWERR : Fld := ⟨31, 24, .rc, 0⟩
def LAT_STATUS_FAILLINKS : Fld := ⟨15, 8, .ro, 0⟩
def LAT_STATUS_SPARELINKS : Fld := ⟨7, 0, .ro, 0⟩
def LAT_STATUS : Nat := 0x40090000
def LAT_E2E_RETX : Fld := ⟨31, 16, .rc, 0⟩
def LAT_E2E_ROUTEFAIL : Fld := ⟨15, 0, .rc, 0⟩
def LAT_E2E : Nat := 0x40090004
def LAT_TORN_TGT : Fld := ⟨23, 16, .ro, 0xff⟩
def LAT_TORN_SRC : Fld := ⟨15, 8, .ro, 0xff⟩
def LAT_TORN_COUNT : Fld := ⟨7, 0, .rc, 0⟩
def LAT_TORN : Nat := 0x40090008
def LAT_RTRFAIL_FAIL : Fld := ⟨15, 0, .ro, 0⟩
def LAT_RTRFAIL : Nat := 0x4009000c
def CS_ERRADR_ADDR : Fld := ⟨31, 0, .ro, 0⟩
def CS_ERRADR : Nat := 0x40090010
def CS_ERRINFO_SRC : Fld := ⟨15, 8, .ro, 0⟩
def CS_ERRINFO_VALID : Fld := ⟨7, 7, .w1c, 0⟩
def CS_ERRINFO : Nat := 0x40090014
def LAT_LINK_STATE : Fld := ⟨17, 16, .ro, 0⟩
def LAT_LINK_RETRY : Fld := ⟨15, 0, .rc, 0⟩
def LAT_LINK (i : Nat) : Nat := 0x40090100 + 0x4 * i
def CS_BANK_CORR : Fld := ⟨31, 24, .rc, 0⟩
def CS_BANK_DBL : Fld := ⟨23, 16, .rc, 0⟩
def CS_BANK_DISC : Fld := ⟨15, 8, .rc, 0⟩
def CS_BANK_TORN : Fld := ⟨7, 0, .rc, 0⟩
def CS_BANK (i : Nat) : Nat := 0x40090200 + 0x4 * i

/-- The registers of spec chapter 09. -/
def regRows09 : List RegRow :=
  [⟨"LAT_HFENCE", 0x40090040, 1, 0x4, 1, 0x4, [LAT_HFENCE_GO, LAT_HFENCE_DONE]⟩,
   ⟨"LAT_STATUS", 0x40090000, 1, 0x4, 1, 0x4, [LAT_STATUS_MWERR, LAT_STATUS_FAILLINKS, LAT_STATUS_SPARELINKS]⟩,
   ⟨"LAT_E2E", 0x40090004, 1, 0x4, 1, 0x4, [LAT_E2E_RETX, LAT_E2E_ROUTEFAIL]⟩,
   ⟨"LAT_TORN", 0x40090008, 1, 0x4, 1, 0x4, [LAT_TORN_TGT, LAT_TORN_SRC, LAT_TORN_COUNT]⟩,
   ⟨"LAT_RTRFAIL", 0x4009000c, 1, 0x4, 1, 0x4, [LAT_RTRFAIL_FAIL]⟩,
   ⟨"CS_ERRADR", 0x40090010, 1, 0x4, 1, 0x4, [CS_ERRADR_ADDR]⟩,
   ⟨"CS_ERRINFO", 0x40090014, 1, 0x4, 1, 0x4, [CS_ERRINFO_SRC, CS_ERRINFO_VALID]⟩,
   ⟨"LAT_LINK", 0x40090100, 24, 0x4, 1, 0x4, [LAT_LINK_STATE, LAT_LINK_RETRY]⟩,
   ⟨"CS_BANK", 0x40090200, 16, 0x4, 1, 0x4, [CS_BANK_CORR, CS_BANK_DBL, CS_BANK_DISC, CS_BANK_TORN]⟩]

/-! ### Spec chapter 10: Caravan queue engine -/

def QE_STATUS_POOLLOW : Fld := ⟨2, 2, .ro, 0⟩
def QE_STATUS_POOLEMPTY : Fld := ⟨1, 1, .ro, 0⟩
def QE_STATUS_LOADED : Fld := ⟨0, 0, .ro, 0⟩
def QE_STATUS : Nat := 0x41000000
def QE_POOLFREE_FREE : Fld := ⟨18, 0, .ro, 0x40000⟩
def QE_POOLFREE : Nat := 0x41000004
def QE_POOLLOW_LEVEL : Fld := ⟨18, 0, .rw, 0x4000⟩
def QE_POOLLOW : Nat := 0x41000008
def QE_LEAKED_CELLS : Fld := ⟨18, 0, .ro, 0⟩
def QE_LEAKED : Nat := 0x4100000c
def QE_REFUSED_CLOSED : Fld := ⟨31, 16, .rc, 0⟩
def QE_REFUSED_DENY : Fld := ⟨15, 0, .rc, 0⟩
def QE_REFUSED : Nat := 0x41000010
def QE_TORN_COUNT : Fld := ⟨7, 0, .rc, 0⟩
def QE_TORN : Nat := 0x41000014
def QE_GAPTAB_OVERFLOW : Fld := ⟨31, 16, .rc, 0⟩
def QE_GAPTAB_USED : Fld := ⟨14, 0, .ro, 0⟩
def QE_GAPTAB : Nat := 0x41000018
def QE_QCMD_OP : Fld := ⟨31, 28, .wo, 0⟩
def QE_QCMD_QID : Fld := ⟨19, 0, .wo, 0⟩
def QE_QCMD : Nat := 0x41000020
def QE_QCMDST_LOST : Fld := ⟨8, 8, .w1c, 0⟩
def QE_QCMDST_BUSY : Fld := ⟨7, 7, .ro, 0⟩
def QE_QCMDST_RESULT : Fld := ⟨1, 0, .ro, 0⟩
def QE_QCMDST : Nat := 0x41000024
def QE_DINSP_DESC : Fld := ⟨31, 0, .ro, 0⟩
def QE_DINSP (i : Nat) : Nat := 0x41000030 + 0x4 * i
def QE_NOTIPEND_PEND : Fld := ⟨31, 0, .ro, 0⟩
def QE_NOTIPEND (i : Nat) : Nat := 0x41000040 + 0x4 * i
def QE_CFIRST_FIRST : Fld := ⟨19, 0, .lk, 0⟩
def QE_CFIRST (i : Nat) : Nat := 0x41000100 + 0x20 * i
def QE_CLAST_LAST : Fld := ⟨19, 0, .lk, 0⟩
def QE_CLAST (i : Nat) : Nat := 0x41000104 + 0x20 * i
def QE_CQUOTA_QUOTA : Fld := ⟨21, 0, .lk, 0⟩
def QE_CQUOTA (i : Nat) : Nat := 0x41000108 + 0x20 * i
def QE_CSTALE_LEVEL : Fld := ⟨25, 24, .ro, 0⟩
def QE_CSTALE_STALE : Fld := ⟨23, 0, .lk, 0⟩
def QE_CSTALE (i : Nat) : Nat := 0x4100010c + 0x20 * i
def QE_COWN_VALID : Fld := ⟨31, 31, .ro, 0⟩
def QE_COWN_NOTIFY : Fld := ⟨15, 8, .lk, 0xff⟩
def QE_COWN_OWNER : Fld := ⟨7, 0, .lk, 0xff⟩
def QE_COWN (i : Nat) : Nat := 0x41000110 + 0x20 * i
def QE_CDROP_DROP : Fld := ⟨31, 0, .rc, 0⟩
def QE_CDROP (i : Nat) : Nat := 0x41000114 + 0x20 * i
def QE_CERR_POISON : Fld := ⟨31, 16, .rc, 0⟩
def QE_CERR_DISC : Fld := ⟨15, 0, .rc, 0⟩
def QE_CERR (i : Nat) : Nat := 0x41000118 + 0x20 * i
def QE_CEVT_GAPS : Fld := ⟨31, 16, .rc, 0⟩
def QE_CEVT_BROKEN : Fld := ⟨15, 8, .rc, 0⟩
def QE_CEVT_BRKDROP : Fld := ⟨7, 0, .rc, 0⟩
def QE_CEVT (i : Nat) : Nat := 0x4100011c + 0x20 * i

/-- The registers of spec chapter 10. -/
def regRows10 : List RegRow :=
  [⟨"QE_STATUS", 0x41000000, 1, 0x4, 1, 0x4, [QE_STATUS_POOLLOW, QE_STATUS_POOLEMPTY, QE_STATUS_LOADED]⟩,
   ⟨"QE_POOLFREE", 0x41000004, 1, 0x4, 1, 0x4, [QE_POOLFREE_FREE]⟩,
   ⟨"QE_POOLLOW", 0x41000008, 1, 0x4, 1, 0x4, [QE_POOLLOW_LEVEL]⟩,
   ⟨"QE_LEAKED", 0x4100000c, 1, 0x4, 1, 0x4, [QE_LEAKED_CELLS]⟩,
   ⟨"QE_REFUSED", 0x41000010, 1, 0x4, 1, 0x4, [QE_REFUSED_CLOSED, QE_REFUSED_DENY]⟩,
   ⟨"QE_TORN", 0x41000014, 1, 0x4, 1, 0x4, [QE_TORN_COUNT]⟩,
   ⟨"QE_GAPTAB", 0x41000018, 1, 0x4, 1, 0x4, [QE_GAPTAB_OVERFLOW, QE_GAPTAB_USED]⟩,
   ⟨"QE_QCMD", 0x41000020, 1, 0x4, 1, 0x4, [QE_QCMD_OP, QE_QCMD_QID]⟩,
   ⟨"QE_QCMDST", 0x41000024, 1, 0x4, 1, 0x4, [QE_QCMDST_LOST, QE_QCMDST_BUSY, QE_QCMDST_RESULT]⟩,
   ⟨"QE_DINSP", 0x41000030, 4, 0x4, 1, 0x4, [QE_DINSP_DESC]⟩,
   ⟨"QE_NOTIPEND", 0x41000040, 8, 0x4, 1, 0x4, [QE_NOTIPEND_PEND]⟩,
   ⟨"QE_CFIRST", 0x41000100, 66, 0x20, 1, 0x4, [QE_CFIRST_FIRST]⟩,
   ⟨"QE_CLAST", 0x41000104, 66, 0x20, 1, 0x4, [QE_CLAST_LAST]⟩,
   ⟨"QE_CQUOTA", 0x41000108, 66, 0x20, 1, 0x4, [QE_CQUOTA_QUOTA]⟩,
   ⟨"QE_CSTALE", 0x4100010c, 66, 0x20, 1, 0x4, [QE_CSTALE_LEVEL, QE_CSTALE_STALE]⟩,
   ⟨"QE_COWN", 0x41000110, 66, 0x20, 1, 0x4, [QE_COWN_VALID, QE_COWN_NOTIFY, QE_COWN_OWNER]⟩,
   ⟨"QE_CDROP", 0x41000114, 66, 0x20, 1, 0x4, [QE_CDROP_DROP]⟩,
   ⟨"QE_CERR", 0x41000118, 66, 0x20, 1, 0x4, [QE_CERR_POISON, QE_CERR_DISC]⟩,
   ⟨"QE_CEVT", 0x4100011c, 66, 0x20, 1, 0x4, [QE_CEVT_GAPS, QE_CEVT_BROKEN, QE_CEVT_BRKDROP]⟩]

/-! ### Spec chapter 11: Weft sequencer -/

def WS_CTRL_HOLD : Fld := ⟨1, 1, .rw, 0⟩
def WS_CTRL_EN : Fld := ⟨0, 0, .rw, 0⟩
def WS_CTRL : Nat := 0x42000000
def WS_STATUS_CTXERR : Fld := ⟨5, 5, .w1c, 0⟩
def WS_STATUS_STOPPED : Fld := ⟨4, 4, .ro, 0⟩
def WS_STATUS_RINGWAIT : Fld := ⟨3, 3, .ro, 0⟩
def WS_STATUS_FULL : Fld := ⟨2, 2, .ro, 0⟩
def WS_STATUS_THROTTLE : Fld := ⟨1, 1, .ro, 0⟩
def WS_STATUS_RUN : Fld := ⟨0, 0, .ro, 0⟩
def WS_STATUS : Nat := 0x42000004
def WS_CTXBASE_BASE : Fld := ⟨31, 12, .rw, 0x10000⟩
def WS_CTXBASE : Nat := 0x42000008
def WS_GEOM_START : Fld := ⟨31, 24, .lk, 0⟩
def WS_GEOM_NSTAGE : Fld := ⟨15, 0, .lk, 0⟩
def WS_GEOM : Nat := 0x4200000c
def WS_MAXFLIGHT_MAX : Fld := ⟨16, 0, .lk, 0x10000⟩
def WS_MAXFLIGHT : Nat := 0x42000010
def WS_INFLIGHT_COUNT : Fld := ⟨16, 0, .ro, 0⟩
def WS_INFLIGHT : Nat := 0x42000014
def WS_TIDNEXT_TID : Fld := ⟨31, 0, .ro, 0⟩
def WS_TIDNEXT : Nat := 0x42000018
def WS_HEADTID_TID : Fld := ⟨31, 0, .ro, 0⟩
def WS_HEADTID : Nat := 0x4200001c
def WS_SEQLO_SEQ : Fld := ⟨31, 0, .ro, 0⟩
def WS_SEQLO : Nat := 0x42000020
def WS_SEQHI_SEQ : Fld := ⟨31, 0, .ro, 0⟩
def WS_SEQHI : Nat := 0x42000024
def WS_ABT_COUNT : Fld := ⟨31, 0, .rc, 0⟩
def WS_ABT (i : Nat) : Nat := 0x42000040 + 4 * i
def WS_POSTEND_COUNT : Fld := ⟨31, 0, .rc, 0⟩
def WS_POSTEND : Nat := 0x42000064
def WS_REWIND_COUNT : Fld := ⟨31, 0, .rc, 0⟩
def WS_REWIND : Nat := 0x42000068
def WS_RESDISC_STALE : Fld := ⟨31, 16, .rc, 0⟩
def WS_RESDISC_MALFORMED : Fld := ⟨15, 0, .rc, 0⟩
def WS_RESDISC : Nat := 0x4200006c
def WS_NOTE_LOST : Fld := ⟨31, 16, .rc, 0⟩
def WS_NOTE_BROKEN : Fld := ⟨15, 8, .rc, 0⟩
def WS_NOTE : Nat := 0x42000070
def WS_SLOTSEL_SLOT : Fld := ⟨15, 0, .rw, 0⟩
def WS_SLOTSEL : Nat := 0x42000080
def WS_SLOTST_CKSTAGE : Fld := ⟨15, 8, .ro, 0⟩
def WS_SLOTST_STATE : Fld := ⟨2, 0, .ro, 0⟩
def WS_SLOTST : Nat := 0x42000084
def WS_SLOTTOKHI_TOKEN : Fld := ⟨31, 0, .ro, 0⟩
def WS_SLOTTOKHI : Nat := 0x42000088
def WS_SLOTTOKLO_TOKEN : Fld := ⟨31, 0, .ro, 0⟩
def WS_SLOTTOKLO : Nat := 0x4200008c
def WS_STGW0_FLAGS : Fld := ⟨31, 24, .lk, 0⟩
def WS_STGW0_QCLASS : Fld := ⟨23, 16, .lk, 0⟩
def WS_STGW0_HARG : Fld := ⟨15, 8, .lk, 0⟩
def WS_STGW0_KIND : Fld := ⟨7, 0, .lk, 0⟩
def WS_STGW0 (i : Nat) : Nat := 0x42001000 + 0x10 * i
def WS_STGW1_NEXT : Fld := ⟨31, 0, .lk, 0⟩
def WS_STGW1 (i : Nat) : Nat := 0x42001004 + 0x10 * i
def WS_STGW2_OARG : Fld := ⟨31, 24, .lk, 0⟩
def WS_STGW2_NARG : Fld := ⟨23, 16, .lk, 0⟩
def WS_STGW2_TMO : Fld := ⟨15, 0, .lk, 0⟩
def WS_STGW2 (i : Nat) : Nat := 0x42001008 + 0x10 * i
def WS_STGW3 (i : Nat) : Nat := 0x4200100c + 0x10 * i

/-- The registers of spec chapter 11. -/
def regRows11 : List RegRow :=
  [⟨"WS_CTRL", 0x42000000, 1, 0x4, 1, 0x4, [WS_CTRL_HOLD, WS_CTRL_EN]⟩,
   ⟨"WS_STATUS", 0x42000004, 1, 0x4, 1, 0x4, [WS_STATUS_CTXERR, WS_STATUS_STOPPED, WS_STATUS_RINGWAIT, WS_STATUS_FULL, WS_STATUS_THROTTLE, WS_STATUS_RUN]⟩,
   ⟨"WS_CTXBASE", 0x42000008, 1, 0x4, 1, 0x4, [WS_CTXBASE_BASE]⟩,
   ⟨"WS_GEOM", 0x4200000c, 1, 0x4, 1, 0x4, [WS_GEOM_START, WS_GEOM_NSTAGE]⟩,
   ⟨"WS_MAXFLIGHT", 0x42000010, 1, 0x4, 1, 0x4, [WS_MAXFLIGHT_MAX]⟩,
   ⟨"WS_INFLIGHT", 0x42000014, 1, 0x4, 1, 0x4, [WS_INFLIGHT_COUNT]⟩,
   ⟨"WS_TIDNEXT", 0x42000018, 1, 0x4, 1, 0x4, [WS_TIDNEXT_TID]⟩,
   ⟨"WS_HEADTID", 0x4200001c, 1, 0x4, 1, 0x4, [WS_HEADTID_TID]⟩,
   ⟨"WS_SEQLO", 0x42000020, 1, 0x4, 1, 0x4, [WS_SEQLO_SEQ]⟩,
   ⟨"WS_SEQHI", 0x42000024, 1, 0x4, 1, 0x4, [WS_SEQHI_SEQ]⟩,
   ⟨"WS_ABT", 0x42000044, 8, 0x4, 1, 0x4, [WS_ABT_COUNT]⟩,
   ⟨"WS_POSTEND", 0x42000064, 1, 0x4, 1, 0x4, [WS_POSTEND_COUNT]⟩,
   ⟨"WS_REWIND", 0x42000068, 1, 0x4, 1, 0x4, [WS_REWIND_COUNT]⟩,
   ⟨"WS_RESDISC", 0x4200006c, 1, 0x4, 1, 0x4, [WS_RESDISC_STALE, WS_RESDISC_MALFORMED]⟩,
   ⟨"WS_NOTE", 0x42000070, 1, 0x4, 1, 0x4, [WS_NOTE_LOST, WS_NOTE_BROKEN]⟩,
   ⟨"WS_SLOTSEL", 0x42000080, 1, 0x4, 1, 0x4, [WS_SLOTSEL_SLOT]⟩,
   ⟨"WS_SLOTST", 0x42000084, 1, 0x4, 1, 0x4, [WS_SLOTST_CKSTAGE, WS_SLOTST_STATE]⟩,
   ⟨"WS_SLOTTOKHI", 0x42000088, 1, 0x4, 1, 0x4, [WS_SLOTTOKHI_TOKEN]⟩,
   ⟨"WS_SLOTTOKLO", 0x4200008c, 1, 0x4, 1, 0x4, [WS_SLOTTOKLO_TOKEN]⟩,
   ⟨"WS_STGW0", 0x42001000, 256, 0x10, 1, 0x4, [WS_STGW0_FLAGS, WS_STGW0_QCLASS, WS_STGW0_HARG, WS_STGW0_KIND]⟩,
   ⟨"WS_STGW1", 0x42001004, 256, 0x10, 1, 0x4, [WS_STGW1_NEXT]⟩,
   ⟨"WS_STGW2", 0x42001008, 256, 0x10, 1, 0x4, [WS_STGW2_OARG, WS_STGW2_NARG, WS_STGW2_TMO]⟩,
   ⟨"WS_STGW3", 0x4200100c, 256, 0x10, 1, 0x4, []⟩]

/-! ### Spec chapter 12: Tally engine -/

def TLY_CTRL_OPEN : Fld := ⟨0, 0, .w1s, 0⟩
def TLY_CTRL : Nat := 0x43000000
def TLY_STATUS_LDREFUSED : Fld := ⟨3, 3, .w1c, 0⟩
def TLY_STATUS_LDBUSY : Fld := ⟨2, 2, .ro, 0⟩
def TLY_STATUS_DEPFULL : Fld := ⟨1, 1, .ro, 0⟩
def TLY_STATUS_OPEN : Fld := ⟨0, 0, .ro, 0⟩
def TLY_STATUS : Nat := 0x43000004
def TLY_DEPUSED_USED : Fld := ⟨17, 0, .ro, 0⟩
def TLY_DEPUSED : Nat := 0x43000008
def TLY_PARKED_COUNT : Fld := ⟨17, 0, .ro, 0⟩
def TLY_PARKED : Nat := 0x4300000c
def TLY_OVER_COUNT : Fld := ⟨31, 0, .rc, 0⟩
def TLY_OVER : Nat := 0x43000010
def TLY_REPORT_COUNT : Fld := ⟨31, 0, .rc, 0⟩
def TLY_REPORT : Nat := 0x43000014
def TLY_ERR_MALFORMED : Fld := ⟨31, 24, .rc, 0⟩
def TLY_ERR_BAD : Fld := ⟨23, 16, .rc, 0⟩
def TLY_ERR_STALE : Fld := ⟨15, 8, .rc, 0⟩
def TLY_ERR_BUSY : Fld := ⟨7, 0, .rc, 0⟩
def TLY_ERR : Nat := 0x43000018
def TLY_TORN_COUNT : Fld := ⟨7, 0, .rc, 0⟩
def TLY_TORN : Nat := 0x4300001c
def TLY_LDIDX_TALLY : Fld := ⟨15, 0, .rw, 0⟩
def TLY_LDIDX : Nat := 0x43000020
def TLY_LDVAL_DIGITS : Fld := ⟨31, 0, .rw, 0⟩
def TLY_LDVAL (i : Nat) : Nat := 0x43000024 + 0x4 * i
def TLY_LDCMD_GO : Fld := ⟨31, 31, .wo, 0⟩
def TLY_LDCMD : Nat := 0x43000034
def TLY_SEL_TALLY : Fld := ⟨15, 0, .rw, 0⟩
def TLY_SEL : Nat := 0x43000040
def TLY_INFO_EN : Fld := ⟨31, 31, .ro, 0⟩
def TLY_INFO_NDELTA : Fld := ⟨19, 16, .ro, 0⟩
def TLY_INFO_PARKED : Fld := ⟨15, 0, .ro, 0⟩
def TLY_INFO : Nat := 0x43000044
def TLY_COMM_DIGITS : Fld := ⟨31, 0, .ro, 0⟩
def TLY_COMM (i : Nat) : Nat := 0x43000048 + 0x4 * i
def TLY_LIM_DIGITS : Fld := ⟨31, 0, .ro, 0⟩
def TLY_LIM (i : Nat) : Nat := 0x43000058 + 0x4 * i

/-- The registers of spec chapter 12. -/
def regRows12 : List RegRow :=
  [⟨"TLY_CTRL", 0x43000000, 1, 0x4, 1, 0x4, [TLY_CTRL_OPEN]⟩,
   ⟨"TLY_STATUS", 0x43000004, 1, 0x4, 1, 0x4, [TLY_STATUS_LDREFUSED, TLY_STATUS_LDBUSY, TLY_STATUS_DEPFULL, TLY_STATUS_OPEN]⟩,
   ⟨"TLY_DEPUSED", 0x43000008, 1, 0x4, 1, 0x4, [TLY_DEPUSED_USED]⟩,
   ⟨"TLY_PARKED", 0x4300000c, 1, 0x4, 1, 0x4, [TLY_PARKED_COUNT]⟩,
   ⟨"TLY_OVER", 0x43000010, 1, 0x4, 1, 0x4, [TLY_OVER_COUNT]⟩,
   ⟨"TLY_REPORT", 0x43000014, 1, 0x4, 1, 0x4, [TLY_REPORT_COUNT]⟩,
   ⟨"TLY_ERR", 0x43000018, 1, 0x4, 1, 0x4, [TLY_ERR_MALFORMED, TLY_ERR_BAD, TLY_ERR_STALE, TLY_ERR_BUSY]⟩,
   ⟨"TLY_TORN", 0x4300001c, 1, 0x4, 1, 0x4, [TLY_TORN_COUNT]⟩,
   ⟨"TLY_LDIDX", 0x43000020, 1, 0x4, 1, 0x4, [TLY_LDIDX_TALLY]⟩,
   ⟨"TLY_LDVAL", 0x43000024, 4, 0x4, 1, 0x4, [TLY_LDVAL_DIGITS]⟩,
   ⟨"TLY_LDCMD", 0x43000034, 1, 0x4, 1, 0x4, [TLY_LDCMD_GO]⟩,
   ⟨"TLY_SEL", 0x43000040, 1, 0x4, 1, 0x4, [TLY_SEL_TALLY]⟩,
   ⟨"TLY_INFO", 0x43000044, 1, 0x4, 1, 0x4, [TLY_INFO_EN, TLY_INFO_NDELTA, TLY_INFO_PARKED]⟩,
   ⟨"TLY_COMM", 0x43000048, 4, 0x4, 1, 0x4, [TLY_COMM_DIGITS]⟩,
   ⟨"TLY_LIM", 0x43000058, 4, 0x4, 1, 0x4, [TLY_LIM_DIGITS]⟩]

/-! ### Spec chapter 13: Ledger engine and crypto engines -/

def LED_STATUS_PFAIL : Fld := ⟨4, 4, .ro, 0⟩
def LED_STATUS_ANCHORPEND : Fld := ⟨3, 3, .ro, 0⟩
def LED_STATUS_SIGNING : Fld := ⟨2, 2, .ro, 0⟩
def LED_STATUS_NOROOM : Fld := ⟨1, 1, .ro, 0⟩
def LED_STATUS_READY : Fld := ⟨0, 0, .ro, 0⟩
def LED_STATUS : Nat := 0x44000000
def LED_PEND_COUNT : Fld := ⟨11, 0, .ro, 0⟩
def LED_PEND : Nat := 0x44000004
def LED_OCC_SLOTS : Fld := ⟨18, 0, .ro, 0⟩
def LED_OCC : Nat := 0x44000008
def LED_HIWATER_SLOTS : Fld := ⟨18, 0, .lk, 0x5f800⟩
def LED_HIWATER : Nat := 0x4400000c
def LED_CAIRNINT_CAIRN : Fld := ⟨16, 0, .lk, 0x1000⟩
def LED_CAIRNINT : Nat := 0x44000010
def LED_NEXTSLOT_SLOT : Fld := ⟨18, 0, .ro, 0⟩
def LED_NEXTSLOT : Nat := 0x44000014
def LED_DURSEQLO_SEQ : Fld := ⟨31, 0, .ro, 0⟩
def LED_DURSEQLO : Nat := 0x44000020
def LED_DURSEQHI_SEQ : Fld := ⟨31, 0, .ro, 0⟩
def LED_DURSEQHI : Nat := 0x44000024
def LED_DURSLOT_SLOT : Fld := ⟨18, 0, .ro, 0⟩
def LED_DURSLOT : Nat := 0x44000028
def LED_FIRSTSLOT_SLOT : Fld := ⟨18, 0, .ro, 0⟩
def LED_FIRSTSLOT : Nat := 0x4400002c
def LED_HEADDIG_DIG : Fld := ⟨31, 0, .ro, 0⟩
def LED_HEADDIG (i : Nat) : Nat := 0x44000040 + 0x4 * i
def LED_ACKLO_SEQ : Fld := ⟨31, 0, .rw, 0⟩
def LED_ACKLO : Nat := 0x44000030
def LED_ACKHI_SEQ : Fld := ⟨31, 0, .rw, 0⟩
def LED_ACKHI : Nat := 0x44000034
def LED_ACKERR_AHEAD : Fld := ⟨31, 16, .rc, 0⟩
def LED_ACKERR_OLD : Fld := ⟨15, 0, .rc, 0⟩
def LED_ACKERR : Nat := 0x44000038
def LED_RECOV_FRESH : Fld := ⟨31, 31, .ro, 0⟩
def LED_RECOV_ANCHORCOPY : Fld := ⟨30, 30, .ro, 0⟩
def LED_RECOV_ANCHORBAD : Fld := ⟨29, 29, .ro, 0⟩
def LED_RECOV_NOANCHOR : Fld := ⟨28, 28, .ro, 0⟩
def LED_RECOV_SCANNED : Fld := ⟨18, 0, .ro, 0⟩
def LED_RECOV : Nat := 0x44000060
def LED_VOID_COUNT : Fld := ⟨31, 0, .rc, 0⟩
def LED_VOID : Nat := 0x44000064
def LED_TORN_COUNT : Fld := ⟨7, 0, .rc, 0⟩
def LED_TORN : Nat := 0x44000068
def LED_REQERR_FORGED : Fld := ⟨7, 0, .rc, 0⟩
def LED_REQERR : Nat := 0x4400006c
/-- Bits [6:0] read as zero. -/
def LED_DMAHADRLO_ADDR : Fld := ⟨31, 7, .rw, 0⟩
def LED_DMAHADRLO : Nat := 0x44000070
def LED_DMAHADRHI_ADDR : Fld := ⟨31, 0, .rw, 0⟩
def LED_DMAHADRHI : Nat := 0x44000074
def LED_DMASLOT_SLOT : Fld := ⟨18, 0, .rw, 0⟩
def LED_DMASLOT : Nat := 0x44000078
def LED_DMACNT_COUNT : Fld := ⟨16, 0, .rw, 0⟩
def LED_DMACNT : Nat := 0x4400007c
def LED_DMACTL_GO : Fld := ⟨31, 31, .wo, 0⟩
def LED_DMACTL_ERR : Fld := ⟨2, 2, .w1c, 0⟩
def LED_DMACTL_DONE : Fld := ⟨1, 1, .w1c, 0⟩
def LED_DMACTL_BUSY : Fld := ⟨0, 0, .ro, 0⟩
def LED_DMACTL : Nat := 0x44000080
def LED_CAIRNCNT_NOKEY : Fld := ⟨31, 16, .rc, 0⟩
def LED_CAIRNCNT_COUNT : Fld := ⟨15, 0, .rc, 0⟩
def LED_CAIRNCNT : Nat := 0x44000090
def CRY_STATUS_NOSIGN : Fld := ⟨2, 2, .ro, 0⟩
def CRY_STATUS_NOMASTER : Fld := ⟨1, 1, .ro, 0⟩
def CRY_STATUS_BUSY : Fld := ⟨0, 0, .ro, 0⟩
def CRY_STATUS (i : Nat) : Nat := 0x48030000 + 0x100000 * i
def CRY_OPS_COUNT : Fld := ⟨31, 0, .rc, 0⟩
def CRY_OPS (i : Nat) : Nat := 0x48030004 + 0x100000 * i
def CRY_ERR_MISMATCH : Fld := ⟨31, 24, .rc, 0⟩
def CRY_ERR_FAIL : Fld := ⟨23, 16, .rc, 0⟩
def CRY_ERR_MALFORMED : Fld := ⟨15, 8, .rc, 0⟩
def CRY_ERR_NOKEY : Fld := ⟨7, 0, .rc, 0⟩
def CRY_ERR (i : Nat) : Nat := 0x48030008 + 0x100000 * i

/-- The registers of spec chapter 13. -/
def regRows13 : List RegRow :=
  [⟨"LED_STATUS", 0x44000000, 1, 0x4, 1, 0x4, [LED_STATUS_PFAIL, LED_STATUS_ANCHORPEND, LED_STATUS_SIGNING, LED_STATUS_NOROOM, LED_STATUS_READY]⟩,
   ⟨"LED_PEND", 0x44000004, 1, 0x4, 1, 0x4, [LED_PEND_COUNT]⟩,
   ⟨"LED_OCC", 0x44000008, 1, 0x4, 1, 0x4, [LED_OCC_SLOTS]⟩,
   ⟨"LED_HIWATER", 0x4400000c, 1, 0x4, 1, 0x4, [LED_HIWATER_SLOTS]⟩,
   ⟨"LED_CAIRNINT", 0x44000010, 1, 0x4, 1, 0x4, [LED_CAIRNINT_CAIRN]⟩,
   ⟨"LED_NEXTSLOT", 0x44000014, 1, 0x4, 1, 0x4, [LED_NEXTSLOT_SLOT]⟩,
   ⟨"LED_DURSEQLO", 0x44000020, 1, 0x4, 1, 0x4, [LED_DURSEQLO_SEQ]⟩,
   ⟨"LED_DURSEQHI", 0x44000024, 1, 0x4, 1, 0x4, [LED_DURSEQHI_SEQ]⟩,
   ⟨"LED_DURSLOT", 0x44000028, 1, 0x4, 1, 0x4, [LED_DURSLOT_SLOT]⟩,
   ⟨"LED_FIRSTSLOT", 0x4400002c, 1, 0x4, 1, 0x4, [LED_FIRSTSLOT_SLOT]⟩,
   ⟨"LED_HEADDIG", 0x44000040, 8, 0x4, 1, 0x4, [LED_HEADDIG_DIG]⟩,
   ⟨"LED_ACKLO", 0x44000030, 1, 0x4, 1, 0x4, [LED_ACKLO_SEQ]⟩,
   ⟨"LED_ACKHI", 0x44000034, 1, 0x4, 1, 0x4, [LED_ACKHI_SEQ]⟩,
   ⟨"LED_ACKERR", 0x44000038, 1, 0x4, 1, 0x4, [LED_ACKERR_AHEAD, LED_ACKERR_OLD]⟩,
   ⟨"LED_RECOV", 0x44000060, 1, 0x4, 1, 0x4, [LED_RECOV_FRESH, LED_RECOV_ANCHORCOPY, LED_RECOV_ANCHORBAD, LED_RECOV_NOANCHOR, LED_RECOV_SCANNED]⟩,
   ⟨"LED_VOID", 0x44000064, 1, 0x4, 1, 0x4, [LED_VOID_COUNT]⟩,
   ⟨"LED_TORN", 0x44000068, 1, 0x4, 1, 0x4, [LED_TORN_COUNT]⟩,
   ⟨"LED_REQERR", 0x4400006c, 1, 0x4, 1, 0x4, [LED_REQERR_FORGED]⟩,
   ⟨"LED_DMAHADRLO", 0x44000070, 1, 0x4, 1, 0x4, [LED_DMAHADRLO_ADDR]⟩,
   ⟨"LED_DMAHADRHI", 0x44000074, 1, 0x4, 1, 0x4, [LED_DMAHADRHI_ADDR]⟩,
   ⟨"LED_DMASLOT", 0x44000078, 1, 0x4, 1, 0x4, [LED_DMASLOT_SLOT]⟩,
   ⟨"LED_DMACNT", 0x4400007c, 1, 0x4, 1, 0x4, [LED_DMACNT_COUNT]⟩,
   ⟨"LED_DMACTL", 0x44000080, 1, 0x4, 1, 0x4, [LED_DMACTL_GO, LED_DMACTL_ERR, LED_DMACTL_DONE, LED_DMACTL_BUSY]⟩,
   ⟨"LED_CAIRNCNT", 0x44000090, 1, 0x4, 1, 0x4, [LED_CAIRNCNT_NOKEY, LED_CAIRNCNT_COUNT]⟩,
   ⟨"CRY_STATUS", 0x48030000, 8, 0x100000, 1, 0x4, [CRY_STATUS_NOSIGN, CRY_STATUS_NOMASTER, CRY_STATUS_BUSY]⟩,
   ⟨"CRY_OPS", 0x48030004, 8, 0x100000, 1, 0x4, [CRY_OPS_COUNT]⟩,
   ⟨"CRY_ERR", 0x48030008, 8, 0x100000, 1, 0x4, [CRY_ERR_MISMATCH, CRY_ERR_FAIL, CRY_ERR_MALFORMED, CRY_ERR_NOKEY]⟩]

/-! ### Spec chapter 14: Draw unit -/

def DRW_STATUS_EXTACT : Fld := ⟨8, 8, .ro, 0⟩
def DRW_STATUS_SOURCE : Fld := ⟨7, 6, .ro, 0⟩
def DRW_STATUS_MASKED : Fld := ⟨5, 3, .ro, 0⟩
def DRW_STATUS_SEEDED : Fld := ⟨2, 2, .ro, 0⟩
def DRW_STATUS_NOSEED : Fld := ⟨1, 1, .ro, 0⟩
def DRW_STATUS_READY : Fld := ⟨0, 0, .ro, 0⟩
def DRW_STATUS : Nat := 0x400a0000
def DRW_CTL_EXTENT : Fld := ⟨2, 2, .rw, 0⟩
def DRW_CTL_RESEED : Fld := ⟨1, 1, .w1s, 0⟩
def DRW_CTL : Nat := 0x400a0004
def DRW_HEALTH_APTFAIL : Fld := ⟨31, 16, .rc, 0⟩
def DRW_HEALTH_RCTFAIL : Fld := ⟨15, 0, .rc, 0⟩
def DRW_HEALTH : Nat := 0x400a0008
def DRW_GENCNT_COUNT : Fld := ⟨16, 0, .ro, 0⟩
def DRW_GENCNT : Nat := 0x400a000c
def DRW_RESEEDS_COUNT : Fld := ⟨31, 0, .ro, 0⟩
def DRW_RESEEDS : Nat := 0x400a0010
def DRW_DRAWS_COUNT : Fld := ⟨31, 0, .rc, 0⟩
def DRW_DRAWS : Nat := 0x400a0014
def DRW_ERR_NOENT : Fld := ⟨31, 24, .rc, 0⟩
def DRW_ERR_NOSEED : Fld := ⟨23, 16, .rc, 0⟩
def DRW_ERR_EXHAUST : Fld := ⟨15, 8, .rc, 0⟩
def DRW_ERR_BAD : Fld := ⟨7, 0, .rc, 0⟩
def DRW_ERR : Nat := 0x400a0018
def DRW_VOTE_COUNT : Fld := ⟨7, 0, .rc, 0⟩
def DRW_VOTE : Nat := 0x400a001c
def DRW_ENTIN_DATA : Fld := ⟨31, 0, .wo, 0⟩
def DRW_ENTIN : Nat := 0x400a0020

/-- The registers of spec chapter 14. -/
def regRows14 : List RegRow :=
  [⟨"DRW_STATUS", 0x400a0000, 1, 0x4, 1, 0x4, [DRW_STATUS_EXTACT, DRW_STATUS_SOURCE, DRW_STATUS_MASKED, DRW_STATUS_SEEDED, DRW_STATUS_NOSEED, DRW_STATUS_READY]⟩,
   ⟨"DRW_CTL", 0x400a0004, 1, 0x4, 1, 0x4, [DRW_CTL_EXTENT, DRW_CTL_RESEED]⟩,
   ⟨"DRW_HEALTH", 0x400a0008, 1, 0x4, 1, 0x4, [DRW_HEALTH_APTFAIL, DRW_HEALTH_RCTFAIL]⟩,
   ⟨"DRW_GENCNT", 0x400a000c, 1, 0x4, 1, 0x4, [DRW_GENCNT_COUNT]⟩,
   ⟨"DRW_RESEEDS", 0x400a0010, 1, 0x4, 1, 0x4, [DRW_RESEEDS_COUNT]⟩,
   ⟨"DRW_DRAWS", 0x400a0014, 1, 0x4, 1, 0x4, [DRW_DRAWS_COUNT]⟩,
   ⟨"DRW_ERR", 0x400a0018, 1, 0x4, 1, 0x4, [DRW_ERR_NOENT, DRW_ERR_NOSEED, DRW_ERR_EXHAUST, DRW_ERR_BAD]⟩,
   ⟨"DRW_VOTE", 0x400a001c, 1, 0x4, 1, 0x4, [DRW_VOTE_COUNT]⟩,
   ⟨"DRW_ENTIN", 0x400a0020, 1, 0x4, 1, 0x4, [DRW_ENTIN_DATA]⟩]

/-! ### Spec chapter 15: Interrupt controller -/

def PIC_IDLE_IDLE : Fld := ⟨31, 0, .ro, 0⟩
def PIC_IDLE : Nat := 0x40030000
def PIC_ERR_EOIEMPTY : Fld := ⟨31, 24, .rc, 0⟩
def PIC_ERR_EOINACT : Fld := ⟨23, 16, .rc, 0⟩
def PIC_ERR_NOTARGET : Fld := ⟨15, 8, .rc, 0⟩
def PIC_ERR : Nat := 0x40030004
def PIC_SSET_SET : Fld := ⟨31, 0, .wo, 0⟩
def PIC_SSET : Nat := 0x40030008
def PIC_EN_EN : Fld := ⟨31, 0, .rw, 0⟩
def PIC_EN (i : Nat) : Nat := 0x40030100 + 0x4 * i
def PIC_PEND_PEND : Fld := ⟨31, 0, .rw, 0⟩
def PIC_PEND (i : Nat) : Nat := 0x40030180 + 0x4 * i
def PIC_ACT_ACT : Fld := ⟨31, 0, .ro, 0⟩
def PIC_ACT (i : Nat) : Nat := 0x40030200 + 0x4 * i
def PIC_MOD_MODTIME : Fld := ⟨31, 8, .rw, 0⟩
def PIC_MOD_MODCOUNT : Fld := ⟨7, 0, .rw, 0⟩
def PIC_MOD (i : Nat) : Nat := 0x40030300 + 0x4 * i
def PIC_MODST_HOLD : Fld := ⟨31, 31, .ro, 0⟩
def PIC_MODST_ELAPSED : Fld := ⟨23, 8, .ro, 0⟩
def PIC_MODST_COUNT : Fld := ⟨7, 0, .ro, 0⟩
def PIC_MODST (i : Nat) : Nat := 0x40030380 + 0x4 * i
def PIC_WATCH_SRC : Fld := ⟨15, 0, .lk, 0xffff⟩
def PIC_WATCH (i : Nat) : Nat := 0x40030400 + 0x4 * i
def PIC_ROUTE_LOCK : Fld := ⟨12, 12, .ro, 0⟩
def PIC_ROUTE_PRIO : Fld := ⟨11, 8, .rw, 0⟩
def PIC_ROUTE_TARGET : Fld := ⟨4, 0, .rw, 0⟩
def PIC_ROUTE (i : Nat) : Nat := 0x40031000 + 0x4 * i
def PIC_TSTAT_IDLE : Fld := ⟨31, 31, .ro, 0⟩
def PIC_TSTAT_RESV : Fld := ⟨25, 16, .ro, 0x3ff⟩
def PIC_TSTAT_RUNPRI : Fld := ⟨12, 8, .ro, 0x10⟩
def PIC_TSTAT_DEPTH : Fld := ⟨3, 0, .ro, 0⟩
def PIC_TSTAT (i j : Nat) : Nat := 0x48020000 + 0x100000 * i + 0x80 * j
def PIC_STK_STACK : Fld := ⟨31, 0, .ro, 0⟩
def PIC_STK (i j : Nat) : Nat := 0x48020004 + 0x100000 * i + 0x80 * j
def PIC_PEN_EN : Fld := ⟨31, 0, .rw, 0⟩
def PIC_PEN (i j : Nat) : Nat := 0x48020008 + 0x100000 * i + 0x80 * j
def PIC_PPEND_PEND : Fld := ⟨31, 0, .rw, 0⟩
def PIC_PPEND (i j : Nat) : Nat := 0x4802000c + 0x100000 * i + 0x80 * j
def PIC_PACT_ACT : Fld := ⟨31, 0, .ro, 0⟩
def PIC_PACT (i j : Nat) : Nat := 0x48020010 + 0x100000 * i + 0x80 * j
def PIC_PSET_SWI : Fld := ⟨19, 16, .wo, 0⟩
def PIC_PSET (i j : Nat) : Nat := 0x48020014 + 0x100000 * i + 0x80 * j
def PIC_PPRI0_PRIO : Fld := ⟨31, 0, .rw, 0xffffffff⟩
def PIC_PPRI0 (i j : Nat) : Nat := 0x48020020 + 0x100000 * i + 0x80 * j
def PIC_PPRI1_PRIO : Fld := ⟨31, 0, .rw, 0xffffffff⟩
def PIC_PPRI1 (i j : Nat) : Nat := 0x48020024 + 0x100000 * i + 0x80 * j
def PIC_PPRI2_PRIO : Fld := ⟨31, 0, .rw, 0xffffffff⟩
def PIC_PPRI2 (i j : Nat) : Nat := 0x48020028 + 0x100000 * i + 0x80 * j
def PIC_PPRI3_PRIO : Fld := ⟨31, 0, .rw, 0xffffffff⟩
def PIC_PPRI3 (i j : Nat) : Nat := 0x4802002c + 0x100000 * i + 0x80 * j

/-- The registers of spec chapter 15. -/
def regRows15 : List RegRow :=
  [⟨"PIC_IDLE", 0x40030000, 1, 0x4, 1, 0x4, [PIC_IDLE_IDLE]⟩,
   ⟨"PIC_ERR", 0x40030004, 1, 0x4, 1, 0x4, [PIC_ERR_EOIEMPTY, PIC_ERR_EOINACT, PIC_ERR_NOTARGET]⟩,
   ⟨"PIC_SSET", 0x40030008, 1, 0x4, 1, 0x4, [PIC_SSET_SET]⟩,
   ⟨"PIC_EN", 0x40030100, 16, 0x4, 1, 0x4, [PIC_EN_EN]⟩,
   ⟨"PIC_PEND", 0x40030180, 16, 0x4, 1, 0x4, [PIC_PEND_PEND]⟩,
   ⟨"PIC_ACT", 0x40030200, 16, 0x4, 1, 0x4, [PIC_ACT_ACT]⟩,
   ⟨"PIC_MOD", 0x40030300, 32, 0x4, 1, 0x4, [PIC_MOD_MODTIME, PIC_MOD_MODCOUNT]⟩,
   ⟨"PIC_MODST", 0x40030380, 32, 0x4, 1, 0x4, [PIC_MODST_HOLD, PIC_MODST_ELAPSED, PIC_MODST_COUNT]⟩,
   ⟨"PIC_WATCH", 0x40030400, 32, 0x4, 1, 0x4, [PIC_WATCH_SRC]⟩,
   ⟨"PIC_ROUTE", 0x40031000, 512, 0x4, 1, 0x4, [PIC_ROUTE_LOCK, PIC_ROUTE_PRIO, PIC_ROUTE_TARGET]⟩,
   ⟨"PIC_TSTAT", 0x48020000, 8, 0x100000, 4, 0x80, [PIC_TSTAT_IDLE, PIC_TSTAT_RESV, PIC_TSTAT_RUNPRI, PIC_TSTAT_DEPTH]⟩,
   ⟨"PIC_STK", 0x48020004, 8, 0x100000, 4, 0x80, [PIC_STK_STACK]⟩,
   ⟨"PIC_PEN", 0x48020008, 8, 0x100000, 4, 0x80, [PIC_PEN_EN]⟩,
   ⟨"PIC_PPEND", 0x4802000c, 8, 0x100000, 4, 0x80, [PIC_PPEND_PEND]⟩,
   ⟨"PIC_PACT", 0x48020010, 8, 0x100000, 4, 0x80, [PIC_PACT_ACT]⟩,
   ⟨"PIC_PSET", 0x48020014, 8, 0x100000, 4, 0x80, [PIC_PSET_SWI]⟩,
   ⟨"PIC_PPRI0", 0x48020020, 8, 0x100000, 4, 0x80, [PIC_PPRI0_PRIO]⟩,
   ⟨"PIC_PPRI1", 0x48020024, 8, 0x100000, 4, 0x80, [PIC_PPRI1_PRIO]⟩,
   ⟨"PIC_PPRI2", 0x48020028, 8, 0x100000, 4, 0x80, [PIC_PPRI2_PRIO]⟩,
   ⟨"PIC_PPRI3", 0x4802002c, 8, 0x100000, 4, 0x80, [PIC_PPRI3_PRIO]⟩]

/-! ### Spec chapter 16: Timers -/

def TG_GCTL_STOP : Fld := ⟨15, 8, .wo, 0⟩
def TG_GCTL_START : Fld := ⟨7, 0, .wo, 0⟩
def TG_GCTL (g : Nat) : Nat := tgBase g + 0x0
def TG_STATUS_FROZEN : Fld := ⟨15, 8, .ro, 0⟩
def TG_STATUS_RUN : Fld := ⟨7, 0, .ro, 0⟩
def TG_STATUS (g : Nat) : Nat := tgBase g + 0x4
def TMR_CTRL_CKSEL : Fld := ⟨15, 12, .rw, 0⟩
def TMR_CTRL_EVSEL : Fld := ⟨10, 8, .rw, 0⟩
def TMR_CTRL_ONESHOT : Fld := ⟨4, 4, .rw, 0⟩
def TMR_CTRL_FRZ : Fld := ⟨3, 3, .rw, 0⟩
def TMR_CTRL_PRELOAD : Fld := ⟨2, 2, .rw, 0⟩
def TMR_CTRL_EN : Fld := ⟨0, 0, .rw, 0⟩
def TMR_CTRL (g c : Nat) : Nat := tgBase g + 0x100 + 0x40 * c
def TMR_PSC_F : Fld := ⟨23, 16, .rw, 0⟩
def TMR_PSC_PM1 : Fld := ⟨15, 0, .rw, 0⟩
def TMR_PSC (g c : Nat) : Nat := tgBase g + 0x104 + 0x40 * c
def TMR_TOPLO_TOP : Fld := ⟨31, 0, .rw, 0xffffffff⟩
def TMR_TOPLO (g c : Nat) : Nat := tgBase g + 0x108 + 0x40 * c
def TMR_TOPHI_TOP : Fld := ⟨15, 0, .rw, 0xffff⟩
def TMR_TOPHI (g c : Nat) : Nat := tgBase g + 0x10c + 0x40 * c
def TMR_CMPLO_CMP : Fld := ⟨31, 0, .rw, 0⟩
def TMR_CMPLO (g c : Nat) : Nat := tgBase g + 0x110 + 0x40 * c
def TMR_CMPHI_CMP : Fld := ⟨15, 0, .rw, 0⟩
def TMR_CMPHI (g c : Nat) : Nat := tgBase g + 0x114 + 0x40 * c
def TMR_CNTLO_CNT : Fld := ⟨31, 0, .rw, 0⟩
def TMR_CNTLO (g c : Nat) : Nat := tgBase g + 0x118 + 0x40 * c
def TMR_CNTHI_STALE : Fld := ⟨31, 31, .ro, 0⟩
def TMR_CNTHI_CNT : Fld := ⟨15, 0, .rw, 0⟩
def TMR_CNTHI (g c : Nat) : Nat := tgBase g + 0x11c + 0x40 * c
def TMR_CAPLO_CAP : Fld := ⟨31, 0, .ro, 0⟩
def TMR_CAPLO (g c : Nat) : Nat := tgBase g + 0x120 + 0x40 * c
def TMR_CAPHI_CAP : Fld := ⟨15, 0, .ro, 0⟩
def TMR_CAPHI (g c : Nat) : Nat := tgBase g + 0x124 + 0x40 * c
def TMR_CAPCTL_CAPEN : Fld := ⟨20, 20, .rw, 0⟩
def TMR_CAPCTL_ICSRC : Fld := ⟨19, 19, .rw, 0⟩
def TMR_CAPCTL_ICSEL : Fld := ⟨18, 16, .rw, 0⟩
def TMR_CAPCTL_EDGE : Fld := ⟨13, 12, .rw, 0⟩
def TMR_CAPCTL_EPSC : Fld := ⟨11, 4, .rw, 0⟩
def TMR_CAPCTL_FILT : Fld := ⟨3, 0, .rw, 0⟩
def TMR_CAPCTL (g c : Nat) : Nat := tgBase g + 0x128 + 0x40 * c
def TMR_FLAGS_WERR : Fld := ⟨7, 7, .w1c, 0⟩
def TMR_FLAGS_LINKLOST : Fld := ⟨6, 6, .w1c, 0⟩
def TMR_FLAGS_SKIP : Fld := ⟨5, 5, .w1c, 0⟩
def TMR_FLAGS_OVR : Fld := ⟨4, 4, .w1c, 0⟩
def TMR_FLAGS_CAPF : Fld := ⟨2, 2, .ro, 0⟩
def TMR_FLAGS_OVFF : Fld := ⟨1, 1, .w1c, 0⟩
def TMR_FLAGS_MATCHF : Fld := ⟨0, 0, .w1c, 0⟩
def TMR_FLAGS (g c : Nat) : Nat := tgBase g + 0x12c + 0x40 * c
def TMR_IEN_CIE : Fld := ⟨2, 2, .rw, 0⟩
def TMR_IEN_OIE : Fld := ⟨1, 1, .rw, 0⟩
def TMR_IEN_MIE : Fld := ⟨0, 0, .rw, 0⟩
def TMR_IEN (g c : Nat) : Nat := tgBase g + 0x130 + 0x40 * c
def TMR_KICK_SNAP : Fld := ⟨1, 1, .wo, 0⟩
def TMR_KICK_ZERO : Fld := ⟨0, 0, .wo, 0⟩
def TMR_KICK (g c : Nat) : Nat := tgBase g + 0x134 + 0x40 * c
def TMR_MAKEUP_STEPS : Fld := ⟨31, 0, .ro, 0⟩
def TMR_MAKEUP (g c : Nat) : Nat := tgBase g + 0x138 + 0x40 * c
def TMR_LINK_ACT1 : Fld := ⟨26, 24, .rw, 0⟩
def TMR_LINK_SRC1 : Fld := ⟨20, 16, .rw, 0x1f⟩
def TMR_LINK_ACT0 : Fld := ⟨10, 8, .rw, 0⟩
def TMR_LINK_SRC0 : Fld := ⟨4, 0, .rw, 0x1f⟩
def TMR_LINK (g c : Nat) : Nat := tgBase g + 0x13c + 0x40 * c

/-- The registers of spec chapter 16. -/
def regRows16 : List RegRow :=
  [⟨"TG_GCTL", 0x48010000, 8, 0x100000, 1, 0x4, [TG_GCTL_STOP, TG_GCTL_START]⟩,
   ⟨"TG_GCTL", 0x40050000, 1, 0x4, 1, 0x4, [TG_GCTL_STOP, TG_GCTL_START]⟩,
   ⟨"TG_STATUS", 0x48010004, 8, 0x100000, 1, 0x4, [TG_STATUS_FROZEN, TG_STATUS_RUN]⟩,
   ⟨"TG_STATUS", 0x40050004, 1, 0x4, 1, 0x4, [TG_STATUS_FROZEN, TG_STATUS_RUN]⟩,
   ⟨"TMR_CTRL", 0x48010100, 8, 0x100000, 8, 0x40, [TMR_CTRL_CKSEL, TMR_CTRL_EVSEL, TMR_CTRL_ONESHOT, TMR_CTRL_FRZ, TMR_CTRL_PRELOAD, TMR_CTRL_EN]⟩,
   ⟨"TMR_CTRL", 0x40050100, 8, 0x40, 1, 0x4, [TMR_CTRL_CKSEL, TMR_CTRL_EVSEL, TMR_CTRL_ONESHOT, TMR_CTRL_FRZ, TMR_CTRL_PRELOAD, TMR_CTRL_EN]⟩,
   ⟨"TMR_PSC", 0x48010104, 8, 0x100000, 8, 0x40, [TMR_PSC_F, TMR_PSC_PM1]⟩,
   ⟨"TMR_PSC", 0x40050104, 8, 0x40, 1, 0x4, [TMR_PSC_F, TMR_PSC_PM1]⟩,
   ⟨"TMR_TOPLO", 0x48010108, 8, 0x100000, 8, 0x40, [TMR_TOPLO_TOP]⟩,
   ⟨"TMR_TOPLO", 0x40050108, 8, 0x40, 1, 0x4, [TMR_TOPLO_TOP]⟩,
   ⟨"TMR_TOPHI", 0x4801010c, 8, 0x100000, 8, 0x40, [TMR_TOPHI_TOP]⟩,
   ⟨"TMR_TOPHI", 0x4005010c, 8, 0x40, 1, 0x4, [TMR_TOPHI_TOP]⟩,
   ⟨"TMR_CMPLO", 0x48010110, 8, 0x100000, 8, 0x40, [TMR_CMPLO_CMP]⟩,
   ⟨"TMR_CMPLO", 0x40050110, 8, 0x40, 1, 0x4, [TMR_CMPLO_CMP]⟩,
   ⟨"TMR_CMPHI", 0x48010114, 8, 0x100000, 8, 0x40, [TMR_CMPHI_CMP]⟩,
   ⟨"TMR_CMPHI", 0x40050114, 8, 0x40, 1, 0x4, [TMR_CMPHI_CMP]⟩,
   ⟨"TMR_CNTLO", 0x48010118, 8, 0x100000, 8, 0x40, [TMR_CNTLO_CNT]⟩,
   ⟨"TMR_CNTLO", 0x40050118, 8, 0x40, 1, 0x4, [TMR_CNTLO_CNT]⟩,
   ⟨"TMR_CNTHI", 0x4801011c, 8, 0x100000, 8, 0x40, [TMR_CNTHI_STALE, TMR_CNTHI_CNT]⟩,
   ⟨"TMR_CNTHI", 0x4005011c, 8, 0x40, 1, 0x4, [TMR_CNTHI_STALE, TMR_CNTHI_CNT]⟩,
   ⟨"TMR_CAPLO", 0x48010120, 8, 0x100000, 8, 0x40, [TMR_CAPLO_CAP]⟩,
   ⟨"TMR_CAPLO", 0x40050120, 8, 0x40, 1, 0x4, [TMR_CAPLO_CAP]⟩,
   ⟨"TMR_CAPHI", 0x48010124, 8, 0x100000, 8, 0x40, [TMR_CAPHI_CAP]⟩,
   ⟨"TMR_CAPHI", 0x40050124, 8, 0x40, 1, 0x4, [TMR_CAPHI_CAP]⟩,
   ⟨"TMR_CAPCTL", 0x48010128, 8, 0x100000, 8, 0x40, [TMR_CAPCTL_CAPEN, TMR_CAPCTL_ICSRC, TMR_CAPCTL_ICSEL, TMR_CAPCTL_EDGE, TMR_CAPCTL_EPSC, TMR_CAPCTL_FILT]⟩,
   ⟨"TMR_CAPCTL", 0x40050128, 8, 0x40, 1, 0x4, [TMR_CAPCTL_CAPEN, TMR_CAPCTL_ICSRC, TMR_CAPCTL_ICSEL, TMR_CAPCTL_EDGE, TMR_CAPCTL_EPSC, TMR_CAPCTL_FILT]⟩,
   ⟨"TMR_FLAGS", 0x4801012c, 8, 0x100000, 8, 0x40, [TMR_FLAGS_WERR, TMR_FLAGS_LINKLOST, TMR_FLAGS_SKIP, TMR_FLAGS_OVR, TMR_FLAGS_CAPF, TMR_FLAGS_OVFF, TMR_FLAGS_MATCHF]⟩,
   ⟨"TMR_FLAGS", 0x4005012c, 8, 0x40, 1, 0x4, [TMR_FLAGS_WERR, TMR_FLAGS_LINKLOST, TMR_FLAGS_SKIP, TMR_FLAGS_OVR, TMR_FLAGS_CAPF, TMR_FLAGS_OVFF, TMR_FLAGS_MATCHF]⟩,
   ⟨"TMR_IEN", 0x48010130, 8, 0x100000, 8, 0x40, [TMR_IEN_CIE, TMR_IEN_OIE, TMR_IEN_MIE]⟩,
   ⟨"TMR_IEN", 0x40050130, 8, 0x40, 1, 0x4, [TMR_IEN_CIE, TMR_IEN_OIE, TMR_IEN_MIE]⟩,
   ⟨"TMR_KICK", 0x48010134, 8, 0x100000, 8, 0x40, [TMR_KICK_SNAP, TMR_KICK_ZERO]⟩,
   ⟨"TMR_KICK", 0x40050134, 8, 0x40, 1, 0x4, [TMR_KICK_SNAP, TMR_KICK_ZERO]⟩,
   ⟨"TMR_MAKEUP", 0x48010138, 8, 0x100000, 8, 0x40, [TMR_MAKEUP_STEPS]⟩,
   ⟨"TMR_MAKEUP", 0x40050138, 8, 0x40, 1, 0x4, [TMR_MAKEUP_STEPS]⟩,
   ⟨"TMR_LINK", 0x4801013c, 8, 0x100000, 8, 0x40, [TMR_LINK_ACT1, TMR_LINK_SRC1, TMR_LINK_ACT0, TMR_LINK_SRC0]⟩,
   ⟨"TMR_LINK", 0x4005013c, 8, 0x40, 1, 0x4, [TMR_LINK_ACT1, TMR_LINK_SRC1, TMR_LINK_ACT0, TMR_LINK_SRC0]⟩]

/-! ### Spec chapter 17: Event fabric, RTC, health converter -/

def EVF_SWTRIG_SWT : Fld := ⟨15, 0, .wo, 0⟩
def EVF_SWTRIG : Nat := 0x40040000
def EVF_OVR_OVR : Fld := ⟨31, 0, .w1c, 0⟩
def EVF_OVR (i : Nat) : Nat := 0x40040010 + 0x4 * i
def EVF_QPUSHA_EN : Fld := ⟨31, 31, .rw, 0⟩
def EVF_QPUSHA_QID : Fld := ⟨19, 0, .rw, 0⟩
def EVF_QPUSHA : Nat := 0x40040020
def EVF_QPUSHB_EN : Fld := ⟨31, 31, .rw, 0⟩
def EVF_QPUSHB_QID : Fld := ⟨19, 0, .rw, 0⟩
def EVF_QPUSHB : Nat := 0x40040024
def EVF_EVOCTL_WIDTH : Fld := ⟨15, 8, .rw, 0⟩
def EVF_EVOCTL_MODE : Fld := ⟨1, 0, .rw, 0⟩
def EVF_EVOCTL (i : Nat) : Nat := 0x40040040 + 0x4 * i
def EVF_SEL_LOCK : Fld := ⟨8, 8, .ro, 0⟩
def EVF_SEL_SEL : Fld := ⟨7, 0, .rw, 0xff⟩
def EVF_SEL (i : Nat) : Nat := 0x40040100 + 0x4 * i
def RTC_SUB_SUB : Fld := ⟨14, 0, .ro, 0⟩
def RTC_SUB : Nat := 0x40060000
def RTC_SNAPLO_SEC : Fld := ⟨31, 0, .ro, 0⟩
def RTC_SNAPLO : Nat := 0x40060004
def RTC_SNAPHI_SEC : Fld := ⟨15, 0, .ro, 0⟩
def RTC_SNAPHI : Nat := 0x40060008
def RTC_SECLO_SEC : Fld := ⟨31, 0, .ro, 0⟩
def RTC_SECLO : Nat := 0x4006000c
def RTC_SECHI_SEC : Fld := ⟨15, 0, .ro, 0⟩
def RTC_SECHI : Nat := 0x40060010
def RTC_LDSECLO_SEC : Fld := ⟨31, 0, .rw, 0⟩
def RTC_LDSECLO : Nat := 0x40060014
def RTC_LDSECHI_SEC : Fld := ⟨15, 0, .rw, 0⟩
def RTC_LDSECHI : Nat := 0x40060018
def RTC_LDSUB_SUB : Fld := ⟨14, 0, .rw, 0⟩
def RTC_LDSUB : Nat := 0x4006001c
def RTC_CTL_WERR : Fld := ⟨3, 3, .w1c, 0⟩
def RTC_CTL_PEND : Fld := ⟨2, 2, .ro, 0⟩
def RTC_CTL_ALEN : Fld := ⟨1, 1, .rw, 0⟩
def RTC_CTL_LOAD : Fld := ⟨0, 0, .wo, 0⟩
def RTC_CTL : Nat := 0x40060020
def RTC_TRIM_TRIM : Fld := ⟨11, 0, .rw, 0⟩
def RTC_TRIM : Nat := 0x40060024
def RTC_ALMLO_SEC : Fld := ⟨31, 0, .rw, 0xffffffff⟩
def RTC_ALMLO : Nat := 0x40060028
def RTC_ALMHI_SEC : Fld := ⟨15, 0, .rw, 0xffff⟩
def RTC_ALMHI : Nat := 0x4006002c
def RTC_STATUS_ALMF : Fld := ⟨1, 1, .w1c, 0⟩
def RTC_STATUS_INV : Fld := ⟨0, 0, .ro, 0⟩
def RTC_STATUS : Nat := 0x40060030
def MON_CTL_VCLSEL : Fld := ⟨10, 8, .rw, 0⟩
def MON_CTL_CONT : Fld := ⟨1, 1, .rw, 0⟩
def MON_CTL_START : Fld := ⟨0, 0, .wo, 0⟩
def MON_CTL : Nat := 0x40070000
def MON_SEQ_CH : Fld := ⟨23, 0, .rw, 0⟩
def MON_SEQ : Nat := 0x40070004
def MON_INTV_US : Fld := ⟨15, 0, .rw, 0x3e8⟩
def MON_INTV : Nat := 0x40070008
def MON_STATUS_SEQCNT : Fld := ⟨15, 8, .ro, 0⟩
def MON_STATUS_LOSTSTART : Fld := ⟨1, 1, .w1c, 0⟩
def MON_STATUS_BUSY : Fld := ⟨0, 0, .ro, 0⟩
def MON_STATUS : Nat := 0x4007000c
def MON_LIMF_LIM : Fld := ⟨23, 0, .w1c, 0⟩
def MON_LIMF : Nat := 0x40070010
def MON_RES_VALID : Fld := ⟨31, 31, .ro, 0⟩
def MON_RES_SEQ : Fld := ⟨23, 16, .ro, 0⟩
def MON_RES_CODE : Fld := ⟨11, 0, .ro, 0⟩
def MON_RES (i : Nat) : Nat := 0x40070100 + 0x4 * i
def MON_LIM_EN : Fld := ⟨31, 31, .rw, 0⟩
def MON_LIM_HI : Fld := ⟨27, 16, .rw, 0xfff⟩
def MON_LIM_LO : Fld := ⟨11, 0, .rw, 0⟩
def MON_LIM (i : Nat) : Nat := 0x40070200 + 0x4 * i

/-- The registers of spec chapter 17. -/
def regRows17 : List RegRow :=
  [⟨"EVF_SWTRIG", 0x40040000, 1, 0x4, 1, 0x4, [EVF_SWTRIG_SWT]⟩,
   ⟨"EVF_OVR", 0x40040010, 3, 0x4, 1, 0x4, [EVF_OVR_OVR]⟩,
   ⟨"EVF_QPUSHA", 0x40040020, 1, 0x4, 1, 0x4, [EVF_QPUSHA_EN, EVF_QPUSHA_QID]⟩,
   ⟨"EVF_QPUSHB", 0x40040024, 1, 0x4, 1, 0x4, [EVF_QPUSHB_EN, EVF_QPUSHB_QID]⟩,
   ⟨"EVF_EVOCTL", 0x40040040, 8, 0x4, 1, 0x4, [EVF_EVOCTL_WIDTH, EVF_EVOCTL_MODE]⟩,
   ⟨"EVF_SEL", 0x40040100, 96, 0x4, 1, 0x4, [EVF_SEL_LOCK, EVF_SEL_SEL]⟩,
   ⟨"RTC_SUB", 0x40060000, 1, 0x4, 1, 0x4, [RTC_SUB_SUB]⟩,
   ⟨"RTC_SNAPLO", 0x40060004, 1, 0x4, 1, 0x4, [RTC_SNAPLO_SEC]⟩,
   ⟨"RTC_SNAPHI", 0x40060008, 1, 0x4, 1, 0x4, [RTC_SNAPHI_SEC]⟩,
   ⟨"RTC_SECLO", 0x4006000c, 1, 0x4, 1, 0x4, [RTC_SECLO_SEC]⟩,
   ⟨"RTC_SECHI", 0x40060010, 1, 0x4, 1, 0x4, [RTC_SECHI_SEC]⟩,
   ⟨"RTC_LDSECLO", 0x40060014, 1, 0x4, 1, 0x4, [RTC_LDSECLO_SEC]⟩,
   ⟨"RTC_LDSECHI", 0x40060018, 1, 0x4, 1, 0x4, [RTC_LDSECHI_SEC]⟩,
   ⟨"RTC_LDSUB", 0x4006001c, 1, 0x4, 1, 0x4, [RTC_LDSUB_SUB]⟩,
   ⟨"RTC_CTL", 0x40060020, 1, 0x4, 1, 0x4, [RTC_CTL_WERR, RTC_CTL_PEND, RTC_CTL_ALEN, RTC_CTL_LOAD]⟩,
   ⟨"RTC_TRIM", 0x40060024, 1, 0x4, 1, 0x4, [RTC_TRIM_TRIM]⟩,
   ⟨"RTC_ALMLO", 0x40060028, 1, 0x4, 1, 0x4, [RTC_ALMLO_SEC]⟩,
   ⟨"RTC_ALMHI", 0x4006002c, 1, 0x4, 1, 0x4, [RTC_ALMHI_SEC]⟩,
   ⟨"RTC_STATUS", 0x40060030, 1, 0x4, 1, 0x4, [RTC_STATUS_ALMF, RTC_STATUS_INV]⟩,
   ⟨"MON_CTL", 0x40070000, 1, 0x4, 1, 0x4, [MON_CTL_VCLSEL, MON_CTL_CONT, MON_CTL_START]⟩,
   ⟨"MON_SEQ", 0x40070004, 1, 0x4, 1, 0x4, [MON_SEQ_CH]⟩,
   ⟨"MON_INTV", 0x40070008, 1, 0x4, 1, 0x4, [MON_INTV_US]⟩,
   ⟨"MON_STATUS", 0x4007000c, 1, 0x4, 1, 0x4, [MON_STATUS_SEQCNT, MON_STATUS_LOSTSTART, MON_STATUS_BUSY]⟩,
   ⟨"MON_LIMF", 0x40070010, 1, 0x4, 1, 0x4, [MON_LIMF_LIM]⟩,
   ⟨"MON_RES", 0x40070100, 24, 0x4, 1, 0x4, [MON_RES_VALID, MON_RES_SEQ, MON_RES_CODE]⟩,
   ⟨"MON_LIM", 0x40070200, 24, 0x4, 1, 0x4, [MON_LIM_EN, MON_LIM_HI, MON_LIM_LO]⟩]

/-! ### Spec chapter 18: Power controller -/

def PD_ONMAP_ON : Fld := ⟨17, 0, .ro, 3⟩
def PD_ONMAP : Nat := 0x40010000
def PD_REFUSED_HELD : Fld := ⟨31, 16, .rc, 0⟩
def PD_REFUSED_ERR : Fld := ⟨15, 0, .rc, 0⟩
def PD_REFUSED : Nat := 0x40010004
def PD_VOTEA_TRIAD : Fld := ⟨31, 0, .rw, 0⟩
def PD_VOTEA (i : Nat) : Nat := 0x40010100 + 0x10 * i
def PD_VOTEB_LINK : Fld := ⟨11, 11, .ro, 0⟩
def PD_VOTEB_BOOT : Fld := ⟨10, 10, .w1c, 0⟩
def PD_VOTEB_WAKE : Fld := ⟨9, 9, .w1c, 0⟩
def PD_VOTEB_AUDIT : Fld := ⟨8, 8, .ro, 0⟩
def PD_VOTEB_EVF : Fld := ⟨7, 7, .ro, 0⟩
def PD_VOTEB_LEDGER : Fld := ⟨6, 6, .ro, 0⟩
def PD_VOTEB_WEFT : Fld := ⟨5, 5, .ro, 0⟩
def PD_VOTEB_QE : Fld := ⟨4, 4, .ro, 0⟩
def PD_VOTEB_SUP : Fld := ⟨3, 1, .ro, 0⟩
def PD_VOTEB_HOST : Fld := ⟨0, 0, .rw, 0⟩
def PD_VOTEB (i : Nat) : Nat := 0x40010104 + 0x10 * i
def PD_TARGET_BOOTON : Fld := ⟨3, 3, .lk, 0⟩
def PD_TARGET_WAKEMODE : Fld := ⟨2, 2, .lk, 0⟩
def PD_TARGET_TARGET : Fld := ⟨1, 0, .lk, 0⟩
def PD_TARGET (i : Nat) : Nat := 0x40010108 + 0x10 * i
def PD_STATUS_LASTWAKE : Fld := ⟨27, 24, .ro, 0⟩
def PD_STATUS_TRANS : Fld := ⟨23, 8, .ro, 0⟩
def PD_STATUS_WAKEQ : Fld := ⟨3, 3, .ro, 0⟩
def PD_STATUS_PENDING : Fld := ⟨2, 2, .ro, 0⟩
def PD_STATUS_STATE : Fld := ⟨1, 0, .ro, 0⟩
def PD_STATUS (i : Nat) : Nat := 0x4001010c + 0x10 * i
def PD_VCL_RAILFAULT : Fld := ⟨9, 9, .ro, 0⟩
def PD_VCL_RDY : Fld := ⟨8, 8, .ro, 0⟩
def PD_VCL_VCL : Fld := ⟨5, 0, .lk, 0x28⟩
def PD_VCL (i : Nat) : Nat := 0x40010400 + 0x4 * i

/-- The registers of spec chapter 18. -/
def regRows18 : List RegRow :=
  [⟨"PD_ONMAP", 0x40010000, 1, 0x4, 1, 0x4, [PD_ONMAP_ON]⟩,
   ⟨"PD_REFUSED", 0x40010004, 1, 0x4, 1, 0x4, [PD_REFUSED_HELD, PD_REFUSED_ERR]⟩,
   ⟨"PD_VOTEA", 0x40010100, 18, 0x10, 1, 0x4, [PD_VOTEA_TRIAD]⟩,
   ⟨"PD_VOTEB", 0x40010104, 18, 0x10, 1, 0x4, [PD_VOTEB_LINK, PD_VOTEB_BOOT, PD_VOTEB_WAKE, PD_VOTEB_AUDIT, PD_VOTEB_EVF, PD_VOTEB_LEDGER, PD_VOTEB_WEFT, PD_VOTEB_QE, PD_VOTEB_SUP, PD_VOTEB_HOST]⟩,
   ⟨"PD_TARGET", 0x40010108, 18, 0x10, 1, 0x4, [PD_TARGET_BOOTON, PD_TARGET_WAKEMODE, PD_TARGET_TARGET]⟩,
   ⟨"PD_STATUS", 0x4001010c, 18, 0x10, 1, 0x4, [PD_STATUS_LASTWAKE, PD_STATUS_TRANS, PD_STATUS_WAKEQ, PD_STATUS_PENDING, PD_STATUS_STATE]⟩,
   ⟨"PD_VCL", 0x40010400, 8, 0x4, 1, 0x4, [PD_VCL_RAILFAULT, PD_VCL_RDY, PD_VCL_VCL]⟩]

/-! ### Spec chapter 19: Clock controller -/

def CLK_STATUS_FALLBACK : Fld := ⟨4, 4, .ro, 0⟩
def CLK_STATUS_PLLFAIL : Fld := ⟨3, 3, .ro, 0⟩
def CLK_STATUS_ROOTFAIL : Fld := ⟨2, 2, .ro, 0⟩
def CLK_STATUS_LOCK : Fld := ⟨0, 0, .ro, 0⟩
def CLK_STATUS : Nat := 0x40020000
def CLK_CTL_PLLSW : Fld := ⟨0, 0, .lk, 0⟩
def CLK_CTL : Nat := 0x40020004
def CLK_EN_EN : Fld := ⟨17, 4, .lk, 0x100⟩
def CLK_EN_ENSYS : Fld := ⟨1, 1, .lk, 1⟩
def CLK_EN : Nat := 0x40020008
def CLK_STOPCNT_VALID : Fld := ⟨31, 31, .w1c, 0⟩
def CLK_STOPCNT_COUNT : Fld := ⟨15, 0, .rc, 0⟩
def CLK_STOPCNT : Nat := 0x4002000c
def CLK_STOPADR_ADDR : Fld := ⟨31, 0, .ro, 0⟩
def CLK_STOPADR : Nat := 0x40020010
def CLK_SRC_SWPEND : Fld := ⟨3, 3, .ro, 0⟩
def CLK_SRC_AUTO : Fld := ⟨2, 2, .rw, 0⟩
def CLK_SRC_CUR : Fld := ⟨1, 1, .ro, 0⟩
def CLK_SRC_SEL : Fld := ⟨0, 0, .rw, 0⟩
def CLK_SRC (d : Nat) : Nat := 0x40020100 + 4 * d

/-- The registers of spec chapter 19. -/
def regRows19 : List RegRow :=
  [⟨"CLK_STATUS", 0x40020000, 1, 0x4, 1, 0x4, [CLK_STATUS_FALLBACK, CLK_STATUS_PLLFAIL, CLK_STATUS_ROOTFAIL, CLK_STATUS_LOCK]⟩,
   ⟨"CLK_CTL", 0x40020004, 1, 0x4, 1, 0x4, [CLK_CTL_PLLSW]⟩,
   ⟨"CLK_EN", 0x40020008, 1, 0x4, 1, 0x4, [CLK_EN_EN, CLK_EN_ENSYS]⟩,
   ⟨"CLK_STOPCNT", 0x4002000c, 1, 0x4, 1, 0x4, [CLK_STOPCNT_VALID, CLK_STOPCNT_COUNT]⟩,
   ⟨"CLK_STOPADR", 0x40020010, 1, 0x4, 1, 0x4, [CLK_STOPADR_ADDR]⟩,
   ⟨"CLK_SRC", 0x40020104, 1, 0x4, 1, 0x4, [CLK_SRC_SWPEND, CLK_SRC_AUTO, CLK_SRC_CUR, CLK_SRC_SEL]⟩,
   ⟨"CLK_SRC", 0x40020110, 14, 0x4, 1, 0x4, [CLK_SRC_SWPEND, CLK_SRC_AUTO, CLK_SRC_CUR, CLK_SRC_SEL]⟩]

/-! ### Spec chapter 20: Host bridge -/

def HB_LINK_FLRS : Fld := ⟨31, 24, .ro, 0⟩
def HB_LINK_MSIXEN : Fld := ⟨18, 18, .ro, 0⟩
def HB_LINK_DSTATE : Fld := ⟨17, 16, .ro, 0⟩
def HB_LINK_UP : Fld := ⟨12, 12, .ro, 0⟩
def HB_LINK_WIDTH : Fld := ⟨9, 4, .ro, 0⟩
def HB_LINK_SPEED : Fld := ⟨3, 0, .ro, 0⟩
def HB_LINK : Nat := 0x45000000
def HB_MSIGEN_VEC : Fld := ⟨5, 0, .wo, 0⟩
def HB_MSIGEN : Nat := 0x45000004
def HB_ERR_TGTERR : Fld := ⟨31, 24, .rc, 0⟩
def HB_ERR_PARTIAL : Fld := ⟨23, 16, .rc, 0⟩
def HB_ERR_DOORBELL : Fld := ⟨15, 8, .rc, 0⟩
def HB_ERR_MSIDROP : Fld := ⟨7, 0, .rc, 0⟩
def HB_ERR : Nat := 0x45000008
def HB_MBXCNT_CRCERR : Fld := ⟨31, 24, .rc, 0⟩
def HB_MBXCNT_BADHDR : Fld := ⟨23, 16, .rc, 0⟩
def HB_MBXCNT_ABANDON : Fld := ⟨15, 8, .rc, 0⟩
def HB_MBXCNT_RSPLOST : Fld := ⟨7, 0, .rc, 0⟩
def HB_MBXCNT : Nat := 0x4500000c
def HB_PTMLO_TIME : Fld := ⟨31, 0, .ro, 0⟩
def HB_PTMLO : Nat := 0x45000020
def HB_PTMHI_TIME : Fld := ⟨31, 0, .ro, 0⟩
def HB_PTMHI : Nat := 0x45000024
def HB_PTMSEC_SEC : Fld := ⟨31, 0, .ro, 0⟩
def HB_PTMSEC : Nat := 0x45000028
def HB_PTMSUB_SUB : Fld := ⟨14, 0, .ro, 0⟩
def HB_PTMSUB : Nat := 0x4500002c

/-- The registers of spec chapter 20. -/
def regRows20 : List RegRow :=
  [⟨"HB_LINK", 0x45000000, 1, 0x4, 1, 0x4, [HB_LINK_FLRS, HB_LINK_MSIXEN, HB_LINK_DSTATE, HB_LINK_UP, HB_LINK_WIDTH, HB_LINK_SPEED]⟩,
   ⟨"HB_MSIGEN", 0x45000004, 1, 0x4, 1, 0x4, [HB_MSIGEN_VEC]⟩,
   ⟨"HB_ERR", 0x45000008, 1, 0x4, 1, 0x4, [HB_ERR_TGTERR, HB_ERR_PARTIAL, HB_ERR_DOORBELL, HB_ERR_MSIDROP]⟩,
   ⟨"HB_MBXCNT", 0x4500000c, 1, 0x4, 1, 0x4, [HB_MBXCNT_CRCERR, HB_MBXCNT_BADHDR, HB_MBXCNT_ABANDON, HB_MBXCNT_RSPLOST]⟩,
   ⟨"HB_PTMLO", 0x45000020, 1, 0x4, 1, 0x4, [HB_PTMLO_TIME]⟩,
   ⟨"HB_PTMHI", 0x45000024, 1, 0x4, 1, 0x4, [HB_PTMHI_TIME]⟩,
   ⟨"HB_PTMSEC", 0x45000028, 1, 0x4, 1, 0x4, [HB_PTMSEC_SEC]⟩,
   ⟨"HB_PTMSUB", 0x4500002c, 1, 0x4, 1, 0x4, [HB_PTMSUB_SUB]⟩]

/-! ### Spec chapter 21: Ethernet and serial -/

def ETH_CTL_TXOFF : Fld := ⟨0, 0, .rw, 0⟩
def ETH_CTL (i : Nat) : Nat := 0x46000000 + 0x100000 * i
def ETH_STATUS_MODABS : Fld := ⟨6, 6, .ro, 0⟩
def ETH_STATUS_LOS : Fld := ⟨5, 5, .ro, 0⟩
def ETH_STATUS_TXFAULT : Fld := ⟨4, 4, .ro, 0⟩
def ETH_STATUS_TXDIS : Fld := ⟨3, 3, .ro, 1⟩
def ETH_STATUS_FECLOCK : Fld := ⟨2, 2, .ro, 0⟩
def ETH_STATUS_BLKLOCK : Fld := ⟨1, 1, .ro, 0⟩
def ETH_STATUS_UP : Fld := ⟨0, 0, .ro, 0⟩
def ETH_STATUS (i : Nat) : Nat := 0x46000004 + 0x100000 * i
def ETH_CFG_GEN : Fld := ⟨26, 24, .lk, 0⟩
def ETH_CFG_NETF : Fld := ⟨18, 16, .lk, 0⟩
def ETH_CFG_VID : Fld := ⟨11, 0, .lk, 0⟩
def ETH_CFG (i : Nat) : Nat := 0x46000008 + 0x100000 * i
def ETH_MACLO_DATA : Fld := ⟨31, 0, .lk, 0⟩
def ETH_MACLO (i : Nat) : Nat := 0x46000010 + 0x100000 * i
def ETH_MACHI_DATA : Fld := ⟨31, 0, .lk, 0⟩
def ETH_MACHI (i : Nat) : Nat := 0x46000014 + 0x100000 * i
def ETH_IPV4_DATA : Fld := ⟨31, 0, .lk, 0⟩
def ETH_IPV4 (i : Nat) : Nat := 0x46000018 + 0x100000 * i
def ETH_IPV6_DATA : Fld := ⟨31, 0, .lk, 0⟩
def ETH_IPV6_ (i j : Nat) : Nat := 0x46000020 + 0x100000 * i + 0x4 * j
def ETH_UDPP_DATA : Fld := ⟨31, 0, .lk, 0⟩
def ETH_UDPP (i j : Nat) : Nat := 0x46000030 + 0x100000 * i + 0x4 * j
def ETH_RXOK_COUNT : Fld := ⟨31, 0, .rc, 0⟩
def ETH_RXOK (i : Nat) : Nat := 0x46000040 + 0x100000 * i
def ETH_TXOK_COUNT : Fld := ⟨31, 0, .rc, 0⟩
def ETH_TXOK (i : Nat) : Nat := 0x46000050 + 0x100000 * i
def ETH_RXDROP0_L2 : Fld := ⟨31, 24, .rc, 0⟩
def ETH_RXDROP0_ADDR : Fld := ⟨23, 16, .rc, 0⟩
def ETH_RXDROP0_IP : Fld := ⟨15, 8, .rc, 0⟩
def ETH_RXDROP0_UDP : Fld := ⟨7, 0, .rc, 0⟩
def ETH_RXDROP0 (i : Nat) : Nat := 0x46000044 + 0x100000 * i
def ETH_RXDROP1_DGRAM : Fld := ⟨31, 24, .rc, 0⟩
def ETH_RXDROP1_NOSESSION : Fld := ⟨23, 16, .rc, 0⟩
def ETH_RXDROP1_STOP : Fld := ⟨15, 8, .rc, 0⟩
def ETH_RXDROP1_THROT : Fld := ⟨7, 0, .rc, 0⟩
def ETH_RXDROP1 (i : Nat) : Nat := 0x46000048 + 0x100000 * i
def ETH_SLOW_PUSHED : Fld := ⟨31, 16, .rc, 0⟩
def ETH_SLOW (i : Nat) : Nat := 0x4600004c + 0x100000 * i
def ETH_TXERR_NOPEER : Fld := ⟨31, 24, .rc, 0⟩
def ETH_TXERR_NOSESSION : Fld := ⟨23, 16, .rc, 0⟩
def ETH_TXERR_LINKDOWN : Fld := ⟨15, 8, .rc, 0⟩
def ETH_TXERR_BAD : Fld := ⟨7, 0, .rc, 0⟩
def ETH_TXERR (i : Nat) : Nat := 0x46000054 + 0x100000 * i
def ETH_FEC_CORR : Fld := ⟨31, 16, .rc, 0⟩
def ETH_FEC_UNCORR : Fld := ⟨15, 0, .rc, 0⟩
def ETH_FEC (i : Nat) : Nat := 0x46000058 + 0x100000 * i
def ETH_THR_ACTIVE : Fld := ⟨31, 31, .ro, 0⟩
def ETH_THR_RATE : Fld := ⟨15, 0, .rw, 0⟩
def ETH_THR (i : Nat) : Nat := 0x46000060 + 0x100000 * i
def ETH_SFPCMD_GO : Fld := ⟨31, 31, .wo, 0⟩
def ETH_SFPCMD_BUSY : Fld := ⟨30, 30, .ro, 0⟩
def ETH_SFPCMD_NAK : Fld := ⟨29, 29, .w1c, 0⟩
def ETH_SFPCMD_DEV : Fld := ⟨24, 24, .rw, 0⟩
def ETH_SFPCMD_OFFSET : Fld := ⟨23, 16, .rw, 0⟩
def ETH_SFPCMD_COUNT : Fld := ⟨1, 0, .rw, 0⟩
def ETH_SFPCMD (i : Nat) : Nat := 0x46000070 + 0x100000 * i
def ETH_SFPDATA_DATA : Fld := ⟨31, 0, .ro, 0⟩
def ETH_SFPDATA (i : Nat) : Nat := 0x46000074 + 0x100000 * i
def ETH_PEERSEL_ENTRY : Fld := ⟨7, 0, .rw, 0⟩
def ETH_PEERSEL (i : Nat) : Nat := 0x46000080 + 0x100000 * i
def ETH_PEERST_VALID : Fld := ⟨31, 31, .ro, 0⟩
def ETH_PEERST_V6 : Fld := ⟨30, 30, .ro, 0⟩
def ETH_PEERST_LPORT : Fld := ⟨25, 24, .ro, 0⟩
def ETH_PEERST_RPORT : Fld := ⟨15, 0, .ro, 0⟩
def ETH_PEERST (i : Nat) : Nat := 0x46000084 + 0x100000 * i
def ETH_PEERMACLO_DATA : Fld := ⟨31, 0, .ro, 0⟩
def ETH_PEERMACLO (i : Nat) : Nat := 0x46000088 + 0x100000 * i
def ETH_PEERMACHI_DATA : Fld := ⟨31, 0, .ro, 0⟩
def ETH_PEERMACHI (i : Nat) : Nat := 0x4600008c + 0x100000 * i
def ETH_PEERIP_DATA : Fld := ⟨31, 0, .ro, 0⟩
def ETH_PEERIP (i j : Nat) : Nat := 0x46000090 + 0x100000 * i + 0x4 * j
def CLS_FIRST_VALUE : Fld := ⟨19, 0, .lk, 0xfffff⟩
def CLS_FIRST (i : Nat) : Nat := 0x46001000 + 0x10 * i
def CLS_LAST_VALUE : Fld := ⟨19, 0, .lk, 0⟩
def CLS_LAST (i : Nat) : Nat := 0x46001004 + 0x10 * i
def CLS_QBASE_VALUE : Fld := ⟨19, 0, .lk, 0⟩
def CLS_QBASE (i : Nat) : Nat := 0x46001008 + 0x10 * i
def SER_CFG_EN : Fld := ⟨31, 31, .lk, 0⟩
def SER_CFG_BPS : Fld := ⟨28, 8, .lk, 0⟩
def SER_CFG_ADR : Fld := ⟨7, 0, .lk, 0⟩
def SER_CFG : Nat := 0x47000000
def SER_STATUS_TXBUF : Fld := ⟨7, 4, .ro, 0⟩
def SER_STATUS_DRIVING : Fld := ⟨3, 3, .ro, 0⟩
def SER_STATUS_BUSYMODE : Fld := ⟨2, 2, .ro, 0⟩
def SER_STATUS_RUN : Fld := ⟨0, 0, .ro, 0⟩
def SER_STATUS : Nat := 0x47000004
def SER_RX_FRAMES : Fld := ⟨31, 16, .rc, 0⟩
def SER_RX_FCSERR : Fld := ⟨15, 8, .rc, 0⟩
def SER_RX_OTHER : Fld := ⟨7, 0, .rc, 0⟩
def SER_RX : Nat := 0x47000008
def SER_DROP_NOSESSION : Fld := ⟨31, 24, .rc, 0⟩
def SER_DROP_STOP : Fld := ⟨23, 16, .rc, 0⟩
def SER_DROP_THROT : Fld := ⟨15, 8, .rc, 0⟩
def SER_DROP_TXBAD : Fld := ⟨7, 0, .rc, 0⟩
def SER_DROP : Nat := 0x4700000c

/-- The registers of spec chapter 21. -/
def regRows21 : List RegRow :=
  [⟨"ETH_CTL", 0x46000000, 2, 0x100000, 1, 0x4, [ETH_CTL_TXOFF]⟩,
   ⟨"ETH_STATUS", 0x46000004, 2, 0x100000, 1, 0x4, [ETH_STATUS_MODABS, ETH_STATUS_LOS, ETH_STATUS_TXFAULT, ETH_STATUS_TXDIS, ETH_STATUS_FECLOCK, ETH_STATUS_BLKLOCK, ETH_STATUS_UP]⟩,
   ⟨"ETH_CFG", 0x46000008, 2, 0x100000, 1, 0x4, [ETH_CFG_GEN, ETH_CFG_NETF, ETH_CFG_VID]⟩,
   ⟨"ETH_MACLO", 0x46000010, 2, 0x100000, 1, 0x4, [ETH_MACLO_DATA]⟩,
   ⟨"ETH_MACHI", 0x46000014, 2, 0x100000, 1, 0x4, [ETH_MACHI_DATA]⟩,
   ⟨"ETH_IPV4", 0x46000018, 2, 0x100000, 1, 0x4, [ETH_IPV4_DATA]⟩,
   ⟨"ETH_IPV6_", 0x46000020, 2, 0x100000, 4, 0x4, [ETH_IPV6_DATA]⟩,
   ⟨"ETH_UDPP", 0x46000030, 2, 0x100000, 2, 0x4, [ETH_UDPP_DATA]⟩,
   ⟨"ETH_RXOK", 0x46000040, 2, 0x100000, 1, 0x4, [ETH_RXOK_COUNT]⟩,
   ⟨"ETH_TXOK", 0x46000050, 2, 0x100000, 1, 0x4, [ETH_TXOK_COUNT]⟩,
   ⟨"ETH_RXDROP0", 0x46000044, 2, 0x100000, 1, 0x4, [ETH_RXDROP0_L2, ETH_RXDROP0_ADDR, ETH_RXDROP0_IP, ETH_RXDROP0_UDP]⟩,
   ⟨"ETH_RXDROP1", 0x46000048, 2, 0x100000, 1, 0x4, [ETH_RXDROP1_DGRAM, ETH_RXDROP1_NOSESSION, ETH_RXDROP1_STOP, ETH_RXDROP1_THROT]⟩,
   ⟨"ETH_SLOW", 0x4600004c, 2, 0x100000, 1, 0x4, [ETH_SLOW_PUSHED]⟩,
   ⟨"ETH_TXERR", 0x46000054, 2, 0x100000, 1, 0x4, [ETH_TXERR_NOPEER, ETH_TXERR_NOSESSION, ETH_TXERR_LINKDOWN, ETH_TXERR_BAD]⟩,
   ⟨"ETH_FEC", 0x46000058, 2, 0x100000, 1, 0x4, [ETH_FEC_CORR, ETH_FEC_UNCORR]⟩,
   ⟨"ETH_THR", 0x46000060, 2, 0x100000, 1, 0x4, [ETH_THR_ACTIVE, ETH_THR_RATE]⟩,
   ⟨"ETH_SFPCMD", 0x46000070, 2, 0x100000, 1, 0x4, [ETH_SFPCMD_GO, ETH_SFPCMD_BUSY, ETH_SFPCMD_NAK, ETH_SFPCMD_DEV, ETH_SFPCMD_OFFSET, ETH_SFPCMD_COUNT]⟩,
   ⟨"ETH_SFPDATA", 0x46000074, 2, 0x100000, 1, 0x4, [ETH_SFPDATA_DATA]⟩,
   ⟨"ETH_PEERSEL", 0x46000080, 2, 0x100000, 1, 0x4, [ETH_PEERSEL_ENTRY]⟩,
   ⟨"ETH_PEERST", 0x46000084, 2, 0x100000, 1, 0x4, [ETH_PEERST_VALID, ETH_PEERST_V6, ETH_PEERST_LPORT, ETH_PEERST_RPORT]⟩,
   ⟨"ETH_PEERMACLO", 0x46000088, 2, 0x100000, 1, 0x4, [ETH_PEERMACLO_DATA]⟩,
   ⟨"ETH_PEERMACHI", 0x4600008c, 2, 0x100000, 1, 0x4, [ETH_PEERMACHI_DATA]⟩,
   ⟨"ETH_PEERIP", 0x46000090, 2, 0x100000, 4, 0x4, [ETH_PEERIP_DATA]⟩,
   ⟨"CLS_FIRST", 0x46001000, 256, 0x10, 1, 0x4, [CLS_FIRST_VALUE]⟩,
   ⟨"CLS_LAST", 0x46001004, 256, 0x10, 1, 0x4, [CLS_LAST_VALUE]⟩,
   ⟨"CLS_QBASE", 0x46001008, 256, 0x10, 1, 0x4, [CLS_QBASE_VALUE]⟩,
   ⟨"SER_CFG", 0x47000000, 1, 0x4, 1, 0x4, [SER_CFG_EN, SER_CFG_BPS, SER_CFG_ADR]⟩,
   ⟨"SER_STATUS", 0x47000004, 1, 0x4, 1, 0x4, [SER_STATUS_TXBUF, SER_STATUS_DRIVING, SER_STATUS_BUSYMODE, SER_STATUS_RUN]⟩,
   ⟨"SER_RX", 0x47000008, 1, 0x4, 1, 0x4, [SER_RX_FRAMES, SER_RX_FCSERR, SER_RX_OTHER]⟩,
   ⟨"SER_DROP", 0x4700000c, 1, 0x4, 1, 0x4, [SER_DROP_NOSESSION, SER_DROP_STOP, SER_DROP_THROT, SER_DROP_TXBAD]⟩]

/-! ### Spec chapter 22: Boot and update engine -/

def BOOT_STATUS_SELFTEST : Fld := ⟨11, 11, .ro, 0⟩
def BOOT_STATUS_TRIES : Fld := ⟨10, 8, .ro, 0⟩
def BOOT_STATUS_UNCONF : Fld := ⟨7, 7, .ro, 0⟩
def BOOT_STATUS_FWSLOT : Fld := ⟨6, 6, .ro, 0⟩
def BOOT_STATUS_REVERTED : Fld := ⟨5, 5, .ro, 0⟩
def BOOT_STATUS_FWOK : Fld := ⟨4, 4, .ro, 0⟩
def BOOT_STATUS_STEP : Fld := ⟨3, 0, .ro, 1⟩
def BOOT_STATUS : Nat := 0x400c0000
def FW_STATUS_ERROR : Fld := ⟨15, 8, .ro, 0⟩
def FW_STATUS_OKB : Fld := ⟨3, 3, .ro, 0⟩
def FW_STATUS_SIGOKB : Fld := ⟨2, 2, .ro, 0⟩
def FW_STATUS_OKA : Fld := ⟨1, 1, .ro, 0⟩
def FW_STATUS_SIGOKA : Fld := ⟨0, 0, .ro, 0⟩
def FW_STATUS : Nat := 0x400c0004
def FW_HASH_HASH : Fld := ⟨31, 0, .ro, 0⟩
def FW_HASH (i : Nat) : Nat := 0x400c0010 + 0x4 * i
def FW_VERSION0_VERSION : Fld := ⟨31, 0, .ro, 0⟩
def FW_VERSION0 : Nat := 0x400c0030
def FW_VERSION1_VERSION : Fld := ⟨31, 0, .ro, 0⟩
def FW_VERSION1 : Nat := 0x400c0034
def RST_CAUSE_RESTARTS : Fld := ⟨31, 16, .ro, 0⟩
def RST_CAUSE_CAUSE : Fld := ⟨2, 0, .ro, 0⟩
def RST_CAUSE : Nat := 0x400c0040
def UPD_STATUS_ERROR : Fld := ⟨15, 8, .ro, 0⟩
def UPD_STATUS_TARGET : Fld := ⟨7, 4, .ro, 0⟩
def UPD_STATUS_STAGE : Fld := ⟨2, 0, .ro, 0⟩
def UPD_STATUS : Nat := 0x400c0080
def UPD_LEN_BYTES : Fld := ⟨22, 0, .ro, 0⟩
def UPD_LEN : Nat := 0x400c0084
def UPD_RCVD_BYTES : Fld := ⟨22, 0, .ro, 0⟩
def UPD_RCVD : Nat := 0x400c0088

/-- The registers of spec chapter 22. -/
def regRows22 : List RegRow :=
  [⟨"BOOT_STATUS", 0x400c0000, 1, 0x4, 1, 0x4, [BOOT_STATUS_SELFTEST, BOOT_STATUS_TRIES, BOOT_STATUS_UNCONF, BOOT_STATUS_FWSLOT, BOOT_STATUS_REVERTED, BOOT_STATUS_FWOK, BOOT_STATUS_STEP]⟩,
   ⟨"FW_STATUS", 0x400c0004, 1, 0x4, 1, 0x4, [FW_STATUS_ERROR, FW_STATUS_OKB, FW_STATUS_SIGOKB, FW_STATUS_OKA, FW_STATUS_SIGOKA]⟩,
   ⟨"FW_HASH", 0x400c0010, 8, 0x4, 1, 0x4, [FW_HASH_HASH]⟩,
   ⟨"FW_VERSION0", 0x400c0030, 1, 0x4, 1, 0x4, [FW_VERSION0_VERSION]⟩,
   ⟨"FW_VERSION1", 0x400c0034, 1, 0x4, 1, 0x4, [FW_VERSION1_VERSION]⟩,
   ⟨"RST_CAUSE", 0x400c0040, 1, 0x4, 1, 0x4, [RST_CAUSE_RESTARTS, RST_CAUSE_CAUSE]⟩,
   ⟨"UPD_STATUS", 0x400c0080, 1, 0x4, 1, 0x4, [UPD_STATUS_ERROR, UPD_STATUS_TARGET, UPD_STATUS_STAGE]⟩,
   ⟨"UPD_LEN", 0x400c0084, 1, 0x4, 1, 0x4, [UPD_LEN_BYTES]⟩,
   ⟨"UPD_RCVD", 0x400c0088, 1, 0x4, 1, 0x4, [UPD_RCVD_BYTES]⟩]

/-! ### Spec chapter 23: Tamper and battery -/

def TMP_STATUS_ZEROING : Fld := ⟨10, 10, .ro, 0⟩
def TMP_STATUS_AONFAULT : Fld := ⟨9, 9, .w1c, 0⟩
def TMP_STATUS_TEMPOUT : Fld := ⟨8, 8, .ro, 0⟩
def TMP_STATUS_LOOPOPEN : Fld := ⟨7, 7, .ro, 0⟩
def TMP_STATUS_CHARGING : Fld := ⟨6, 6, .ro, 0⟩
def TMP_STATUS_SRC : Fld := ⟨5, 5, .ro, 0⟩
def TMP_STATUS_BATGONE : Fld := ⟨4, 4, .w1c, 0⟩
def TMP_STATUS_RTCINV : Fld := ⟨1, 1, .ro, 0⟩
def TMP_STATUS_KEYLOST : Fld := ⟨0, 0, .ro, 0⟩
def TMP_STATUS : Nat := 0x400b0000
def TMP_CTL_CHGOFF : Fld := ⟨1, 1, .rw, 0⟩
def TMP_CTL_LOOPEN : Fld := ⟨0, 0, .w1s, 0⟩
def TMP_CTL : Nat := 0x400b0004
def TMP_KEYPRES_PRES : Fld := ⟨3, 0, .ro, 0⟩
def TMP_KEYPRES : Nat := 0x400b0008
def TMP_KEYVER_VERSION : Fld := ⟨31, 0, .ro, 0⟩
def TMP_KEYVER (i : Nat) : Nat := 0x400b0010 + 0x4 * i
def TMP_SENSE_TEMP : Fld := ⟨27, 16, .ro, 0⟩
def TMP_SENSE_LOOP : Fld := ⟨11, 0, .ro, 0⟩
def TMP_SENSE : Nat := 0x400b0020
def TMP_LOGCNT_COUNT : Fld := ⟨31, 0, .ro, 0⟩
def TMP_LOGCNT : Nat := 0x400b0030
def TMP_LOGSEL_INDEX : Fld := ⟨3, 0, .rw, 0⟩
def TMP_LOGSEL : Nat := 0x400b0034
def TMP_LOGD_WORD : Fld := ⟨31, 0, .ro, 0⟩
def TMP_LOGD (i : Nat) : Nat := 0x400b0040 + 0x4 * i

/-- The registers of spec chapter 23. -/
def regRows23 : List RegRow :=
  [⟨"TMP_STATUS", 0x400b0000, 1, 0x4, 1, 0x4, [TMP_STATUS_ZEROING, TMP_STATUS_AONFAULT, TMP_STATUS_TEMPOUT, TMP_STATUS_LOOPOPEN, TMP_STATUS_CHARGING, TMP_STATUS_SRC, TMP_STATUS_BATGONE, TMP_STATUS_RTCINV, TMP_STATUS_KEYLOST]⟩,
   ⟨"TMP_CTL", 0x400b0004, 1, 0x4, 1, 0x4, [TMP_CTL_CHGOFF, TMP_CTL_LOOPEN]⟩,
   ⟨"TMP_KEYPRES", 0x400b0008, 1, 0x4, 1, 0x4, [TMP_KEYPRES_PRES]⟩,
   ⟨"TMP_KEYVER", 0x400b0010, 4, 0x4, 1, 0x4, [TMP_KEYVER_VERSION]⟩,
   ⟨"TMP_SENSE", 0x400b0020, 1, 0x4, 1, 0x4, [TMP_SENSE_TEMP, TMP_SENSE_LOOP]⟩,
   ⟨"TMP_LOGCNT", 0x400b0030, 1, 0x4, 1, 0x4, [TMP_LOGCNT_COUNT]⟩,
   ⟨"TMP_LOGSEL", 0x400b0034, 1, 0x4, 1, 0x4, [TMP_LOGSEL_INDEX]⟩,
   ⟨"TMP_LOGD", 0x400b0040, 4, 0x4, 1, 0x4, [TMP_LOGD_WORD]⟩]

/-! ### Spec chapter 24: Audit and debug -/

def AUD_STATUS_SESSIONS : Fld := ⟨31, 16, .ro, 0⟩
def AUD_STATUS_OPEN : Fld := ⟨0, 0, .ro, 0⟩
def AUD_STATUS : Nat := 0x400d0000
def AUD_TRCSEL_EN : Fld := ⟨31, 31, .rw, 0⟩
def AUD_TRCSEL_TRIAD : Fld := ⟨4, 0, .rw, 0⟩
def AUD_TRCSEL : Nat := 0x400d0004
def AUD_TRCST_FULLRUN : Fld := ⟨31, 31, .ro, 0⟩
def AUD_TRCST_HOLD : Fld := ⟨30, 30, .ro, 0⟩
def AUD_TRCST_RECS : Fld := ⟨12, 0, .ro, 0⟩
def AUD_TRCST : Nat := 0x400d0008
def DBG_CTL_TRIAD : Fld := ⟨12, 8, .rw, 0⟩
def DBG_CTL_CMD : Fld := ⟨1, 0, .wo, 0⟩
def DBG_CTL : Nat := 0x400d0100
def DBG_STAT_HALTED : Fld := ⟨31, 0, .ro, 0⟩
def DBG_STAT : Nat := 0x400d0104
def DBG_BPT_PC : Fld := ⟨31, 1, .rw, 0⟩
def DBG_BPT_EN : Fld := ⟨0, 0, .rw, 0⟩
def DBG_BPT : Nat := 0x400d0108
def DBG_ACC_GO : Fld := ⟨31, 31, .wo, 0⟩
def DBG_ACC_WRITE : Fld := ⟨30, 30, .rw, 0⟩
def DBG_ACC_DONE : Fld := ⟨29, 29, .ro, 0⟩
def DBG_ACC_ERR : Fld := ⟨28, 28, .w1c, 0⟩
def DBG_ACC_PORT : Fld := ⟨7, 0, .rw, 0⟩
def DBG_ACC : Nat := 0x400d010c
def DBG_ACCVAL_VALUE : Fld := ⟨31, 0, .rw, 0⟩
def DBG_ACCVAL : Nat := 0x400d0110

/-- The registers of spec chapter 24. -/
def regRows24 : List RegRow :=
  [⟨"AUD_STATUS", 0x400d0000, 1, 0x4, 1, 0x4, [AUD_STATUS_SESSIONS, AUD_STATUS_OPEN]⟩,
   ⟨"AUD_TRCSEL", 0x400d0004, 1, 0x4, 1, 0x4, [AUD_TRCSEL_EN, AUD_TRCSEL_TRIAD]⟩,
   ⟨"AUD_TRCST", 0x400d0008, 1, 0x4, 1, 0x4, [AUD_TRCST_FULLRUN, AUD_TRCST_HOLD, AUD_TRCST_RECS]⟩,
   ⟨"DBG_CTL", 0x400d0100, 1, 0x4, 1, 0x4, [DBG_CTL_TRIAD, DBG_CTL_CMD]⟩,
   ⟨"DBG_STAT", 0x400d0104, 1, 0x4, 1, 0x4, [DBG_STAT_HALTED]⟩,
   ⟨"DBG_BPT", 0x400d0108, 1, 0x4, 1, 0x4, [DBG_BPT_PC, DBG_BPT_EN]⟩,
   ⟨"DBG_ACC", 0x400d010c, 1, 0x4, 1, 0x4, [DBG_ACC_GO, DBG_ACC_WRITE, DBG_ACC_DONE, DBG_ACC_ERR, DBG_ACC_PORT]⟩,
   ⟨"DBG_ACCVAL", 0x400d0110, 1, 0x4, 1, 0x4, [DBG_ACCVAL_VALUE]⟩]

end Sys2Proof.Machine
end

