-- ==== Sys2Proof/Machine/Table.lean ====
section
/-!
DEFINITION. Sparse tables: a finite list of (key, value) pairs in one canonical form. Every memory, register file and
per-instance record of the machine is one of these, so that equal contents are equal data. A key that is not listed
reads as a default that the owner names (the reset value of that register, the byte that unwritten memory reads as).
-/

namespace Sys2Proof.Machine

/-- A sparse table from keys to values. -/
abbrev Tab (α : Type) := List (Nat × α)

/-- What key `k` reads as: the listed value, or the default. -/
def tget {α : Type} (d : Nat → α) : Tab α → Nat → α
  | [], k => d k
  | (a, v) :: r, k => if a = k then v else tget d r k

/-- The table without any entry for `k`. -/
def tdel {α : Type} : Tab α → Nat → Tab α
  | [], _ => []
  | (a, v) :: r, k => if a = k then tdel r k else (a, v) :: tdel r k

/-- Insert `(k, v)` before the first larger key. -/
def tins {α : Type} : Tab α → Nat → α → Tab α
  | [], k, v => [(k, v)]
  | (a, w) :: r, k, v => if k < a then (k, v) :: (a, w) :: r else (a, w) :: tins r k v

/-- Store `v` at `k`; storing the default removes the entry. -/
def tset {α : Type} [DecidableEq α] (d : Nat → α) (t : Tab α) (k : Nat) (v : α) : Tab α :=
  if v = d k then tdel t k else tins (tdel t k) k v

/-- Keys strictly rising from above `lo` (exclusive when `some`). -/
def keysRise {α : Type} : Option Nat → Tab α → Bool
  | _, [] => true
  | none, (a, _) :: r => keysRise (some a) r
  | some lo, (a, _) :: r => decide (lo < a) && keysRise (some a) r

/-- No entry holds what its key reads as when unlisted. -/
def noDefaults {α : Type} [DecidableEq α] (d : Nat → α) : Tab α → Bool
  | [] => true
  | (a, v) :: r => !decide (v = d a) && noDefaults d r

/-- The canonical form: keys strictly rising, no entry equal to the default. -/
def twf {α : Type} [DecidableEq α] (d : Nat → α) (t : Tab α) : Bool :=
  keysRise none t && noDefaults d t

/-- Remove every entry with a key in [lo, hi). -/
def tclear {α : Type} (lo hi : Nat) : Tab α → Tab α
  | [] => []
  | (a, v) :: r => if lo ≤ a && a < hi then tclear lo hi r else (a, v) :: tclear lo hi r

/-- The entries with a key in [lo, hi). -/
def trange {α : Type} (lo hi : Nat) : Tab α → Tab α
  | [] => []
  | (a, v) :: r => if lo ≤ a && a < hi then (a, v) :: trange lo hi r else trange lo hi r

/-- Store each listed entry, its key moved by `+ up - down`. -/
def tputAll {α : Type} [DecidableEq α] (d : Nat → α) (up down : Nat) : Tab α → Tab α → Tab α
  | [], t => t
  | (a, v) :: r, t => tputAll d up down r (tset d t (a + up - down) v)

/-- Copy the `n` keys from `src` on to `dst` on, as the whole range was before the copy. -/
def tcopy {α : Type} [DecidableEq α] (d : Nat → α) (src dst n : Nat) (t : Tab α) : Tab α :=
  tputAll d dst src (trange src (src + n) t) (tclear dst (dst + n) t)

/-- Smallest key not listed, counting up from `k` in a table with rising keys. -/
def tfirstFree {α : Type} : Nat → Tab α → Nat
  | k, [] => k
  | k, (a, _) :: r => if a = k then tfirstFree (k + 1) r else if a < k then tfirstFree k r else k

end Sys2Proof.Machine
end

