-- ==== Sys2Proof/Machine/State.lean ====
section
/-!
DEFINITION. The state of the card as plain data: every register, memory, queue, counter, mode and latch the spec
gives it, and the queue of the commands that wait. Every field's default is its value at reset, right before the
release of the power-on reset (R555); `State.reset` is the state of those defaults. Registers of the fabric that the
blocks only store or count are in `csr`, by fabric address, with the reset values of the register map.
-/

namespace Sys2Proof.Machine

/-! ### Ferlet triads (spec chapters 03 to 08) -/

/-- One level of the loop stack (R157). -/
structure LoopLevel where
  start : Word
  stop : Word
  count : Word
deriving DecidableEq, Repr

/-- The internal state of the DEC unit (R116): a running or suspended dec.mulw (trigger 0x6A) or dec.divw (0x6B). -/
structure DecState where
  susp : Bool := false
  trig : BitVec 8 := 0
  step : Nat := 0
  a : Word := 0
  b : Word := 0
  v : Word := 0
  bin : Word := 0
deriving DecidableEq, Repr

/-- The internal state of the gather unit: the operands its trigger sampled (R143) and SUSP (R164); `v` is the value that
the trigger transported, which a resumption retires with (log entry 48). -/
structure GthState where
  susp : Bool := false
  trig : BitVec 8 := 0
  v : Word := 0
  base : Word := 0
  idx : Word := 0
  n : Word := 0
  seg : BitVec 3 := 0
deriving DecidableEq, Repr

/-- The long micro-routine a triad is in (R162). -/
inductive Routine where
  | dec (trig : BitVec 8)
  | gth (trig : BitVec 8) (seg : BitVec 3)
  | call (mask : BitVec 16) (tgtSrc : Bool) (off : BitVec 12) (k : Nat)
deriving DecidableEq, Repr

/-- A long micro-routine under way: what it is, its move's value (C of R208), encoding and length, whether it is a
suspended one that resumed (R165), whether its move is B of a pair. -/
structure Running where
  routine : Routine
  value : Word
  enc : Word
  len : Nat
  resumed : Bool
  pair : Bool
deriving DecidableEq, Repr

/-- What R86 needs to know of the move before: where the next one stands, its length, what it wrote and triggered. -/
structure PairInfo where
  next : Word
  len : Nat
  dst : BitVec 8
deriving DecidableEq, Repr

/-- One cache line (R135): its fabric line address and its eight words, none for a word that came with a poison mark. -/
structure CacheLine where
  line : Nat
  words : List (Option Word)
deriving DecidableEq, Repr

/-- What a voted read answers (R202): the words it delivers in order, none for one that comes with a poison mark; 0 for a
normal end, else the vector of the exception that the access ends in (7, 8). -/
structure ReadRes where
  words : List (Option Word) := []
  err : Nat := 0
deriving DecidableEq, Repr

/-- One core position of a triad: whether it is masked; how many retirements of the triad it has not made yet (R206); the
result of the read that it took last (R202); when the last resync of the core there ended, in SLCK periods (R212). -/
structure Position where
  masked : Bool := false
  behind : Nat := 0
  got : ReadRes := {}
  resyncEnd : Option Nat := none
deriving DecidableEq, Repr

/-- One entry of a position's stream to the voter (R198). -/
inductive VItem where
  | eff (e : EffCopy)
  | rd (r : ReadCopy)
deriving DecidableEq, Repr

/-- An effect that the voter has released, or a read that it has issued, and that position `pos` has still to present; a
read's result is held for it in the read buffer (R199, R202, R203). -/
structure Owed where
  pos : Nat
  item : VItem
  res : Option ReadRes := none
deriving DecidableEq, Repr

/-- A read that has been issued and whose move has not retired; with `pc`, an entry that returns there has discarded the
move, and the request is answered from here when it is presented again (R204). -/
structure Taken where
  req : ReadCopy
  res : ReadRes
  pc : Option Word := none
deriving DecidableEq, Repr

/-- What the cluster voter holds for one triad: by position, the stream presented and not yet released, in program order
(R198); what one position has still to present; issued reads whose moves have not retired; the position that trails in
the move under way. -/
structure Voter where
  waiting : Tab (List VItem) := []
  owed : List Owed := []
  taken : List Taken := []
  late : Option Nat := none
deriving DecidableEq, Repr

/-- A rebuild that waits for its turn or is under way (R212 to R215): the position, whether it is a swap, the number of the
core that diverged; the source's position, and whether the copy has started again from the other one. -/
structure Rebuild where
  pos : Nat
  swap : Bool
  core : Nat
  source : Nat := 0
  again : Bool := false
deriving DecidableEq, Repr

/-- One triad: the one architectural state its live cores agree on, and what the cluster voter holds for it. The
registers that the spec gives the triad in the supervisor and cluster blocks (mode, positions, voted count and check)
are in `csr`. -/
structure Triad where
  /-- every port by its ID (R75): general registers, fl, operand and result ports, segment descriptors, ctl ports -/
  ports : Tab Word := []
  pc : Word := 0
  /-- LCNT, the value last written to lp.count (R157) -/
  lcnt : Word := 0
  /-- the loop stack, innermost level first (R157) -/
  loops : List LoopLevel := []
  dec : DecState := {}
  gth : GthState := {}
  run : Option Running := none
  /-- br.rti has restored ctl.prog and the move at the restored PC is still to be checked (R166) -/
  rtiCheck : Bool := false
  /-- no move of a handler has retired since its entry (R94) -/
  entered : Bool := false
  /-- stopped issuing at a ctl.wait (R419) -/
  waiting : Bool := false
  /-- halted by debug; about to halt again after one counted retirement; released at the breakpoint (R603) -/
  halted : Bool := false
  stepping : Bool := false
  bptPass : Bool := false
  /-- a HALT that arrived during a rebuild waits for its end (R603) -/
  haltDue : Bool := false
  /-- the retirement count after which a HALT stops the triad (R603) -/
  haltAt : Option (BitVec 64) := none
  /-- the move at the PC is the target of the jump, branch, call or return retired last (R150) -/
  landed : Bool := false
  /-- the fetch group read last, by its fabric address divided by 4 (R184) -/
  group : Option Nat := none
  /-- the move that may be A of a pair (R86) -/
  pairA : Option PairInfo := none
  /-- retirement count (R163) and retirement check (R208) -/
  rcount : BitVec 64 := 0
  rcheck : BitVec 64 := 0
  /-- instruction and data cache, by set, most recently used line first (R135) -/
  icache : Tab (List CacheLine) := []
  dcache : Tab (List CacheLine) := []
  pos0 : Position := {}
  pos1 : Position := {}
  pos2 : Position := {}
  /-- a rebuild waits for its turn or is under way (R215) -/
  rebuild : Option Rebuild := none
  /-- the agreed interrupt point: N, and the priority p of the vector 16 + p to enter (R207) -/
  point : Option (BitVec 64 × Nat) := none
  /-- the voter has accepted a source whose entry has not been made (R191) -/
  due : Bool := false
  /-- the position whose own copy of a local store word failed in the move under way (R131) -/
  split : Option Nat := none
  voter : Voter := {}
deriving DecidableEq, Repr

/-! ### Interrupt controller (spec chapter 15) -/

/-- The bank that serves one triad (R405). -/
structure PicBank where
  en : Word := 0
  pend : Word := 0
  act : Word := 0
  /-- PIC_PPRIj0 to PIC_PPRIj3, word 0 lowest -/
  pri : BitVec 128 := 0xFFFFFFFFFFFFFFFFFFFFFFFFFFFFFFFF
  /-- the running-priority stack, top first (R417) -/
  stack : List (BitVec 4) := []
  /-- the reserved source's claim ID and the priority it held when reserved (R412, R415) -/
  resv : Option (BitVec 10 × BitVec 4) := none
deriving DecidableEq, Repr

/-- The moderation state of one group of sixteen shared sources (R426). -/
structure ModGroup where
  hold : Bool := false
  /-- the SLCK count at the first event of the hold -/
  since : Nat := 0
  count : BitVec 8 := 0
  /-- the MOD_TIME in force, that of the last event (R429) -/
  time : Nat := 0
deriving DecidableEq, Repr

/-- The interrupt controller: shared part and private banks. -/
structure Pic where
  en : BitVec 512 := 0
  pend : BitVec 512 := 0
  act : BitVec 512 := 0
  /-- released by moderation and not yet claimed (R426) -/
  rel : BitVec 512 := 0
  groups : Tab ModGroup := []
  banks : Tab PicBank := []
  /-- conditions of the shared level sources, by source, as the last command left them -/
  lvl : Tab Bool := []
deriving DecidableEq, Repr

/-! ### Caravan queue engine (spec chapter 10) -/

/-- Queue modes (R269). -/
inductive QMode where
  | normal | gap | pend | disc | broken
deriving DecidableEq, Repr

/-- A queue descriptor (R269), and the gap count that the gap table keeps for it (R270). -/
structure QDesc where
  head : Nat := 0
  tail : Nat := 0
  rslot : Nat := 0
  wslot : Nat := 0
  words : Nat := 0
  pkts : Nat := 0
  mode : QMode := .normal
  inpkt : Bool := false
  armed : Bool := false
  listed : Bool := false
  wnext : BitVec 20 := 0
  timx : BitVec 14 := 0
  /-- the queue holds a gap-table entry (index `timx`) -/
  entry : Bool := false
  /-- words dropped in the gap, saturating; 0xFFFFFFFF without an entry -/
  count : Word := 0
deriving DecidableEq, Repr

/-- The Caravan: descriptors by queue ID, data slots by 16 x cell + slot, link slots by cell, the used cells and the
used gap-table entries, the words of both memories that the scrubber has poisoned. -/
structure Qe where
  desc : Tab QDesc := []
  slots : Tab (BitVec 36) := []
  links : Tab (BitVec 29) := []
  used : Tab Bool := []
  gaps : Tab Bool := []
  /-- link slots by cell and descriptors by queue that the scrubber has poisoned (R229, R287) -/
  badLinks : Tab Bool := []
  badDescs : Tab Bool := []
deriving DecidableEq, Repr

/-! ### Lattice (spec chapter 09) -/

/-- A host access that the host bridge holds behind a fence (R244): a write with its byte enables, a read, a write to the drain
window. -/
inductive HeldAccess where
  | write (p : Place) (data : Word) (be : BitVec 4)
  | read (p : Place)
  | drain
deriving DecidableEq, Repr

/-- The lattice: failed routes by 16 x source router + destination router (R250), the failures in succession of the flit on
each link, by 2 x link + direction (R249), rows that each bank has scrubbed since reset (R247), outstanding host fences and
the host accesses held behind them (R244), THROTTLE (R255). -/
structure Lattice where
  routes : Tab Bool := []
  flits : Tab Nat := []
  rows : Tab Nat := []
  fences : Nat := 0
  held : List HeldAccess := []
  throttle : Bool := false
deriving DecidableEq, Repr

/-! ### Weft sequencer (spec chapter 11) -/

/-- What a transaction in a slot is doing (R310, R316, R319). -/
inductive WPhase where
  | waiting | dispatched | rewinding | aborting
deriving DecidableEq, Repr

/-- One slot: the token's fields (R299), the stage that is dispatched next (0xFF for END), whether a dispatch is
outstanding with its timer running, the EPOCH that dispatch carried, and whether a rewind has restored the inputs and its
checkpoint stage still waits to be dispatched (R319). -/
structure WSlot where
  tid : Word
  stage : BitVec 8
  result : BitVec 2 := 0
  committed : Bool := false
  rewound : Bool := false
  epoch : BitVec 4 := 0
  phase : WPhase := .waiting
  next : BitVec 8
  outstanding : Bool := false
  outEpoch : BitVec 4 := 0
  restored : Bool := false
deriving DecidableEq, Repr

/-- A message of the sequencer to the tally engine (R331); a rewind names the transaction whose abort caused it, if one did. -/
inductive TMsg where
  | begin (slot : Nat) (tid : Word)
  | head (tid : Option Word)
  | commit (slot : Nat) (tid : Word)
  | abort (slot : Nat) (tid : Word)
  | rewind (slot : Nat) (tid : Word) (epoch : BitVec 4) (root : Option Word)
  | fin (slot : Nat) (tid : Word)
deriving DecidableEq, Repr

/-- The sequencer: slots, the head it last reported, the messages on the private link (oldest first), the transactions
that each triad has taken from a dispatch queue and not returned, the dispatch queues that a triad has popped part of a
packet from, and what WS_SEQHI and WS_SLOTTOK latched. A triad handles a transaction until its dispatch has returned or
timed out. -/
structure Weft where
  slots : Tab (Option WSlot) := []
  head : Option Word := none
  msgs : List TMsg := []
  handler : Tab (List Word) := []
  taking : Tab Bool := []
  seqLatch : Word := 0
  tokLatch : BitVec 64 := 0
deriving DecidableEq, Repr

/-! ### Tally engine (spec chapter 12) -/

/-- One tally (R327): enable bit, limit, committed value, delta entries with their transactions. -/
structure Tally where
  en : Bool := false
  limit : Nat := 0
  c : Int := 0
  deltas : List (Word × Int) := []
deriving DecidableEq, Repr

/-- The record of one weft slot (R331, R332, R339). -/
structure TSlot where
  tid : Word
  epoch : BitVec 4 := 0
  committed : Bool := false
  aborted : Bool := false
  held : Bool := false
deriving DecidableEq, Repr

/-- A recorded read (R337). -/
structure ReadRec where
  tally : Nat
  tid : Word
  slot : Nat
  stage : BitVec 8
deriving DecidableEq, Repr

/-- A request that the engine has popped: its packet's words. -/
structure TReq where
  slot : Nat
  words : List Word
deriving DecidableEq, Repr

/-- What a parked request waits for (R340 to R342): a record, an entry of a tally, its slot's earlier request. -/
inductive TWait where
  | record
  | entry (tally : Nat)
  | turn
deriving DecidableEq, Repr

/-- A report on its way to the sequencer (R339), and the transaction whose abort caused it, if one did (R317). -/
structure Report where
  slot : Nat
  tid : Word
  stage : BitVec 8
  root : Option Word := none
deriving DecidableEq, Repr

/-- The tally engine: tallies, slot records, recorded reads (oldest first), parked requests (in arrival order), the
head transaction, reports not yet taken by the sequencer (oldest first). -/
structure TallyEng where
  tallies : Tab Tally := []
  slots : Tab (Option TSlot) := []
  reads : List ReadRec := []
  parked : List (TWait × TReq) := []
  head : Option Word := none
  reports : List Report := []
deriving DecidableEq, Repr

/-! ### Ledger engine (spec chapter 13) -/

/-- What a record's writer supplies (R349): the bytes of PAYLOAD in use are `payload`, so LENGTH is its length. -/
structure Body where
  type : BitVec 16
  source : BitVec 16
  flags : BitVec 16 := 0
  payload : List Byte := []
deriving DecidableEq, Repr

/-- What happens when a record becomes durable (R359, R399, R346, R528, R567). -/
inductive After where
  | none
  /-- the result of a commit request: TID and the token's low word -/
  | weft (tid lo : Word)
  /-- a result packet of the draw unit -/
  | draw (words : List Word)
  /-- the tally load has been written -/
  | load
  /-- the mailbox command that waits for its records -/
  | mailbox
  /-- a TAMPER record: tamper log entries copied so far -/
  | tamper (copied : Nat)
deriving DecidableEq, Repr

/-- Where a sequence number was drawn (R354): at the commit point of a ledger stage or a draw stage, or by a device. -/
inductive Origin where
  | commit | draw | device
deriving DecidableEq, Repr

/-- A reserved slot that is not durable yet: a record, or a cairn that seals `seq`. TID and TIME are those of its
reservation; `digest` is DIGEST(seq) once known; `todo` are the parts that are still to be written, each with its address, once
its writing has begun (R363, R367). -/
structure Resv where
  seq : Nat
  cairn : Bool
  tid : Word
  slot : Nat
  time : BitVec 64
  origin : Origin
  body : Option Body
  after : After
  written : Bool := false
  digest : List Byte := []
  todo : List (Nat × List Byte) := []
deriving DecidableEq, Repr

/-- The ledger anchor (R372). -/
structure Anchor where
  seq : Nat
  slot : Nat
  dig : List Byte
deriving DecidableEq, Repr

/-- A drain copy under way (R373). -/
structure DrainJob where
  host : Nat
  slot : Nat
  count : Nat
deriving DecidableEq, Repr

/-- A request of a crypto engine that is performed and waits for room at its output queue (R380, R381, R385): operation, output
queue, the triad it answers (none: a weft dispatch), TID, the token's low word, session, result words, the packet for the output
queue. -/
structure CryJob where
  op : Nat
  queue : Nat
  triad : Option Nat
  tid : Word
  lo : Word
  session : Nat
  words : List Word
  copy : List Word
deriving DecidableEq, Repr

/-- The ledger engine: reserved slots that are not durable (in order), the next sequence number, DIGEST of the last
record written, the first sequence number not acknowledged, the word last written to LED_ACKLO, device records that wait
for room, the anchor whose copy is not durable, the copy written next, freed slots that wait for it, the drain copy,
and the snapshot of R386 (LED_DURSEQHI, LED_FIRSTSLOT, LED_DURSLOT, LED_HEADDIG). -/
structure Ledger where
  resv : List Resv := []
  next : Nat := 0
  chain : List Byte := List.replicate 32 0
  acked : Nat := 0
  ackLo : Word := 0
  queued : List (Body × After) := []
  anchor : Option Anchor := none
  copy : Nat := 0
  freed : Nat := 0
  job : Option DrainJob := none
  snap : List Word := []
deriving DecidableEq, Repr

/-! ### Draw unit (spec chapter 14) -/

/-- The internal state of one DRBG instance (R391, R393): Key, V and the reseed counter. -/
structure Drbg where
  key : List Byte := []
  v : Nat := 0
  count : Nat := 0
deriving DecidableEq, Repr

/-- The draw unit: its three instances; whether an instantiation is due before the next draw (R392, R393); the words of
DRW_ENTIN; the SLCK count at the last health-test failure (R390); the repetition count test's last bit and run (R388). -/
structure Draw where
  d0 : Drbg := {}
  d1 : Drbg := {}
  d2 : Drbg := {}
  due : Bool := false
  entin : List Word := []
  failAt : Option Nat := none
  lastBit : Bool := false
  run : Nat := 0
deriving DecidableEq, Repr

/-! ### Timers (spec chapter 16) -/

/-- One timer channel, beyond what its registers in `csr` hold: the count and the prescaler's accumulator; TOP, CMP and
PSC in force and the TOP and CMP values that wait in the shadow registers; the halves that are held until the high half
is written; the gate; the count latched at the last stop and what a read of TMR_CNTLO or TMR_CAPLO latched; the captured
count; the level of TI and the edges counted by the edge prescaler; links that are still accepting an event; the SLCK
count at entry to RET, for a channel that was counting on a clock that make-up serves (R457). -/
structure Chan where
  count : BitVec 48 := 0
  acc : Nat := 0
  top : BitVec 48 := 0xFFFFFFFFFFFF
  cmp : BitVec 48 := 0
  psc : Word := 0
  topNext : Option (BitVec 48) := none
  cmpNext : Option (BitVec 48) := none
  topLo : Word := 0xFFFFFFFF
  cmpLo : Word := 0
  cntLo : Word := 0
  gate : Bool := true
  stopped : BitVec 48 := 0
  cntHi : Word := 0
  cap : BitVec 48 := 0
  capHi : Word := 0
  ti : Bool := false
  edges : Nat := 0
  busy0 : Bool := false
  busy1 : Bool := false
  slept : Option Nat := none
deriving DecidableEq, Repr

/-! ### Event fabric, real-time clock, health converter (spec chapter 17) -/

/-- The real-time clock: the AON's count, the bridge's PCLK copy (R467), the trim window (R470). -/
structure Rtc where
  sec : BitVec 48 := 0
  sub : BitVec 15 := 0
  copySec : BitVec 48 := 0
  copySub : BitVec 15 := 0
  /-- seconds that the last read of RTC_SUB latched -/
  snap : BitVec 48 := 0
  /-- SLCK periods since the trim window began, and the trim in force in it (12 bits, two's complement) -/
  win : Nat := 0
  trim : BitVec 12 := 0
deriving DecidableEq, Repr

/-- The event fabric: pushes made by inputs 78 and 79 (R463), inputs still busy, levels of pins EV0 to EV7. -/
structure Evf where
  pushA : BitVec 16 := 0
  pushB : BitVec 16 := 0
  /-- consumer inputs that are busy by R461 (a pulse that is high, a link that still accepts) -/
  busy : Tab Bool := []
  /-- level of each EV pin as an input, and as driven by EVO -/
  pinIn : BitVec 8 := 0
  pinOut : BitVec 8 := 0
deriving DecidableEq, Repr

/-- The health converter: the channels still to convert in the running sequence, as MON_SEQ and VCLSEL were at its
start (R473); a continuous start that waits. -/
structure Mon where
  left : List Nat := []
  vclsel : Nat := 0
  waiting : Bool := false
  /-- a sequence has started since reset, so the interval timer runs (R473) -/
  started : Bool := false
deriving DecidableEq, Repr

/-! ### Host bridge (spec chapter 20) -/

/-- An accepted command frame (R521). -/
structure Frame where
  code : Byte
  tag : Byte
  args : List Word
deriving DecidableEq, Repr

/-- The frame assembler, the command queue and the response FIFO (R522, R524): the words of the frame being assembled,
header first (none in search); the bytes of a part-received UART word; the accepted frames, oldest first; how many
records the executing command still waits for, and its results; the response words. -/
structure Mailbox where
  asm : List Word := []
  uart : List Byte := []
  queue : List Frame := []
  owed : Nat := 0
  results : List Word := []
  rsp : List Word := []
deriving DecidableEq, Repr

/-- The host function: what configuration space holds that acts on the card (R509 to R513), the MSI-X table by word and
the PBA (R517, R518), the last PTM dialogue (R530). -/
structure HostFn where
  /-- the ROM check after the last PERST# has ended (R512) -/
  served : Bool := false
  l1 : Bool := false
  /-- the LTSSM is in a state that is neither Detect nor L0 or L1 (R479) -/
  away : Bool := false
  memEn : Bool := false
  msixEn : Bool := false
  funcMask : Bool := false
  bars : Tab Word := []
  maxSpeed : BitVec 4 := 5
  maxWidth : BitVec 6 := 8
  target : BitVec 4 := 5
  /-- uncorrectable and correctable error status of AER (R515) -/
  uncorr : Word := 0
  corr : Word := 0
  table : Tab Word := []
  pba : BitVec 64 := 0
  ptmTime : BitVec 64 := 0
  ptmSec : Word := 0
  ptmSub : BitVec 15 := 0
deriving DecidableEq, Repr

/-! ### Network and serial intake (spec chapter 21) -/

/-- A peer (R543): source MAC and address in transmission order (byte 0 highest), IP version, source UDP port, UDPP index. -/
structure Peer where
  mac : BitVec 48
  v6 : Bool
  addr : BitVec 128
  rport : BitVec 16
  lport : BitVec 2
deriving DecidableEq, Repr

/-- The ports: peers by 256 x port + classifier entry; the identification counters of R546; by port, the window of R542
and the datagrams admitted in it; the INFO fields in the serial transmit buffer, oldest first (R552); by port, the MAC's
working copies of the stop bits (R257). -/
structure Net where
  peers : Tab (Option Peer) := []
  ids : Tab (BitVec 16) := []
  admitted : Tab (Nat × Nat) := []
  sent : List (List Byte) := []
  stops : Tab (BitVec 3) := []
  /-- bytes that the module read under way asks for (R535) -/
  sfp : Tab Nat := []
  /-- the card's driver of the serial line is enabled (R552) -/
  driving : Bool := false
deriving DecidableEq, Repr

/-! ### Boot and update engine (spec chapters 02 and 22) -/

/-- The update engine, beyond UPD_STATUS, UPD_LEN and UPD_RCVD: RPROF of the firmware update, and the hash of the image that
passed UPD_VERIFY (R568, R570). -/
structure Upd where
  rprof : BitVec 2 := 0
  hash : List Byte := []
deriving DecidableEq, Repr

/-! ### Always-on island (spec chapter 23) -/

/-- One key slot (R384, R587): its bytes and the CRC-32 over key and version. -/
structure KeySlot where
  key : List Byte := []
  crc : Word := 0
deriving DecidableEq, Repr

/-! ### Audit port and debug (spec chapter 24) -/

/-- A trace record (R599, R600): retirement count, kind, status, SUB and value. -/
structure TraceRec where
  count : BitVec 64
  kind : BitVec 8
  status : BitVec 8
  sub : BitVec 8
  value : Word
deriving DecidableEq, Repr

/-- The execution digest of one triad (R597, R598): EPOCH, TAINT, N of the last fold and the 32 bytes of XD, byte 0 in
the highest bits. -/
structure Digest where
  epoch : BitVec 16 := 0
  taint : Bool := false
  n : BitVec 64 := 0
  xd : BitVec 256 := 0
deriving DecidableEq, Repr

/-- The 1149.1 port (R605, R606): the selected instruction and the boundary cells (log entry 88). -/
structure Tap where
  ir : BitVec 8 := 2
  boundary : BitVec 39 := 0
deriving DecidableEq, Repr

/-- Audit and debug: the trace FIFO (oldest first), the records that the command in progress has made, the digests, the
triad whose breakpoint is armed. -/
structure Audit where
  trace : List TraceRec := []
  made : List TraceRec := []
  digests : Tab Digest := []
  bptTriad : BitVec 5 := 0
  /-- an access that a write of DBG_ACC.GO has asked for and that is made when the command ends (R604) -/
  acc : Bool := false
  /-- with `acc`: the triad whose agreed entry is made when the command ends, in place of an access (R603, R601) -/
  release : Option Nat := none
  tap : Tap := {}
deriving DecidableEq, Repr

/-! ### Outputs -/

/-- What the card puts out: a frame, a message, a word, a pin level (R197). -/
inductive Output where
  /-- a frame sent on ETH0 or ETH1 -/
  | ethFrame (port : Nat) (bytes : List Byte)
  /-- what the card drives on the serial line while its driver is enabled: one level per bit time (R549, R552) -/
  | serLine (levels : List Bool)
  /-- an MSI-X message: vector, address and data of its table entry -/
  | msix (vector : Nat) (addr : Nat) (data : Word)
  /-- words of a response on SVC_TX -/
  | uart (words : List Word)
  /-- bytes written to host memory by the drain DMA -/
  | hostWrite (addr : Nat) (bytes : List Byte)
  /-- words on the audit port -/
  | audit (words : List Word)
  /-- the level of AUD_DO while AUD_CS_N is high (R594) -/
  | audDo (level : Bool)
  /-- a PTM request to the host -/
  | ptm
  /-- what the card drives on a low-speed pin from now on, none where it floats (R491); pins as Pads.lean numbers them -/
  | pad (pin : Nat) (level : Option Bool)
  /-- data shifted out at TDO -/
  | tdo (value : Nat)
deriving DecidableEq, Repr

/-! ### The whole card -/

/-- Everything the card holds, and the commands that wait, first in, first out. -/
structure State where
  pending : List Instr := []
  /-- registers of the fabric, by fabric address (R6); unlisted: the reset value of the register map -/
  csr : Tab Word := []
  /-- common store and MRAM bytes by fabric address; local store of triad t at 2^32 (t + 1) + address -/
  mem : List Host.Cell := []
  /-- poisoned words (R131), by the key of their lowest byte -/
  poison : Tab Bool := []
  /-- the model's own: how many open values have been drawn (log entry 2) -/
  fresh : Nat := 0
  /-- the model's own: events produced and not yet delivered by the event fabric -/
  evq : List Nat := []
  /-- the model's own: what the card has put out, newest first -/
  out : List Output := []
  /-- the model's own: the value the last read command returned -/
  rdata : Word := 0
  /-- the model's own: the words that the last burst, pop or stat of a master returned, each with its qp.tag (POISON alone
  for a word of memory, WORDS for a stat) -/
  rwords : List (Word × Word) := []
  /-- the model's own: how the last access of the host or of another master ended: 0 normally, 1 with configuration retry
  status, 2 in an error response -/
  rstat : Nat := 0
  /-- the level of nPFAIL (R618) -/
  nPfail : Bool := false
  /-- the model's own: what the card drives on each low-speed pin, by the numbers of Pads.lean, as it was last put out; unlisted: nPFAIL
  low, every other pin floating -/
  pads : Tab (Option Bool) := []
  /-- SLCK edges since power-on, the card's time base for its long windows -/
  slck : Nat := 0
  pic : Pic := {}
  qe : Qe := {}
  triads : Tab Triad := []
  /-- fault log (R233): entry c at index c mod 1,024, word 0 in the low 32 bits; and the entry SUP_FLOGD0 latched -/
  flog : Tab (BitVec 128) := []
  flogLatch : BitVec 128 := 0
  /-- CLV_RCNTLOj snapshots (R235), by triad: count in the low 64 bits, check above -/
  clvLatch : Tab (BitVec 128) := []
  lat : Lattice := {}
  weft : Weft := {}
  tly : TallyEng := {}
  led : Ledger := {}
  /-- the request that waits in the crypto engine of each cluster -/
  cry : Tab (Option CryJob) := []
  drw : Draw := {}
  /-- timer channels, by 8 x group + channel -/
  tmr : Tab Chan := []
  rtc : Rtc := {}
  evf : Evf := {}
  mon : Mon := {}
  /-- why each sleeping domain is to wake, LASTWAKE's code, 0 for no wake request (R484) -/
  wakeCause : Tab Nat := []
  mbx : Mailbox := {}
  hostFn : HostFn := {}
  net : Net := {}
  upd : Upd := {}
  /-- the key store, by slot; presence bits and versions are in TMP_KEYPRES and TMP_KEYVER -/
  keys : Tab KeySlot := []
  /-- tamper log: entry c at index c mod 16, word 0 in the low 32 bits; and the entry TMP_LOGD0 latched -/
  tlog : Tab (BitVec 128) := []
  tlogLatch : BitVec 128 := 0
  /-- tamper triggers that have acted in the present excursion (R582): 0 loop, 1 temperature, 2 VAON glitch -/
  tacted : Tab Bool := []
  /-- both AON sources are lost (R580); VBAT lies from 1.8 V to 3.45 V (R579) -/
  islandOff : Bool := false
  vbatIn : Bool := true
  aud : Audit := {}
deriving DecidableEq, Repr

/-- The machine right after reset: every field at its default. -/
def State.reset : State := {}

/-- Why a step stops with a fault: no command of this card does (log entry 6). -/
inductive Fault where
  /-- Raised by nothing: the spec gives every command an effect. Safe. -/
  | none
deriving DecidableEq, Repr

/-- Why a step is refused. -/
inductive Refusal where
  /-- Raised by exec for a command that has no meaning yet. Safe. -/
  | notModelled (mnemonic : String)
deriving DecidableEq, Repr

end Sys2Proof.Machine
end

