-- ==== Sys2Proof/Machine/Ops.lean ====
section
/-!
DEFINITION. The operations every block shares: registers and their fields by the access types of R7, memory bytes and
words with poison (R128, R131 to R134), open values, events, outputs.
-/

namespace Sys2Proof.Machine

/-- What a step answers. -/
abbrev Out := Host.Outcome State Fault Refusal

/-! ### Bit fields -/

/-- Bits hi down to lo of a word, as a number. -/
def bitsOf (w hi lo : Nat) : Nat := w / 2 ^ lo % 2 ^ (hi + 1 - lo)

/-- A word with bits hi down to lo replaced by `v` (modulo the field's size). -/
def bitsPut (w hi lo v : Nat) : Nat :=
  w % 2 ^ lo + v % 2 ^ (hi + 1 - lo) * 2 ^ lo + w / 2 ^ (hi + 1) * 2 ^ (hi + 1)

/-- One bit as a number. -/
def b2n (b : Bool) : Nat := if b then 1 else 0

/-! ### The register map -/

/-- Every register of the fabric. -/
def regRows : List RegRow :=
  regRows01 ++ regRows02 ++ regRows08 ++ regRows09 ++ regRows10 ++ regRows11 ++ regRows12 ++ regRows13 ++
  regRows14 ++ regRows15 ++ regRows16 ++ regRows17 ++ regRows18 ++ regRows19 ++ regRows20 ++ regRows21 ++
  regRows22 ++ regRows23 ++ regRows24

/-- Whether address `a` is an instance of the row's register. -/
def rowHas (r : RegRow) (a : Nat) : Bool :=
  r.base ≤ a &&
    (let d := a - r.base
     let i := d / r.s1
     let rem := d % r.s1
     i < r.n1 && rem / r.s2 < r.n2 && rem % r.s2 == 0)

/-- The register at a fabric address, if one occupies it. -/
def regRow? (a : Nat) : Option RegRow := regRows.find? (fun r => rowHas r a)

/-- The reset value that a list of fields spells. -/
def fldsRst : List Fld → Nat
  | [] => 0
  | f :: r => bitsPut (fldsRst r) f.hi f.lo f.rst

/-- Reset values that depend on the instance: the home cores of a triad (R15), the fixed queue
classes (R261), AUTO of the PCIE domain (R497). -/
def regRstSpecial (a : Nat) : Option Nat :=
  if 0x40080100 ≤ a && a < 0x40080180 then
    let t := (a - 0x40080100) / 4
    let k := 3 * (t % 4)
    some (k * 2 ^ 16 + (k + 1) * 2 ^ 20 + (k + 2) * 2 ^ 24)
  else if a = QE_CFIRST 64 then some 0xFF000
  else if a = QE_CLAST 64 then some 0xFFEFF
  else if a = QE_CQUOTA 64 then some 32768
  else if a = QE_COWN 64 then some 0x8000FFFF
  else if a = QE_CFIRST 65 then some 0xFFF00
  else if a = QE_CLAST 65 then some 0xFFFFF
  else if a = QE_CQUOTA 65 then some 262144
  else if a = QE_COWN 65 then some 0x8000FFFF
  else if a = CLK_SRC 12 then some 4
  else none

/-- The reset value of the register at `a`; zero where no register is. -/
def regRst (a : Nat) : Word :=
  match regRstSpecial a with
  | some v => BitVec.ofNat 32 v
  | none =>
    match regRow? a with
    | some r => BitVec.ofNat 32 (fldsRst r.flds)
    | none => 0

/-! ### Registers as the blocks hold them -/

/-- The value a register holds. -/
def reg (s : State) (a : Nat) : Word := tget regRst s.csr a

/-- The hardware sets a register. -/
def setReg (s : State) (a : Nat) (w : Word) : State := { s with csr := tset regRst s.csr a w }

/-- A field of a register. -/
def getF (s : State) (a : Nat) (f : Fld) : Nat := bitsOf (reg s a).toNat f.hi f.lo

/-- The hardware sets a field of a register. -/
def setF (s : State) (a : Nat) (f : Fld) (v : Nat) : State :=
  setReg s a (BitVec.ofNat 32 (bitsPut (reg s a).toNat f.hi f.lo v))

/-- Whether a field is not zero. -/
def flag (s : State) (a : Nat) (f : Fld) : Bool := getF s a f != 0

/-- The hardware sets a one-bit field. -/
def setFlag (s : State) (a : Nat) (f : Fld) (b : Bool) : State := setF s a f (b2n b)

/-- A counter that stays at its highest value. -/
def incSat (s : State) (a : Nat) (f : Fld) (n : Nat) : State :=
  setF s a f (min (getF s a f + n) (2 ^ (f.hi + 1 - f.lo) - 1))

/-- A counter that wraps. -/
def incWrap (s : State) (a : Nat) (f : Fld) (n : Nat) : State := setF s a f (getF s a f + n)

/-- The register's value as a read returns it: WO and reserved bits read zero (R7, R10). -/
def readMask : List Fld → Nat → Nat
  | [], _ => 0
  | f :: r, w =>
    if f.ty = .wo then readMask r w else bitsPut (readMask r w) f.hi f.lo (bitsOf w f.hi f.lo)

/-- The register after a read: RC fields are back at their reset value (R7). -/
def afterRead : List Fld → Nat → Nat
  | [], w => w
  | f :: r, w => if f.ty = .rc then bitsPut (afterRead r w) f.hi f.lo f.rst else afterRead r w

/-- One field after a software write, by its access type (R7). -/
def fldWrite (locked : Bool) (f : Fld) (old new : Nat) : Nat :=
  match f.ty with
  | .rw => new
  | .lk => if locked then old else new
  | .w1c => old - (old &&& new)
  | .w1s => old ||| new
  | .ro | .wo | .rc => old

/-- The register after a software write of `w` (R7, R10). -/
def afterWrite (locked : Bool) : List Fld → Nat → Nat → Nat
  | [], cur, _ => cur
  | f :: r, cur, w =>
    bitsPut (afterWrite locked r cur w) f.hi f.lo
      (fldWrite locked f (bitsOf cur f.hi f.lo) (bitsOf w f.hi f.lo))

/-- The weave lock (R52): set from the end of boot step 3 on. -/
def weaveLocked (s : State) : Bool := flag s WV_STATUS WV_STATUS_LOCK

/-- A plain read of the register at `a`: its value and the state after RC fields have cleared. -/
def plainRead (s : State) (a : Nat) : Word × State :=
  match regRow? a with
  | none => (0, s)
  | some r =>
    let w := (reg s a).toNat
    (BitVec.ofNat 32 (readMask r.flds w), setReg s a (BitVec.ofNat 32 (afterRead r.flds w)))

/-- A plain write of the register at `a` by its fields' types. -/
def plainWrite (s : State) (a : Nat) (v : Word) : State :=
  match regRow? a with
  | none => s
  | some r => setReg s a (BitVec.ofNat 32 (afterWrite (weaveLocked s) r.flds (reg s a).toNat v.toNat))

/-- Return every register in [lo, hi) to its reset value. -/
def resetRegs (s : State) (lo hi : Nat) : State := { s with csr := tclear lo hi s.csr }

/-! ### Memory -/

/-- Byte i of the key-table entry of vendor key e (R558). -/
def vendorByte (e i : Nat) : Byte :=
  if i = 0 then 0xA5 else if i = 16 then 4 else if 17 ≤ i && i < 113 then Config.vendorKey e (i - 17) else 0

/-- What a byte that nothing has written reads as: the vendor keys' entries of the key table as every card ships (R624), else 0
(log entry 5). -/
def memInit (a : Nat) : Byte :=
  if 0x33110000 ≤ a && a < 0x33110200 then vendorByte ((a - 0x33110000) / 128) (a % 128) else 0

/-- The canonical form of memory: addresses strictly rising, no entry equal to what an unlisted address reads as. -/
def Memory.wf (m : List Host.Cell) : Bool := twf memInit m

/-- The key of byte `a` of triad `t`'s local store (R23). -/
def lsKey (t a : Nat) : Nat := 2 ^ 32 * (t + 1) + a % 0x20000

def getByte (s : State) (k : Nat) : Byte := tget memInit s.mem k

def putByte (s : State) (k : Nat) (b : Byte) : State := { s with mem := tset memInit s.mem k b }

/-- The `n` bytes from key `k` on. -/
def getBytes (s : State) (k : Nat) : Nat → List Byte
  | 0 => []
  | n + 1 => getByte s k :: getBytes s (k + 1) n

/-- Store bytes from key `k` on. -/
def putBytes (s : State) (k : Nat) : List Byte → State
  | [] => s
  | b :: r => putBytes (putByte s k b) (k + 1) r

/-- Little-endian value of a list of bytes. -/
def leNat : List Byte → Nat
  | [] => 0
  | b :: r => b.toNat + 256 * leNat r

/-- Big-endian value of a list of bytes. -/
def beNat (l : List Byte) : Nat := l.foldl (fun n b => 256 * n + b.toNat) 0

/-- The `n` low bytes of a number, little-endian. -/
def leBytes : Nat → Nat → List Byte
  | 0, _ => []
  | n + 1, v => BitVec.ofNat 8 v :: leBytes n (v / 256)

/-- The `n` low bytes of a number, big-endian. -/
def beBytes (n v : Nat) : List Byte := (leBytes n v).reverse

/-- The word at key `k`, little-endian (R128). -/
def getWord (s : State) (k : Nat) : Word := BitVec.ofNat 32 (leNat (getBytes s k 4))

def putWord (s : State) (k : Nat) (w : Word) : State := putBytes s k (leBytes 4 w.toNat)

/-- The words that a byte list spells, little-endian; the last one filled with zeros. -/
def toWords : Nat → List Byte → List Word
  | 0, _ => []
  | _ + 1, [] => []
  | n + 1, l => BitVec.ofNat 32 (leNat (l.take 4)) :: toWords n (l.drop 4)

/-- The bytes of a list of words, little-endian. -/
def ofWords : List Word → List Byte
  | [] => []
  | w :: r => leBytes 4 w.toNat ++ ofWords r

/-- Whether the word that holds key `k` is poisoned (R131). -/
def poisoned (s : State) (k : Nat) : Bool := tget (fun _ => false) s.poison (k / 4 * 4)

def setPoison (s : State) (k : Nat) (b : Bool) : State :=
  { s with poison := tset (fun _ => false) s.poison (k / 4 * 4) b }

/-- Remove every byte and poison mark with a key in [lo, hi). -/
def wipe (s : State) (lo hi : Nat) : State :=
  { s with mem := tclear lo hi s.mem, poison := tclear lo hi s.poison }

/-- Copy `n` bytes from key `src` to key `dst`; the words written are no longer poisoned. -/
def copyMem (s : State) (src dst n : Nat) : State :=
  { s with mem := tcopy memInit src dst n s.mem, poison := tclear dst (dst + n) s.poison }

/-! ### Open values, events, outputs -/

/-- One fresh value that the spec leaves open, and the state that has drawn it (log entry 2). -/
def drawFree (s : State) : Word × State := (Config.freeWord s.fresh, { s with fresh := s.fresh + 1 })

/-- An event of producer `n` of the event fabric (R460); it is delivered before the command ends. -/
def produce (s : State) (n : Nat) : State := { s with evq := s.evq ++ [n] }

/-- The card puts something out. -/
def emit (s : State) (o : Output) : State := { s with out := o :: s.out }

/-! ### Triads and banks -/

def getT (s : State) (t : Nat) : Triad := tget (fun _ => {}) s.triads t

def setT (s : State) (t : Nat) (x : Triad) : State := { s with triads := tset (fun _ => {}) s.triads t x }

/-- MODE of SUP_TRIADt: 0 not started, 1 triad, 2 duplex, 3 stopped. -/
def triadMode (s : State) (t : Nat) : Nat := getF s (SUP_TRIAD t) SUP_TRIAD_MODE

/-- Whether triad t is started and not stopped. -/
def triadLive (s : State) (t : Nat) : Bool :=
  let m := triadMode s t
  m == 1 || m == 2

/-- A triad is idle when every live core of it waits in ctl.wait (R428). -/
def triadIdle (s : State) (t : Nat) : Bool := triadLive s t && (getT s t).waiting

/-! ### Trace records (R599 to R601) -/

/-- Whether triad t is the one traced. -/
def traced (s : State) (t : Nat) : Bool :=
  flag s AUD_TRCSEL AUD_TRCSEL_EN && getF s AUD_TRCSEL AUD_TRCSEL_TRIAD == t

/-- Note an input of triad t that the move in progress has taken; the move's retirement puts it into the FIFO. -/
def traceNote (s : State) (t kind status sub : Nat) (value : Word) : State :=
  if traced s t then
    let r : TraceRec := { count := (getT s t).rcount + 1, kind := BitVec.ofNat 8 kind, status := BitVec.ofNat 8 status,
                          sub := BitVec.ofNat 8 sub, value := value }
    { s with aud := { s.aud with made := s.aud.made ++ [r] } }
  else s

/-- A move of triad t that went from state `old` to `new`: held while its records find no room in the FIFO, else its
records enter the FIFO (R601). -/
def traceCommit (old new : State) : State :=
  if new.aud.made.isEmpty then new
  else if 4096 < new.aud.trace.length + new.aud.made.length then setFlag old AUD_TRCST AUD_TRCST_HOLD true
  else
    let tr := new.aud.trace ++ new.aud.made
    setF { new with aud := { new.aud with trace := tr, made := [] } } AUD_TRCST AUD_TRCST_RECS tr.length

/-! ### Power states that other blocks ask for -/

/-- STATE of a domain: 0 ON, 1 RET, 2 OFF, 3 in transition. -/
def domState (s : State) (d : Nat) : Nat := getF s (PD_STATUS d) PD_STATUS_STATE

def domOn (s : State) (d : Nat) : Bool := domState s d == 0

/-- The domain's clocks run: it is ON and its CLK_EN bit is 1 (R494, R500). -/
def clocked (s : State) (d : Nat) : Bool := domOn s d && (reg s CLK_EN).getLsbD d

/-- A wake request for domain d (R484): WAKE is set, and its cause is kept for LASTWAKE. -/
def wakeRequest (s : State) (d cause : Nat) : State :=
  if domOn s d then s
  else
    let s := setFlag s (PD_VOTEB d) PD_VOTEB_WAKE true
    if tget (fun _ => 0) s.wakeCause d = 0 then
      { s with wakeCause := tset (fun _ => 0) s.wakeCause d cause } else s

end Sys2Proof.Machine
end

