-- ==== Sys2Proof/Machine/Crypto.lean ====
section
/-!
DEFINITION. The cryptographic functions that the spec names: SHA-256 and SHA-384 (FIPS 180-4), HMAC (FIPS 198-1),
AES-256 (FIPS 197) with CMAC (SP 800-38B), the key derivation of R382 (SP 800-108), the CTR_DRBG of R391
(SP 800-90A), ECDSA on P-384 (FIPS 186-4) with the nonces of RFC 6979 (R368), and CRC-32 (R521).
-/

namespace Sys2Proof.Machine

/-! ### SHA-256 and SHA-384 -/

/-- Split a list into pieces of n, at most `fuel` of them. -/
def pieces {α : Type} (n : Nat) : Nat → List α → List (List α)
  | 0, _ => []
  | _ + 1, [] => []
  | f + 1, l => l.take n :: pieces n f (l.drop n)

/-- What tells one hash of FIPS 180-4 from another, for words of n bits: rounds, start value and round constants, each as one
number with the first word highest; rotations of the large mixers; two rotations and a shift of the small ones. -/
structure Sha2 where
  bits : Nat
  rounds : Nat
  start : Nat
  consts : Nat
  large0 : Nat × Nat × Nat
  large1 : Nat × Nat × Nat
  small0 : Nat × Nat × Nat
  small1 : Nat × Nat × Nat

/-- One number from numerals of 384 bits, the first highest. -/
def joined (l : List Nat) : Nat := l.foldl (fun v x => v * 2 ^ 384 + x) 0

/-- The round constants of SHA-256: 32 bits of the fraction of the cube root of each of the first 64 primes. -/
def sha256Consts : Nat :=
  joined
   [0x428a2f9871374491b5c0fbcfe9b5dba53956c25b59f111f1923f82a4ab1c5ed5d807aa9812835b01243185be550c7dc3,
    0x72be5d7480deb1fe9bdc06a7c19bf174e49b69c1efbe47860fc19dc6240ca1cc2de92c6f4a7484aa5cb0a9dc76f988da,
    0x983e5152a831c66db00327c8bf597fc7c6e00bf3d5a7914706ca63511429296727b70a852e1b21384d2c6dfc53380d13,
    0x650a7354766a0abb81c2c92e92722c85a2bfe8a1a81a664bc24b8b70c76c51a3d192e819d6990624f40e3585106aa070,
    0x19a4c1161e376c082748774c34b0bcb5391c0cb34ed8aa4a5b9cca4f682e6ff3748f82ee78a5636f84c878148cc70208,
    0x90befffaa4506cebbef9a3f7c67178f20000000000000000000000000000000000000000000000000000000000000000] / 2 ^ 256

/-- Those of SHA-384: 64 bits of the fraction of the cube root of each of the first 80 primes. -/
def sha384Consts : Nat :=
  joined
   ([0x428a2f98d728ae227137449123ef65cdb5c0fbcfec4d3b2fe9b5dba58189dbbc3956c25bf348b53859f111f1b605d019,
    0x923f82a4af194f9bab1c5ed5da6d8118d807aa98a303024212835b0145706fbe243185be4ee4b28c550c7dc3d5ffb4e2,
    0x72be5d74f27b896f80deb1fe3b1696b19bdc06a725c71235c19bf174cf692694e49b69c19ef14ad2efbe4786384f25e3,
    0x0fc19dc68b8cd5b5240ca1cc77ac9c652de92c6f592b02754a7484aa6ea6e4835cb0a9dcbd41fbd476f988da831153b5,
    0x983e5152ee66dfaba831c66d2db43210b00327c898fb213fbf597fc7beef0ee4c6e00bf33da88fc2d5a79147930aa725,
    0x06ca6351e003826f142929670a0e6e7027b70a8546d22ffc2e1b21385c26c9264d2c6dfc5ac42aed53380d139d95b3df,
    0x650a73548baf63de766a0abb3c77b2a881c2c92e47edaee692722c851482353ba2bfe8a14cf10364a81a664bbc423001] ++
    [0xc24b8b70d0f89791c76c51a30654be30d192e819d6ef5218d69906245565a910f40e35855771202a106aa07032bbd1b8,
    0x19a4c116b8d2d0c81e376c085141ab532748774cdf8eeb9934b0bcb5e19b48a8391c0cb3c5c95a634ed8aa4ae3418acb,
    0x5b9cca4f7763e373682e6ff3d6b2b8a3748f82ee5defb2fc78a5636f43172f6084c87814a1f0ab728cc702081a6439ec,
    0x90befffa23631e28a4506cebde82bde9bef9a3f7b2c67915c67178f2e372532bca273eceea26619cd186b8c721c0c207,
    0xeada7dd6cde0eb1ef57d4f7fee6ed17806f067aa72176fba0a637dc5a2c898a6113f9804bef90dae1b710b35131c471b,
    0x28db77f523047d8432caab7b40c724933c9ebe0a15c9bebc431d67c49c100d4c4cc5d4becb3e42b6597f299cfc657e2a,
    0x5fcb6fab3ad6faec6c44198c4a4758170000000000000000000000000000000000000000000000000000000000000000]) / 2 ^ 256

/-- SHA-256. -/
def sha2Small : Sha2 where
  bits := 32
  rounds := 64
  start := 0x6a09e667bb67ae853c6ef372a54ff53a510e527f9b05688c1f83d9ab5be0cd19
  consts := sha256Consts
  large0 := (2, 13, 22)
  large1 := (6, 11, 25)
  small0 := (7, 18, 3)
  small1 := (17, 19, 10)

/-- SHA-384, before its result is cut to 48 bytes. -/
def sha2Large : Sha2 where
  bits := 64
  rounds := 80
  start := 0xcbbb9d5dc1059ed8629a292a367cd5079159015a3070dd17152fecd8f70e593967332667ffc00b318eb44a8768581511db0c2e0d64f98fa747b5481dbefa4fa4
  consts := sha384Consts
  large0 := (28, 34, 39)
  large1 := (14, 18, 41)
  small0 := (1, 8, 7)
  small1 := (19, 61, 6)

/-- A large mixer: three rotations. -/
def mixLarge {n : Nat} (r : Nat × Nat × Nat) (x : BitVec n) : BitVec n :=
  [r.1, r.2.1, r.2.2].foldl (fun v k => v ^^^ x.rotateRight k) 0

/-- A small mixer: two rotations and a shift. -/
def mixSmall {n : Nat} (r : Nat × Nat × Nat) (x : BitVec n) : BitVec n :=
  [r.1, r.2.1].foldl (fun v k => v ^^^ x.rotateRight k) (x >>> r.2.2)

/-- The working words of a hash: a to d, which are the last four values of a, the newest first; e to h likewise. -/
structure ShaWork (n : Nat) where
  lead : List (BitVec n)
  tail : List (BitVec n)

/-- One round with a word of the schedule to which its constant has been added. -/
def shaRound (p : Sha2) {n : Nat} (st : ShaWork n) (kw : BitVec n) : ShaWork n :=
  let word (l : List (BitVec n)) (i : Nat) : BitVec n := l.getD i 0
  let pick := word st.tail 2 ^^^ (word st.tail 0 &&& (word st.tail 1 ^^^ word st.tail 2))
  let most := (word st.lead 0 &&& word st.lead 1) ||| (word st.lead 2 &&& (word st.lead 0 ||| word st.lead 1))
  let sum := kw + word st.tail 3 + pick + mixLarge p.large1 (word st.tail 0)
  { lead := (sum + most + mixLarge p.large0 (word st.lead 0)) :: st.lead.take 3
    tail := (word st.lead 3 + sum) :: st.tail.take 3 }

/-- The last k rounds: `w` is the window of sixteen schedule words from the next round's on. -/
def shaRounds (p : Sha2) {n : Nat} : Nat → List (BitVec n) → ShaWork n → ShaWork n
  | 0, _, st => st
  | k + 1, w, st =>
    let fresh := mixSmall p.small1 (w.getD 14 0) + w.getD 9 0 + mixSmall p.small0 (w.getD 1 0) + w.getD 0 0
    shaRounds p k (w.drop 1 ++ [fresh]) (shaRound p st (w.getD 0 0 + BitVec.ofNat n (p.consts / 2 ^ (n * k))))

/-- The chaining words after one block. -/
def shaBlock (p : Sha2) {n : Nat} (h : List (BitVec n)) (blk : List Byte) : List (BitVec n) :=
  let w := (pieces (n / 8) 16 blk).map (fun l => BitVec.ofNat n (beNat l))
  let st := shaRounds p p.rounds w { lead := h.take 4, tail := h.drop 4 }
  List.zipWith (· + ·) h (st.lead ++ st.tail)

/-- The bytes that follow a message of m bytes: a one bit, zeros, and its length in bits in the last n / 4 bytes of a block. -/
def shaPad (n m : Nat) : List Byte :=
  let fill := 2 * n - 1 - n / 4
  0x80 :: List.replicate ((fill + 2 * n - m % (2 * n)) % (2 * n)) 0 ++ beBytes (n / 4) (8 * m)

/-- The hash of a byte string, before any cut. -/
def sha2 (p : Sha2) (m : List Byte) : List Byte :=
  let n := p.bits
  let blocks := pieces (2 * n) (m.length / n + 2) (m ++ shaPad n m.length)
  let h : List (BitVec n) := (List.range 8).map (fun i => BitVec.ofNat n (p.start / 2 ^ (n * (7 - i))))
  (blocks.foldl (shaBlock p) h).flatMap (fun w => beBytes (n / 8) w.toNat)

/-- SHA-256 of a byte string: 32 bytes. -/
def sha256 (m : List Byte) : List Byte := sha2 sha2Small m

/-- SHA-384 of a byte string: 48 bytes. -/
def sha384 (m : List Byte) : List Byte := (sha2 sha2Large m).take 48

/-- HMAC with SHA-384, for keys of at most 128 bytes. -/
def hmac384 (key m : List Byte) : List Byte :=
  let k := key ++ List.replicate (128 - key.length) 0
  sha384 (k.map (· ^^^ 0x5C) ++ sha384 (k.map (· ^^^ 0x36) ++ m))

/-! ### AES-256 -/

/-- The S-box of AES (FIPS 197). -/
def aesSbox : List Nat :=
  [0x63, 0x7c, 0x77, 0x7b, 0xf2, 0x6b, 0x6f, 0xc5, 0x30, 0x01, 0x67, 0x2b, 0xfe, 0xd7, 0xab, 0x76,
   0xca, 0x82, 0xc9, 0x7d, 0xfa, 0x59, 0x47, 0xf0, 0xad, 0xd4, 0xa2, 0xaf, 0x9c, 0xa4, 0x72, 0xc0,
   0xb7, 0xfd, 0x93, 0x26, 0x36, 0x3f, 0xf7, 0xcc, 0x34, 0xa5, 0xe5, 0xf1, 0x71, 0xd8, 0x31, 0x15,
   0x04, 0xc7, 0x23, 0xc3, 0x18, 0x96, 0x05, 0x9a, 0x07, 0x12, 0x80, 0xe2, 0xeb, 0x27, 0xb2, 0x75] ++
  [0x09, 0x83, 0x2c, 0x1a, 0x1b, 0x6e, 0x5a, 0xa0, 0x52, 0x3b, 0xd6, 0xb3, 0x29, 0xe3, 0x2f, 0x84,
   0x53, 0xd1, 0x00, 0xed, 0x20, 0xfc, 0xb1, 0x5b, 0x6a, 0xcb, 0xbe, 0x39, 0x4a, 0x4c, 0x58, 0xcf,
   0xd0, 0xef, 0xaa, 0xfb, 0x43, 0x4d, 0x33, 0x85, 0x45, 0xf9, 0x02, 0x7f, 0x50, 0x3c, 0x9f, 0xa8,
   0x51, 0xa3, 0x40, 0x8f, 0x92, 0x9d, 0x38, 0xf5, 0xbc, 0xb6, 0xda, 0x21, 0x10, 0xff, 0xf3, 0xd2] ++
  [0xcd, 0x0c, 0x13, 0xec, 0x5f, 0x97, 0x44, 0x17, 0xc4, 0xa7, 0x7e, 0x3d, 0x64, 0x5d, 0x19, 0x73,
   0x60, 0x81, 0x4f, 0xdc, 0x22, 0x2a, 0x90, 0x88, 0x46, 0xee, 0xb8, 0x14, 0xde, 0x5e, 0x0b, 0xdb,
   0xe0, 0x32, 0x3a, 0x0a, 0x49, 0x06, 0x24, 0x5c, 0xc2, 0xd3, 0xac, 0x62, 0x91, 0x95, 0xe4, 0x79,
   0xe7, 0xc8, 0x37, 0x6d, 0x8d, 0xd5, 0x4e, 0xa9, 0x6c, 0x56, 0xf4, 0xea, 0x65, 0x7a, 0xae, 0x08] ++
  [0xba, 0x78, 0x25, 0x2e, 0x1c, 0xa6, 0xb4, 0xc6, 0xe8, 0xdd, 0x74, 0x1f, 0x4b, 0xbd, 0x8b, 0x8a,
   0x70, 0x3e, 0xb5, 0x66, 0x48, 0x03, 0xf6, 0x0e, 0x61, 0x35, 0x57, 0xb9, 0x86, 0xc1, 0x1d, 0x9e,
   0xe1, 0xf8, 0x98, 0x11, 0x69, 0xd9, 0x8e, 0x94, 0x9b, 0x1e, 0x87, 0xe9, 0xce, 0x55, 0x28, 0xdf,
   0x8c, 0xa1, 0x89, 0x0d, 0xbf, 0xe6, 0x42, 0x68, 0x41, 0x99, 0x2d, 0x0f, 0xb0, 0x54, 0xbb, 0x16]

def aesSub (b : Byte) : Byte := BitVec.ofNat 8 (aesSbox.getD b.toNat 0)

/-- Multiplication by x in the field of AES. -/
def aesX (b : Byte) : Byte := if b.getLsbD 7 then (b <<< 1) ^^^ 0x1B else b <<< 1

def xorBytes (a b : List Byte) : List Byte := (a.zip b).map (fun p => p.1 ^^^ p.2)

/-- Expand the key schedule: `w` holds the words so far, newest first; `i` is the number of the next word. -/
def aesExpand : Nat → Nat → Byte → List (List Byte) → List (List Byte)
  | 0, _, _, w => w
  | n + 1, i, rc, w =>
    let t := w.getD 0 []
    let old := w.getD 7 []
    if i % 8 = 0 then
      let r := ((t.drop 1 ++ t.take 1).map aesSub)
      let r := xorBytes r [rc, 0, 0, 0]
      aesExpand n (i + 1) (aesX rc) (xorBytes old r :: w)
    else if i % 8 = 4 then aesExpand n (i + 1) rc (xorBytes old (t.map aesSub) :: w)
    else aesExpand n (i + 1) rc (xorBytes old t :: w)

/-- The fifteen round keys of a 32-byte key. -/
def aesKeys (key : List Byte) : List (List Byte) :=
  let w := (aesExpand 52 8 1 (pieces 4 8 key).reverse).reverse
  (pieces 4 15 w).map (fun l => l.flatten)

/-- ShiftRows on sixteen bytes in column order. -/
def aesShift (s : List Byte) : List Byte := (List.range 16).map (fun i => s.getD ((i + 4 * (i % 4)) % 16) 0)

/-- MixColumns on one column. -/
def aesMixCol (c : List Byte) : List Byte :=
  match c with
  | [a, b, d, e] =>
    let t := a ^^^ b ^^^ d ^^^ e
    [a ^^^ t ^^^ aesX (a ^^^ b), b ^^^ t ^^^ aesX (b ^^^ d), d ^^^ t ^^^ aesX (d ^^^ e), e ^^^ t ^^^ aesX (e ^^^ a)]
  | _ => c

/-- The rounds after the first AddRoundKey. -/
def aesRounds : List (List Byte) → List Byte → List Byte
  | [], s => s
  | [k], s => xorBytes (aesShift (s.map aesSub)) k
  | k :: r, s => aesRounds r (xorBytes ((pieces 4 4 (aesShift (s.map aesSub))).flatMap aesMixCol) k)

/-- AES-256 encryption of one block under expanded keys. -/
def aesBlock (keys : List (List Byte)) (b : List Byte) : List Byte :=
  match keys with
  | [] => b
  | k :: r => aesRounds r (xorBytes b k)

/-- AES-256 encryption of one block. -/
def aes256 (key b : List Byte) : List Byte := aesBlock (aesKeys key) b

/-! ### CMAC and the key derivation of R382 -/

/-- Doubling in the field of CMAC. -/
def cmacDouble (b : List Byte) : List Byte :=
  let n := beNat b
  beBytes 16 ((if 2 ^ 127 ≤ n then Nat.xor (2 * n) 0x87 else 2 * n) % 2 ^ 128)

/-- CBC-MAC chaining of whole blocks. -/
def cbcMac (keys : List (List Byte)) : List (List Byte) → List Byte → List Byte
  | [], x => x
  | b :: r, x => cbcMac keys r (aesBlock keys (xorBytes x b))

/-- AES-256 CMAC (SP 800-38B): 16 bytes. -/
def cmac (key m : List Byte) : List Byte :=
  let keys := aesKeys key
  let k1 := cmacDouble (aesBlock keys (List.replicate 16 0))
  let full := m.length != 0 && m.length % 16 == 0
  let n := if full then m.length / 16 - 1 else m.length / 16
  let body := m.take (16 * n)
  let tail := m.drop (16 * n)
  let last := if full then xorBytes tail k1
    else xorBytes (tail ++ 0x80 :: List.replicate (15 - tail.length) 0) (cmacDouble k1)
  cbcMac keys (pieces 16 n body ++ [last]) (List.replicate 16 0)

/-- Two PRF calls of the SP 800-108 counter mode over the fixed input of R382: 32 bytes. -/
def terminalKey (master label : List Byte) (session : Nat) : List Byte :=
  let f := label ++ [0] ++ beBytes 4 session ++ [0, 0, 1, 0]
  cmac master ([0, 0, 0, 1] ++ f) ++ cmac master ([0, 0, 0, 2] ++ f)

/-! ### CTR_DRBG with AES-256 and the derivation function (R391) -/

/-- BCC of the derivation function for counter i. -/
def dfBlock (keys : List (List Byte)) (m : List Byte) (i : Nat) : List Byte :=
  let d := beBytes 4 i ++ List.replicate 12 0 ++ m
  cbcMac keys (pieces 16 (d.length / 16) d) (List.replicate 16 0)

/-- Block_Cipher_df for 48 bytes of output. -/
def blockCipherDf (input : List Byte) : List Byte :=
  let s := beBytes 4 input.length ++ beBytes 4 48 ++ input ++ [0x80]
  let s := s ++ List.replicate ((16 - s.length % 16) % 16) 0
  let keys := aesKeys ((List.range 32).map (BitVec.ofNat 8))
  let t := dfBlock keys s 0 ++ dfBlock keys s 1 ++ dfBlock keys s 2
  let k := aesKeys (t.take 32)
  let x1 := aesBlock k (t.drop 32)
  let x2 := aesBlock k x1
  x1 ++ x2 ++ aesBlock k x2

/-- n blocks of key stream after V, and the last V. -/
def ctrBlocks (keys : List (List Byte)) : Nat → Nat → List Byte × Nat
  | 0, v => ([], v)
  | n + 1, v =>
    let v := (v + 1) % 2 ^ 128
    let p := ctrBlocks keys n v
    (aesBlock keys (beBytes 16 v) ++ p.1, p.2)

/-- CTR_DRBG_Update: the new Key (32 bytes) and V. -/
def drbgUpdate (key : List Byte) (v : Nat) (data : List Byte) : List Byte × Nat :=
  let t := xorBytes (ctrBlocks (aesKeys key) 3 v).1 data
  (t.take 32, beNat (t.drop 32))

/-- Instantiation from the entropy input, nonce and personalization string. -/
def drbgInstantiate (entropy nonce pers : List Byte) : List Byte × Nat :=
  drbgUpdate (List.replicate 32 0) 0 (blockCipherDf (entropy ++ nonce ++ pers))

/-- Reseed with an empty additional input. -/
def drbgReseed (key : List Byte) (v : Nat) (entropy : List Byte) : List Byte × Nat :=
  drbgUpdate key v (blockCipherDf entropy)

/-- One generate call of 64 bytes with an additional input: output, Key, V. -/
def drbgGenerate (key : List Byte) (v : Nat) (additional : List Byte) : List Byte × List Byte × Nat :=
  let a := blockCipherDf additional
  let (key, v) := drbgUpdate key v a
  let (out, v) := ctrBlocks (aesKeys key) 4 v
  let (key, v) := drbgUpdate key v a
  (out, key, v)

/-! ### ECDSA on P-384 -/

def p384P : Nat := 2 ^ 384 - 2 ^ 128 - 2 ^ 96 + 2 ^ 32 - 1
def p384N : Nat := 0xffffffffffffffffffffffffffffffffffffffffffffffffc7634d81f4372ddf581a0db248b0a77aecec196accc52973
def p384B : Nat := 0xb3312fa7e23ee7e4988e056be3f82d19181d9c6efe8141120314088f5013875ac656398d8a2ed19d2a85c8edd3ec2aef
def p384Gx : Nat := 0xaa87ca22be8b05378eb1c71ef320ad746e1d3b628ba79b9859f741e082542a385502f25dbf55296c3a545e3872760ab7
def p384Gy : Nat := 0x3617de4a96262c6f5d9e98bf9292dc29f8f41dbd289a147ce9da3113b5f0b8c00a60b1ce1d7e819d7a431d7c90ea0e5f

/-- b to the power e modulo m, for e below 2 ^ fuel. -/
def powMod (m : Nat) : Nat → Nat → Nat → Nat
  | 0, _, _ => 1 % m
  | f + 1, b, e =>
    let r := powMod m f (b * b % m) (e / 2)
    if e % 2 = 1 then r * b % m else r

/-- Inverse modulo a prime. -/
def invMod (m a : Nat) : Nat := powMod m 384 (a % m) (m - 2)

/-- A point in Jacobian coordinates (x, y, z); z = 0 is the point at infinity. -/
structure EcPoint where
  x : Nat
  y : Nat
  z : Nat
deriving DecidableEq, Repr

/-- Subtraction modulo p. -/
def subP (a b : Nat) : Nat := (a + p384P - b % p384P) % p384P

/-- Point doubling for a = -3. -/
def ecDouble (q : EcPoint) : EcPoint :=
  if q.z = 0 || q.y = 0 then ⟨1, 1, 0⟩
  else
    let p := p384P
    let d := q.z * q.z % p
    let g := q.y * q.y % p
    let b := q.x * g % p
    let a := 3 * (subP q.x d * (q.x + d) % p) % p
    let x3 := subP (a * a % p) (8 * b)
    let z3 := subP (subP ((q.y + q.z) * (q.y + q.z) % p) g) d
    let y3 := subP (a * subP (4 * b) x3 % p) (8 * (g * g % p))
    ⟨x3, y3, z3⟩

/-- Point addition. -/
def ecAdd (q r : EcPoint) : EcPoint :=
  if q.z = 0 then r
  else if r.z = 0 then q
  else
    let p := p384P
    let z1 := q.z * q.z % p
    let z2 := r.z * r.z % p
    let u1 := q.x * z2 % p
    let u2 := r.x * z1 % p
    let s1 := q.y * (r.z * z2 % p) % p
    let s2 := r.y * (q.z * z1 % p) % p
    let h := subP u2 u1
    let e := subP s2 s1
    if h = 0 then (if e = 0 then ecDouble q else ⟨1, 1, 0⟩)
    else
      let hh := h * h % p
      let hhh := h * hh % p
      let v := u1 * hh % p
      let x3 := subP (subP (e * e % p) hhh) (2 * v)
      ⟨x3, subP (e * subP v x3 % p) (s1 * hhh), q.z * r.z % p * h % p⟩

/-- k times a point, for k below 2 ^ fuel. -/
def ecMul : Nat → Nat → EcPoint → EcPoint
  | 0, _, _ => ⟨1, 1, 0⟩
  | f + 1, k, q =>
    let r := ecDouble (ecMul f (k / 2) q)
    if k % 2 = 1 then ecAdd r q else r

/-- Affine coordinates of a point that is not at infinity. -/
def ecAffine (q : EcPoint) : Nat × Nat :=
  let i := invMod p384P q.z
  let i2 := i * i % p384P
  (q.x * i2 % p384P, q.y * (i2 * i % p384P) % p384P)

def p384G : EcPoint := ⟨p384Gx, p384Gy, 1⟩

/-- Whether (x, y) lies on the curve. -/
def onCurve (x y : Nat) : Bool :=
  x < p384P && y < p384P && y * y % p384P == (x * x % p384P * x + p384B + 3 * (p384P - x)) % p384P

/-- ECDSA verification of a 48-byte digest. -/
def ecdsaVerify (qx qy : Nat) (digest : List Byte) (r s : Nat) : Bool :=
  if r = 0 || p384N ≤ r || s = 0 || p384N ≤ s then false
  else
    let w := invMod p384N s
    let z := beNat digest
    let u1 := z * w % p384N
    let u2 := r * w % p384N
    let x := ecAdd (ecMul 384 u1 p384G) (ecMul 384 u2 ⟨qx, qy, 1⟩)
    x.z != 0 && (ecAffine x).1 % p384N == r

/-- The candidates of RFC 6979 section 3.2 steps d to h, until one lies in range; at most `fuel` of them. -/
def rfc6979Loop : Nat → List Byte → List Byte → Nat
  | 0, _, _ => 1
  | f + 1, k, v =>
    let v := hmac384 k v
    let c := beNat v
    if c != 0 && c < p384N then c
    else
      let k := hmac384 k (v ++ [0])
      rfc6979Loop f k (hmac384 k v)

/-- The deterministic nonce for private key d and a 48-byte digest. -/
def rfc6979Nonce (d : Nat) (digest : List Byte) : Nat :=
  let h := beBytes 48 (beNat digest % p384N)
  let v := List.replicate 48 1
  let k := List.replicate 48 0
  let k := hmac384 k (v ++ [0] ++ beBytes 48 d ++ h)
  let v := hmac384 k v
  let k := hmac384 k (v ++ [1] ++ beBytes 48 d ++ h)
  rfc6979Loop 8 k (hmac384 k v)

/-- ECDSA signature (r, s) of a message, s as computed (R368). -/
def ecdsaSign (d : Nat) (m : List Byte) : Nat × Nat :=
  let h := sha384 m
  let k := rfc6979Nonce d h
  let r := (ecAffine (ecMul 384 k p384G)).1 % p384N
  (r, invMod p384N k * (beNat h + r * d) % p384N)

/-- The public key of a private scalar as 0x04 ++ x ++ y. -/
def p384Public (d : Nat) : List Byte :=
  let p := ecAffine (ecMul 384 d p384G)
  0x04 :: (beBytes 48 p.1 ++ beBytes 48 p.2)

/-! ### CRC-32 (R521) -/

/-- Eight steps of the reflected CRC-32. -/
def crc32Bits : Nat → BitVec 32 → BitVec 32
  | 0, c => c
  | n + 1, c => crc32Bits n (if c.getLsbD 0 then (c >>> 1) ^^^ 0xEDB88320 else c >>> 1)

/-- CRC-32 of a byte string: polynomial 0x04C11DB7 reflected, start and final XOR all ones. -/
def crc32 (m : List Byte) : Word :=
  (m.foldl (fun c b => crc32Bits 8 (c ^^^ b.zeroExtend 32)) (0xFFFFFFFF : BitVec 32)) ^^^ 0xFFFFFFFF

/-! ### Digests as words -/

/-- The words of a byte string, byte 4i in the low bits (R359, R383). -/
def packLE (l : List Byte) : List Word := (pieces 4 (l.length / 4) l).map (fun b => BitVec.ofNat 32 (leNat b))

/-- The words of a byte string, byte 4i in the high bits. -/
def packBE (l : List Byte) : List Word := (pieces 4 (l.length / 4) l).map (fun b => BitVec.ofNat 32 (beNat b))

end Sys2Proof.Machine
end

