-- ==== Sys2Proof/Machine/Pic.lean ====
section
/-!
DEFINITION. The interrupt controller (spec chapter 15): pending, enabled, active and released sources, moderation,
the choice of the source to present, reservation, claim and end of interrupt.
-/

namespace Sys2Proof.Machine

/-! ### Bits of the shared words -/

def bit512 (b : BitVec 512) (n : Nat) : Bool := b.getLsbD n

def setBit512 (b : BitVec 512) (n : Nat) (v : Bool) : BitVec 512 :=
  if v then b ||| BitVec.ofNat 512 (2 ^ n) else b &&& ~~~ BitVec.ofNat 512 (2 ^ n)

def bit32 (b : Word) (n : Nat) : Bool := b.getLsbD n

def setBit32 (b : Word) (n : Nat) (v : Bool) : Word :=
  if v then b ||| BitVec.ofNat 32 (2 ^ n) else b &&& ~~~ BitVec.ofNat 32 (2 ^ n)

/-- 32-bit word i of a shared bitmap. -/
def word512 (b : BitVec 512) (i : Nat) : Word := BitVec.ofNat 32 (b.toNat / 2 ^ (32 * i))

/-- A shared bitmap with its 32-bit word i replaced. -/
def putWord512 (b : BitVec 512) (i : Nat) (w : Word) : BitVec 512 :=
  BitVec.ofNat 512 (bitsPut b.toNat (32 * i + 31) (32 * i) w.toNat)

/-! ### Accessors -/

def getBank (s : State) (t : Nat) : PicBank := tget (fun _ => {}) s.pic.banks t

def setBank (s : State) (t : Nat) (b : PicBank) : State :=
  { s with pic := { s.pic with banks := tset (fun _ => {}) s.pic.banks t b } }

def getGroup (s : State) (m : Nat) : ModGroup := tget (fun _ => {}) s.pic.groups m

def setGroup (s : State) (m : Nat) (g : ModGroup) : State :=
  { s with pic := { s.pic with groups := tset (fun _ => {}) s.pic.groups m g } }

/-- Target triad of shared source n (R404). -/
def srcTarget (s : State) (n : Nat) : Nat := getF s (PIC_ROUTE n) PIC_ROUTE_TARGET

/-- Priority of the source with claim ID `id` for triad t (R404). -/
def srcPrio (s : State) (t id : Nat) : Nat :=
  if id < 32 then (getBank s t).pri.toNat / 2 ^ (4 * id) % 16 else getF s (PIC_ROUTE (id - 32)) PIC_ROUTE_PRIO

/-! ### Moderation (R426 to R429) -/

/-- The sixteen bits of group m within a shared bitmap. -/
def groupMask (m : Nat) : BitVec 512 := BitVec.ofNat 512 (0xFFFF * 2 ^ (16 * m))

/-- Step 5 of R426: the count returns to 0, the timer stops, and what is pending is released. -/
def releaseGroup (s : State) (m : Nat) : State :=
  let s := setGroup s m {}
  { s with pic := { s.pic with rel := s.pic.rel ||| (s.pic.pend &&& groupMask m) } }

/-- MOD_TIME as it acts: values above 65,535 act as 65,535 (R427). -/
def modTime (s : State) (m : Nat) : Nat := min (getF s (PIC_MOD m) PIC_MOD_MODTIME) 65535

def modCount (s : State) (m : Nat) : Nat := getF s (PIC_MOD m) PIC_MOD_MODCOUNT

/-- Microseconds since the first event of a hold, on the SLCK time base, saturating (log entry 17). -/
def modElapsed (s : State) (m : Nat) : Nat :=
  let g := getGroup s m
  if g.hold then min ((s.slck - g.since) * 15625 / 512) 65535 else 0

/-- Whether a holding group meets the limits of its register (R429). -/
def groupDue (s : State) (m : Nat) : Bool :=
  let g := getGroup s m
  (modCount s m != 0 && modCount s m ≤ g.count.toNat) || (modTime s m != 0 && modTime s m ≤ modElapsed s m)

/-- An event of shared source n reaches its group (R426, R428); the limits of the register act from it on (R429). -/
def modEvent (s : State) (n : Nat) : State :=
  let m := n / 16
  if modCount s m = 0 && modTime s m = 0 then releaseGroup s m
  else
    let g := getGroup s m
    let g := if g.hold then g else { hold := true, since := s.slck, count := g.count }
    let g := { g with count := BitVec.ofNat 8 (min (g.count.toNat + 1) 255), time := modTime s m }
    let s := setGroup s m g
    if triadIdle s (srcTarget s n) || (modCount s m != 0 && modCount s m ≤ g.count.toNat)
    then releaseGroup s m else s

/-- A holding group's timer reaches the MOD_TIME that is in force (R427, R429). -/
def modTimerDue (s : State) (m : Nat) : State :=
  if (getGroup s m).hold && (getGroup s m).time != 0 then releaseGroup s m else s

/-! ### Events of sources -/

/-- Whether the wake watcher lists shared source n (R431). -/
def watched (s : State) (n : Nat) : Bool :=
  (List.range 32).any fun i => getF s (PIC_WATCH i) PIC_WATCH_SRC == n

/-- R431: a listed, enabled source that asserts while its target's domain sleeps with WAKEMODE = 0 wakes it. -/
def watchWake (s : State) (n : Nat) : State :=
  let d := 4 + srcTarget s n / 4
  if !domOn s d && !flag s (PD_TARGET d) PD_TARGET_WAKEMODE && bit512 s.pic.en n && watched s n
  then wakeRequest s d 2 else s

/-- Shared source n fires or asserts: its target is not enabled, its group counts it, its target's domain wakes. -/
def sourceFires (s : State) (n : Nat) : State :=
  let s := if flag s (SUP_TRIAD (srcTarget s n)) SUP_TRIAD_EN then s else incSat s PIC_ERR PIC_ERR_NOTARGET 1
  watchWake (modEvent s n) n

/-- The pending bit of shared source n is set by an event or by a level condition's assertion. -/
def pendShared (s : State) (n : Nat) : State :=
  sourceFires { s with pic := { s.pic with pend := setBit512 s.pic.pend n true } } n

/-- An edge event of shared source n (R406). -/
def srcEvent (s : State) (n : Nat) : State := pendShared s n

/-- An edge event of private source k of triad t's bank (R406, R407). -/
def privEvent (s : State) (t k : Nat) : State :=
  let b := getBank s t
  setBank s t { b with pend := setBit32 b.pend k true }

/-- A private source event in the banks of all four triads of cluster n (R407). -/
def clusterEvent (s : State) (n k : Nat) : State :=
  privEvent (privEvent (privEvent (privEvent s (4 * n) k) (4 * n + 1) k) (4 * n + 2) k) (4 * n + 3) k

/-! ### Choosing the source (R410, R411) -/

/-- Running priority: the top of the stack, or 16 (R410). -/
def runPrio (b : PicBank) : Nat :=
  match b.stack with
  | [] => 16
  | p :: _ => p.toNat

/-- The threshold of R410. -/
def threshold (b : PicBank) : Nat :=
  match b.resv with
  | none => runPrio b
  | some (_, p) => min (runPrio b) p.toNat

/-- Whether some triad holds a reservation of shared source n. -/
def reservedShared (s : State) (n : Nat) : Bool :=
  (List.range 32).any fun t =>
    match (getBank s t).resv with
    | some (id, _) => id.toNat == n + 32
    | none => false

/-- R410 for a private source. -/
def eligiblePriv (s : State) (t k : Nat) : Bool :=
  let b := getBank s t
  bit32 b.pend k && bit32 b.en k && !bit32 b.act k &&
    (match b.resv with | some (id, _) => id.toNat != k | none => true) &&
    srcPrio s t k < threshold b && b.stack.length < 8

/-- R410 for a shared source. -/
def eligibleShared (s : State) (t n : Nat) : Bool :=
  bit512 s.pic.pend n && bit512 s.pic.en n && !bit512 s.pic.act n &&
    (!(getGroup s (n / 16)).hold || bit512 s.pic.rel n) && srcTarget s n == t &&
    srcPrio s t (n + 32) < threshold (getBank s t) && (getBank s t).stack.length < 8 && !reservedShared s n

/-- Whether the source with claim ID `id` is eligible for triad t (R410). -/
def eligible (s : State) (t id : Nat) : Bool :=
  if id < 32 then eligiblePriv s t id else eligibleShared s t (id - 32)

/-- The better of two candidates: the lower priority number, then the lower claim ID (R411). -/
def better (s : State) (t : Nat) (best : Option Nat) (id : Nat) : Option Nat :=
  if eligible s t id then
    match best with
    | none => some id
    | some b => if srcPrio s t id < srcPrio s t b then some id else some b
  else best

/-- The claim ID that the controller presents to triad t's voter (R411). -/
def presented (s : State) (t : Nat) : Option Nat := (List.range 544).foldl (better s t) none

/-! ### Reservation, claim, end of interrupt (R412 to R418) -/

/-- Reserve source `id` for triad t at the priority it holds (R412); a reservation it replaces ends (R413). -/
def reserve (s : State) (t id : Nat) : State :=
  let b := getBank s t
  setBank s t { b with resv := some (BitVec.ofNat 10 id, BitVec.ofNat 4 (srcPrio s t id)) }

def endReservation (s : State) (t : Nat) : State :=
  let b := getBank s t
  setBank s t { b with resv := none }

/-- The claim takes source `id` at priority p: pending cleared, active set, priority pushed, reservation ended. -/
def takeClaim (s : State) (t id : Nat) (p : BitVec 4) : State :=
  let s :=
    if id < 32 then
      let b := getBank s t
      setBank s t { b with pend := setBit32 b.pend id false, act := setBit32 b.act id true }
    else
      { s with pic := { s.pic with
          pend := setBit512 s.pic.pend (id - 32) false
          act := setBit512 s.pic.act (id - 32) true
          rel := setBit512 s.pic.rel (id - 32) false } }
  let b := getBank s t
  setBank s t { b with stack := p :: b.stack, resv := none }

/-- A read of ctl.claim by triad t (R415): the word and the state after. -/
def claim (s : State) (t : Nat) : Word × State :=
  match (getBank s t).resv with
  | some (id, p) => (BitVec.ofNat 32 (id.toNat + 4096 * p.toNat), takeClaim s t id.toNat p)
  | none =>
    match presented s t with
    | some id =>
      let p := srcPrio s t id
      (BitVec.ofNat 32 (id + 4096 * p), takeClaim s t id (BitVec.ofNat 4 p))
    | none => (0x3FF, s)

/-- The active bit of the source with claim ID `id`, for triad t. -/
def isActive (s : State) (t id : Nat) : Bool :=
  if id < 32 then bit32 (getBank s t).act id
  else if id < 544 then bit512 s.pic.act (id - 32) else false

/-- Clear an active bit; a level condition that still holds makes the source pending again when the command ends
(R418). -/
def clearActive (s : State) (t id : Nat) : State :=
  if id < 32 then
    let b := getBank s t
    setBank s t { b with act := setBit32 b.act id false }
  else { s with pic := { s.pic with act := setBit512 s.pic.act (id - 32) false } }

/-- ctl.eoi of claim ID `id` by triad t (R416). -/
def endOfInterrupt (s : State) (t id : Nat) : State :=
  let b := getBank s t
  let s := match b.stack with
    | [] => incSat s PIC_ERR PIC_ERR_EOIEMPTY 1
    | _ :: r => setBank s t { b with stack := r }
  if isActive s t id then clearActive s t id else incSat s PIC_ERR PIC_ERR_EOINACT 1

end Sys2Proof.Machine
end

