-- ==== Sys2Proof/Machine/FaultLog.lean ====
section
/-!
DEFINITION. The fault log of the supervisors (R233), the shared sources its entries raise (R625), and the stop of a
triad as the voter and the supervisors carry it out (R219).
-/

namespace Sys2Proof.Machine

/-- Entry kinds of the fault log (R233). -/
inductive FKind where
  | diverge | resync | swap | duplex | triadStop | frameFault | voterCopy | supFence | supRebuilt | safeHalt
  | scrubDbl | rsvLost | engMask | detect | recoverFail
deriving DecidableEq, Repr

def fkindCode : FKind → Nat
  | .diverge => 1
  | .resync => 2
  | .swap => 3
  | .duplex => 4
  | .triadStop => 5
  | .frameFault => 6
  | .voterCopy => 7
  | .supFence => 8
  | .supRebuilt => 9
  | .safeHalt => 10
  | .scrubDbl => 11
  | .rsvLost => 12
  | .engMask => 13
  | .detect => 14
  | .recoverFail => 15

/-- The shared source an entry raises (R625). -/
def fkindSource : FKind → Option Nat
  | .diverge | .resync | .swap | .voterCopy | .supRebuilt | .engMask => some 1
  | .triadStop | .frameFault => some 2
  | .supFence => some 3
  | .detect | .duplex | .scrubDbl | .rsvLost | .recoverFail => some 0
  | .safeHalt => none

/-- Write one entry: KIND, ELEM, TRIAD (255 none), DETAIL, the voted retirement count and the RTC time (R233). -/
def logFault (s : State) (k : FKind) (elem triad detail : Nat) : State :=
  let cnt := if triad < 32 then (getT s triad).rcount.toNat % 2 ^ 32 else 0
  let w0 := fkindCode k * 2 ^ 24 + elem % 256 * 2 ^ 16 + triad % 256 * 2 ^ 8 + detail % 256
  let e := w0 + cnt * 2 ^ 32 + s.rtc.sec.toNat % 2 ^ 32 * 2 ^ 64 + s.rtc.sub.toNat * 2 ^ 96
  let i := (reg s SUP_FLOGCNT).toNat % 1024
  let s := { s with flog := tset (fun _ => 0) s.flog i (BitVec.ofNat 128 e) }
  let s := incWrap s SUP_FLOGCNT SUP_FLOGCNT_COUNT 1
  match fkindSource k with
  | some n => srcEvent s n
  | none => s

/-- No element, no triad (R233). -/
def noElem : Nat := 0xFF

/-- A masked fault that shows nowhere but in a counter is logged (R232). DESIGN CHOICE: R233 names no KIND for it; the entry is
ENGMASK, whose source is MASKED (log entry 68). -/
def maskedFault (s : State) (triad : Nat) : State := logFault s .engMask noElem triad 0

/-- Cluster of triad t and its index in it (R14). -/
def clusterOf (t : Nat) : Nat := t / 4

/-- The cluster-local core index at position p of triad t; 15 for none. -/
def posCore (s : State) (t p : Nat) : Nat :=
  match p with
  | 0 => getF s (SUP_TRIAD t) SUP_TRIAD_P0
  | 1 => getF s (SUP_TRIAD t) SUP_TRIAD_P1
  | _ => getF s (SUP_TRIAD t) SUP_TRIAD_P2

/-- The core number (R13) at position p of triad t. -/
def coreAt (s : State) (t p : Nat) : Nat := 13 * clusterOf t + posCore s t p

/-- A triad stops: its cores retire nothing more, and MODE becomes 0b11 (R219). The weft's part is `abortOfTriad`. -/
def stopCores (s : State) (t : Nat) : State :=
  let x := getT s t
  let s := setReg s DBG_STAT (reg s DBG_STAT &&& ~~~ BitVec.ofNat 32 (2 ^ t))
  let s := setT s t { x with run := none, waiting := false, halted := false, stepping := false,
                             bptPass := false, haltDue := false, haltAt := none, landed := false, rtiCheck := false, pairA := none,
                             rebuild := none, point := none, due := false, split := none }
  let s := setF s (SUP_TRIAD t) SUP_TRIAD_MODE 3
  let s := setFlag s (SUP_TRIAD t) SUP_TRIAD_PAUSED false
  let j := t % 4
  let c := clusterOf t
  let dup := getF s (CLV_STATUS c) CLV_STATUS_DUPLEX
  let s := setF s (CLV_STATUS c) CLV_STATUS_DUPLEX (bitsPut dup j j 0)
  let pau := getF s (CLV_STATUS c) CLV_STATUS_PAUSED
  setF s (CLV_STATUS c) CLV_STATUS_PAUSED (bitsPut pau j j 0)

end Sys2Proof.Machine
end

