-- ==== Sys2Proof/Machine/Mesh.lean ====
section
/-!
DEFINITION. The fabric address map (R21) and the lattice's mesh (R19, R236, R237): routers, the one route between two of them, and whether it has failed
(R250).
-/

namespace Sys2Proof.Machine

/-! ### The fabric address map (R21) -/

/-- The regions of the fabric address map (R21). -/
inductive Region where
  | localStore | common | mram | device | hole
deriving DecidableEq, Repr

/-- The region that holds a fabric address (R21). -/
def regionOf (a : Nat) : Region :=
  if a < 0x20000 then .localStore
  else if 0x10000000 ≤ a && a < 0x12800000 then .common
  else if 0x30000000 ≤ a && a < 0x34000000 then .mram
  else if 0x40000000 ≤ a && a < 0x400E0000 then .device
  else if 0x41000000 ≤ a && a < 0x41100000 then .device
  else if 0x42000000 ≤ a && a < 0x42100000 then .device
  else if 0x43000000 ≤ a && a < 0x43100000 then .device
  else if 0x44000000 ≤ a && a < 0x44100000 then .device
  else if 0x45000000 ≤ a && a < 0x45100000 then .device
  else if 0x46000000 ≤ a && a < 0x46200000 then .device
  else if 0x47000000 ≤ a && a < 0x47100000 then .device
  else if 0x48000000 ≤ a && a < 0x48800000 && a % 0x100000 < 0x40000 then .device
  else .hole

/-! ### Routers and routes (R19, R236, R237) -/

/-- The router x + 4 y at which cluster n attaches (R19). -/
def clusterRouter : Nat → Nat
  | 0 => 0
  | 1 => 1
  | 2 => 2
  | 3 => 4
  | 4 => 11
  | 5 => 13
  | 6 => 14
  | _ => 15

/-- The router of a master (R236). -/
def masterRouter (m : Nat) : Nat :=
  if m < 32 then clusterRouter (m / 4)
  else if m = 32 then 5
  else if m = 33 then 6
  else if m = 34 then 9
  else if m = 35 then 10
  else if m = 36 then 3
  else if m = 37 then 7
  else 8

/-- The common store bank of a fabric address (R22). -/
def bankOf (a : Nat) : Nat := (a - 0x10000000) / 4096 % 16

/-- The router of the target at a fabric address (R19); the lattice control block is taken to sit with the system
peripherals at L03. -/
def targetRouter (a : Nat) : Nat :=
  if a < 0x20000000 then bankOf a
  else if a < 0x40000000 then 10
  else if a < 0x40100000 then
    (if a / 0x10000 % 16 = 8 || a / 0x10000 % 16 = 12 then 8 else 12)
  else if a < 0x41100000 then 5
  else if a < 0x42100000 then 6
  else if a < 0x43100000 then 9
  else if a < 0x44100000 then 10
  else if a < 0x45100000 then 3
  else if a < 0x48000000 then 7
  else clusterRouter ((a - 0x48000000) / 0x100000)

/-- The routers that a packet passes: along the row, then along the column (R237). -/
def routePath (src dst : Nat) : List Nat :=
  let sx := src % 4
  let sy := src / 4
  let dx := dst % 4
  let dy := dst / 4
  let row := if sx ≤ dx then (List.range (dx - sx + 1)).map (fun i => sx + i + 4 * sy)
             else (List.range (sx - dx + 1)).map (fun i => sx - i + 4 * sy)
  let col := if sy ≤ dy then (List.range (dy - sy)).map (fun i => dx + 4 * (sy + i + 1))
             else (List.range (sy - dy)).map (fun i => dx + 4 * (sy - i - 1))
  row ++ col

/-- The link between two neighbouring routers (R237). -/
def linkBetween (a b : Nat) : Nat :=
  let lo := min a b
  if a / 4 = b / 4 then 3 * (lo / 4) + lo % 4 else 12 + lo

/-- The links of a path of routers. -/
def pathLinks : List Nat → List Nat
  | a :: b :: r => linkBetween a b :: pathLinks (b :: r)
  | _ => []

/-- Whether the route between two routers has failed: marked, or with a failed link or router on it (R250). -/
def routeFailed (s : State) (src dst : Nat) : Bool :=
  tget (fun _ => false) s.lat.routes (16 * src + dst) ||
    (routePath src dst).any (fun r => (getF s LAT_RTRFAIL LAT_RTRFAIL_FAIL).testBit r) ||
    (pathLinks (routePath src dst)).any (fun i => getF s (LAT_LINK i) LAT_LINK_STATE == 3)

/-- Whether master m's accesses to fabric address `a` end on a failed route. -/
def accessFailed (s : State) (m a : Nat) : Bool := routeFailed s (masterRouter m) (targetRouter a)

/-- An access that ends on a failed route is counted (R250). -/
def routeLost (s : State) : State := incSat s LAT_E2E LAT_E2E_ROUTEFAIL 1

/-- Whether the block at router r reaches the Caravan. -/
def qeRoute (s : State) (r : Nat) : Bool := !routeFailed s r (targetRouter 0x41000000)

end Sys2Proof.Machine
end

