-- ==== Sys2Proof/Machine/Queue.lean ====
section
/-!
DEFINITION. The Caravan queue engine (spec chapter 10): classes, cells, descriptors, the mode table, gaps, notices,
broken queues, the stale timer, the queue operations of triads and of the engine port, and the QCMD commands.
-/

namespace Sys2Proof.Machine

/-! ### Classes and the reserved map (R260 to R263) -/

/-- The reserved engine queues (R262). -/
def reservedListed (q : Nat) : Bool :=
  let o := q - 0xFF000
  0xFF000 ≤ q && (o < 0x11 || (0x100 ≤ o && o < 0x108) || (0x140 ≤ o && o < 0x160) || o = 0x200 ||
    (0x240 ≤ o && o < 0x260) || o = 0x300 || (0x340 ≤ o && o < 0x360) || o = 0x400 ||
    (0x440 ≤ o && o < 0x460) || (0x500 ≤ o && o < 0x503) || (0x510 ≤ o && o < 0x513))

/-- The weave class c covers queue q (R260). -/
def classCovers (s : State) (q c : Nat) : Bool :=
  flag s (QE_COWN c) QE_COWN_VALID && getF s (QE_CFIRST c) QE_CFIRST_FIRST ≤ q && q ≤ getF s (QE_CLAST c) QE_CLAST_LAST

/-- The class of queue q; none: the queue is closed (R260). -/
def qClass (s : State) (q : Nat) : Option Nat :=
  if 0xFFF00 ≤ q then some 65
  else if 0xFF000 ≤ q then (if reservedListed q then some 64 else none)
  else (List.range 64).find? (classCovers s q)

/-- What a triad may do with a queue (R262, R263). -/
inductive QAccess where
  | any | pop | push | none
deriving DecidableEq, Repr

/-- Triad access to queue q: any outside the reserved map, else its last column (R262). -/
def triadAccess (q t : Nat) : QAccess :=
  if q < 0xFF000 || 0xFFF00 ≤ q then .any
  else
    let o := q - 0xFF000
    let own (base : Nat) : QAccess := if o = base + t then .pop else .none
    if o < 0x10 then .pop
    else if o = 0x10 || (0x100 ≤ o && o < 0x108) || o = 0x200 || o = 0x300 || o = 0x400 ||
      (0x510 ≤ o && o < 0x513) then .push
    else if 0x140 ≤ o && o < 0x160 then own 0x140
    else if 0x240 ≤ o && o < 0x260 then own 0x240
    else if 0x340 ≤ o && o < 0x360 then own 0x340
    else if 0x440 ≤ o && o < 0x460 then own 0x440
    else .pop

/-! ### Descriptors, cells, slots -/

def getQ (s : State) (q : Nat) : QDesc := tget (fun _ => {}) s.qe.desc q

def setQ (s : State) (q : Nat) (d : QDesc) : State :=
  { s with qe := { s.qe with desc := tset (fun _ => {}) s.qe.desc q d } }

/-- FREE: cells of the pool that are neither used nor leaked. -/
def poolFree (s : State) : Nat := 262144 - s.qe.used.length

/-- QE_GAPTAB.USED. -/
def gapsUsed (s : State) : Nat := s.qe.gaps.length

def slotGet (s : State) (cell slot : Nat) : BitVec 36 := tget (fun _ => 0) s.qe.slots (16 * cell + slot)

def linkGet (s : State) (cell : Nat) : BitVec 29 := tget (fun _ => 0) s.qe.links cell

/-- Parity of the low `n` bits of a number. -/
def parityBits : Nat → Nat → Bool
  | 0, _ => false
  | n + 1, v => xor (v % 2 == 1) (parityBits n (v / 2))

/-- A data slot as the QE writes it (R265). -/
def slotWord (data : Word) (eop gap : Bool) : BitVec 36 :=
  let v := data.toNat + 2 ^ 32 * b2n eop + 2 ^ 33 * b2n gap
  BitVec.ofNat 36 (v + 2 ^ 34 * b2n (parityBits 34 v))

/-- POOLEMPTY and POOLLOW follow FREE; each change of POOLLOW is the QE_POOLLOW event (R460). -/
def poolCheck (s : State) : State :=
  let s := setFlag s QE_STATUS QE_STATUS_POOLEMPTY (poolFree s == 0)
  let low := decide (poolFree s < getF s QE_POOLLOW QE_POOLLOW_LEVEL)
  if flag s QE_STATUS QE_STATUS_POOLLOW == low then s
  else produce (setFlag s QE_STATUS QE_STATUS_POOLLOW low) 158

/-- Take the lowest-numbered free cell (R267). -/
def takeCell (s : State) : Nat × State :=
  let c := tfirstFree 0 s.qe.used
  (c, { s with qe := { s.qe with used := tset (fun _ => false) s.qe.used c true
                                 links := tset (fun _ => 0) s.qe.links c 0
                                 badLinks := tset (fun _ => false) s.qe.badLinks c false } })

/-- Return a cell to the pool; its slots keep nothing. -/
def freeCell (s : State) (c : Nat) : State :=
  { s with qe := { s.qe with used := tset (fun _ => false) s.qe.used c false
                             badLinks := tset (fun _ => false) s.qe.badLinks c false
                             links := tset (fun _ => 0) s.qe.links c 0
                             slots := tclear (16 * c) (16 * c + 16) s.qe.slots } }

/-- The cells of a chain from `c` on, following at most `n` links. -/
def chain (s : State) : Nat → Nat → List Nat
  | 0, c => [c]
  | n + 1, c =>
    let l := (linkGet s c).toNat
    if bitsOf l 18 18 = 1 then c :: chain s n (bitsOf l 17 0) else [c]

/-- The cells a queue holds, head first. -/
def queueCells (s : State) (d : QDesc) : List Nat :=
  if d.words = 0 then [] else chain s ((d.rslot + d.words - 2) / 15) d.head

/-- Free a list of cells. -/
def freeCells (s : State) (l : List Nat) : State := l.foldl freeCell s

/-- Cells lost to a broken queue: they stay taken, and nothing reads them again. -/
def leakCells (s : State) (l : List Nat) : State :=
  let s := l.foldl (fun s c =>
    { s with qe := { s.qe with slots := tclear (16 * c) (16 * c + 16) s.qe.slots
                               links := tset (fun _ => 0) s.qe.links c 0 } }) s
  incSat s QE_LEAKED QE_LEAKED_CELLS l.length

/-- Room at a push (R268). -/
def room (s : State) (q c : Nat) : Nat :=
  let d := getQ s q
  let tail := if d.words = 0 then 0 else 15 - d.wslot
  min (getF s (QE_CQUOTA c) QE_CQUOTA_QUOTA - d.words) (tail + 15 * poolFree s)

/-- Store one word at the tail (R267). -/
def storeWord (s : State) (q : Nat) (data : Word) (eop gap : Bool) : State :=
  let d := getQ s q
  let (d, s) :=
    if d.words = 0 then
      let (c, s) := takeCell s
      ({ d with head := c, tail := c, rslot := 1, wslot := 1 }, s)
    else if d.wslot = 15 then
      let (c, s) := takeCell s
      let s := { s with qe := { s.qe with links := tset (fun _ => 0) s.qe.links d.tail (BitVec.ofNat 29 (c + 2 ^ 18))
                                          badLinks := tset (fun _ => false) s.qe.badLinks d.tail false } }
      ({ d with tail := c, wslot := 1 }, s)
    else ({ d with wslot := d.wslot + 1 }, s)
  let s := { s with qe := { s.qe with
    slots := tset (fun _ => 0) s.qe.slots (16 * d.tail + d.wslot) (slotWord data eop gap) } }
  setQ s q { d with words := d.words + 1, pkts := d.pkts + b2n eop, inpkt := !eop }

/-! ### Stale timer (R288) and gap table (R270) -/

/-- The wheel level of a stale timeout in µs (R289). -/
def wheelLevel (stale : Nat) : Nat := if stale ≤ 4000 then 0 else if stale ≤ 262000 then 1 else 2

/-- Arm the stale timer of a queue of class c, where the class has one: the wheel level is its timeout's; its due bucket and
the next queue of the list are open (R269, R289). DESIGN CHOICE: the spec says no moment at which LISTED changes; it is ARMED,
here and in `disarm` (log entry 74). -/
def armTimer (s : State) (q c : Nat) : State :=
  let stale := getF s (QE_CSTALE c) QE_CSTALE_STALE
  if c < 64 && stale != 0 then
    let (w, s) := drawFree s
    let d := getQ s q
    setQ s q { d with armed := true, listed := true, wnext := w.extractLsb' 0 20,
                      timx := BitVec.ofNat 14 (wheelLevel stale * 4096 + (w.extractLsb' 20 12).toNat) }
  else s

def disarm (s : State) (q : Nat) : State :=
  let d := getQ s q
  setQ s q { d with armed := false, listed := false }

/-- Enter a gap: take a gap-table entry with count 1, or hold the count at its highest value (R270). -/
def takeGap (s : State) (q : Nat) : State :=
  if gapsUsed s < 16384 then
    let i := tfirstFree 0 s.qe.gaps
    let s := { s with qe := { s.qe with gaps := tset (fun _ => false) s.qe.gaps i true } }
    let d := getQ s q
    setQ s q { d with entry := true, timx := BitVec.ofNat 14 i, count := 1 }
  else
    let s := incSat s QE_GAPTAB QE_GAPTAB_OVERFLOW 1
    let d := getQ s q
    setQ s q { d with entry := false, count := 0xFFFFFFFF }

/-- Free the queue's gap-table entry and its count. -/
def freeGap (s : State) (q : Nat) : State :=
  let d := getQ s q
  let s := if d.entry then
      { s with qe := { s.qe with gaps := tset (fun _ => false) s.qe.gaps d.timx.toNat false } } else s
  setQ s q { d with entry := false, count := 0, timx := 0 }

/-- One more word dropped in a gap: the count, which saturates, and QE_CDROPc. -/
def countDrop (s : State) (q c : Nat) : State :=
  let d := getQ s q
  let s := setQ s q { d with count := if d.count = 0xFFFFFFFF then d.count else d.count + 1 }
  incSat s (QE_CDROP c) QE_CDROP_DROP 1

/-! ### Notices (R291, R292) -/

/-- Notice kinds, as KIND codes them. -/
inductive Notice where
  | ready | stale | gap | broken
deriving DecidableEq, Repr

def noticeCode : Notice → Nat
  | .ready => 0
  | .stale => 1
  | .gap => 2
  | .broken => 3

/-! ### Push (R279 to R285) -/

/-- A push that enters a gap from NORMAL (R279). -/
def enterGap (s : State) (q c : Nat) (eop : Bool) : State :=
  let s := disarm s q
  let s := takeGap s q
  let s := incSat s (QE_CDROP c) QE_CDROP_DROP 1
  let s := incSat s (QE_CEVT c) QE_CEVT_GAPS 1
  let d := getQ s q
  setQ s q { d with mode := if eop then .pend else .gap }

/-- A push of one word into queue q of class c: the state and the notices it causes, in order (R285). The null queue
discards its words (R264). -/
def pushCore (s : State) (q c : Nat) (data : Word) (eop : Bool) : State × List Notice :=
  if q = 0xFFFFF then (s, [])
  else
    let d := getQ s q
    match d.mode with
    | .normal =>
      if room s q c = 0 then (enterGap s q c eop, [.gap])
      else
        let s' := storeWord s q data eop false
        let s' := if d.words = 0 then armTimer s' q c else s'
        (s', if eop then [.ready] else [])
    | .gap =>
      let s := countDrop s q c
      (if eop then setQ s q { getQ s q with mode := .pend } else s, [])
    | .pend =>
      if 2 ≤ room s q c then
        let s' := storeWord s q d.count true true
        let s' := freeGap s' q
        let s' := setQ s' q { getQ s' q with mode := .normal, inpkt := false }
        let s' := storeWord s' q data eop false
        (armTimer s' q c, if eop then [.ready, .ready] else [.ready])
      else
        let s := countDrop s q c
        (if eop then s else setQ s q { getQ s q with mode := .gap }, [])
    | .disc =>
      let s := incSat s (QE_CERR c) QE_CERR_DISC 1
      (if eop then setQ s q { getQ s q with mode := .normal, inpkt := false } else s, [])
    | .broken => (incSat s (QE_CEVT c) QE_CEVT_BRKDROP 1, [])

/-- A queue made BROKEN, whose content is discarded: `free` cells return to the pool, `leaked` cells are lost; the event and the
class's count (R286). -/
def broken (s : State) (q c : Nat) (free leaked : List Nat) : State :=
  let d := getQ s q
  let s := leakCells (freeCells s free) leaked
  let s := setQ s q { d with mode := .broken, words := 0, pkts := 0, inpkt := false, armed := false, listed := false,
                             head := 0, tail := 0, rslot := 0, wslot := 0 }
  srcEvent (produce (incSat s (QE_CEVT c) QE_CEVT_BROKEN 1) 157) 35

/-- Whether an operation finds a double-bit error in the descriptor of queue q, which may be one that the scrubber has poisoned
(R286, R287). -/
def descBad (s : State) (q : Nat) (u : QueueUpset) : Bool :=
  (u == .descriptor || tget (fun _ => false) s.qe.badDescs q) && (getQ s q).mode != .broken

/-- The descriptor of queue q is read, and written again. -/
def descRead (s : State) (q : Nat) : State :=
  { s with qe := { s.qe with badDescs := tset (fun _ => false) s.qe.badDescs q false } }

/-- A notice queue, whose class posts no notices, as an operation on it finds it (R286, R291). -/
def noticeQueue (s : State) (nq : Nat) : State :=
  if descBad s nq .none then broken (descRead s nq) nq 65 [] (queueCells s (getQ s nq)) else descRead s nq

/-- Post one notice of a weave-class queue (R291, R292). -/
def postNotice (q c : Nat) (s : State) (k : Notice) : State :=
  if c < 64 then
    let nq := 0xFFF00 + getF s (QE_COWN c) QE_COWN_NOTIFY
    (pushCore (noticeQueue s nq) nq 65 (BitVec.ofNat 32 (noticeCode k * 2 ^ 30 + q)) true).1
  else s

def postNotices (s : State) (q c : Nat) (l : List Notice) : State := l.foldl (postNotice q c) s

/-! ### Broken queues (R286) -/

/-- Mark queue q BROKEN, and post its notice. -/
def markBroken (s : State) (q c : Nat) (free leaked : List Nat) : State :=
  poolCheck (postNotice q c (broken s q c free leaked) .broken)

/-- The queue breaks when the operation finds a double-bit error in its descriptor: every cell of it is lost (R286). -/
def checkDesc (s : State) (q c : Nat) (u : QueueUpset) : State :=
  if descBad s q u then markBroken (descRead s q) q c [] (queueCells s (getQ s q)) else descRead s q

/-- A push through any port into a queue whose class is known; cells are counted afterwards. -/
def pushOne (s : State) (q c : Nat) (data : Word) (eop : Bool) : State :=
  let (s', n) := pushCore (checkDesc s q c .none) q c data eop
  poolCheck (postNotices s' q c n)

/-! ### Pop (R273 to R276) -/

/-- The tag word of a pop that delivers a word, without BROKEN. -/
def popTag (poison gap eop : Bool) : Nat := 1 + 2 * b2n eop + 4 * b2n gap + 8 * b2n poison

/-- The queue after its head word has left: WORDS, PKTS, the cell that empties, the stale timer; a link slot that
fails breaks the queue. -/
def advanceHead (s : State) (q c : Nat) (eop linkBad : Bool) : State × Bool :=
  let d := getQ s q
  let words := d.words - 1
  let pkts := if words = 0 then 0 else d.pkts - b2n eop
  if words = 0 then
    let s := freeCell s d.head
    (disarm (setQ s q { d with words := 0, pkts := 0, head := 0, tail := 0, rslot := 0, wslot := 0 }) q, false)
  else if d.rslot = 15 then
    if linkBad || tget (fun _ => false) s.qe.badLinks d.head then (markBroken s q c [d.head] ((queueCells s d).drop 1), true)
    else
      let next := bitsOf (linkGet s d.head).toNat 17 0
      let s := freeCell s d.head
      (setQ s q { d with words := words, pkts := pkts, head := next, rslot := 1 }, false)
  else (setQ s q { d with words := words, pkts := pkts, rslot := d.rslot + 1 }, false)

/-- Re-arm the stale timer after a pop or drop that leaves words in NORMAL (R288). -/
def rearm (s : State) (q c : Nat) : State :=
  let d := getQ s q
  if d.mode = .normal && d.words != 0 then armTimer s q c else s

/-- The slot of the head word, the i-th that an operation reads, as it is read (R276). -/
def headSlot (s : State) (q : Nat) (u : QueueUpset) (i : Nat) : Nat :=
  let d := getQ s q
  let w := slotGet s d.head d.rslot
  match u with
  | .parity k b => (if k.toNat = i then w ^^^ BitVec.ofNat 36 (2 ^ b.toNat) else w).toNat
  | .none | .link | .descriptor => w.toNat

/-- A slot fails its parity check (R265); bit 35 is ignored. -/
def slotFails (w : Nat) : Bool := parityBits 34 w != (bitsOf w 34 34 == 1)

/-- Pop the i-th word of an operation on a queue of class c whose descriptor has been read: data, tag and the state after (R273
to R276, R286). A word that fails is a detected fault (R231, R232). -/
def popWord (s : State) (q c : Nat) (u : QueueUpset) (i : Nat) : Word × Word × State :=
  let d := getQ s q
  if d.mode = .broken then (0, 0x200, s)
  else if d.words = 0 then (0, 0, s)
  else
    let w := headSlot s q u i
    let eop := bitsOf w 32 32 == 1
    let gap := bitsOf w 33 33 == 1
    let poison := slotFails w
    let s := if poison then
        logFault (srcEvent (produce (incSat s (QE_CERR c) QE_CERR_POISON 1) 156) 34) .detect noElem noElem 0
      else s
    let (s, broke) := advanceHead s q c eop (u == .link)
    (BitVec.ofNat 32 w, BitVec.ofNat 32 (popTag poison gap eop + 0x200 * b2n broke), poolCheck (rearm s q c))

/-- A pop of one word. -/
def popCore (s : State) (q c : Nat) (u : QueueUpset) : Word × Word × State := popWord (checkDesc s q c u) q c u 0

/-! ### qp.drop (R283) -/

/-- Discard stored words through the first that reads EOP = 1, at most `n`, the first of them the i-th of the operation; true
when one was found. -/
def dropWords (q c : Nat) (u : QueueUpset) : Nat → Nat → State → State × Bool
  | 0, _, s => (s, false)
  | n + 1, i, s =>
    let d := getQ s q
    if d.words = 0 || d.mode = .broken then (s, false)
    else
      let eop := bitsOf (headSlot s q u i) 32 32 == 1
      let s := incSat s (QE_CERR c) QE_CERR_DISC 1
      let (s, broke) := advanceHead s q c eop (u == .link)
      if broke then (s, true) else if eop then (s, true) else dropWords q c u n (i + 1) s

/-- qp.drop on a queue of class c (R283, R285). -/
def dropCore (s : State) (q c : Nat) (u : QueueUpset) : State :=
  let s := checkDesc s q c u
  let d := getQ s q
  match d.mode with
  | .broken | .disc => s
  | .normal =>
    let (s, found) := dropWords q c u d.words 0 s
    let d' := getQ s q
    if found then poolCheck (rearm s q c)
    else if d.inpkt then poolCheck (setQ s q { d' with mode := .disc, armed := false, listed := false })
    else poolCheck s
  | .gap | .pend => poolCheck (dropWords q c u d.words 0 s).1

/-! ### Stat, RESET, INSPECT -/

def qmodeCode : QMode → Nat
  | .normal => 0
  | .gap => 1
  | .pend => 2
  | .disc => 3
  | .broken => 4

/-- The snapshot of qp.stat: qp.npk and qp.nwd (R272, R275). -/
def statCore (s : State) (q : Nat) : Word × Word :=
  let d := getQ s q
  (BitVec.ofNat 32 (qmodeCode d.mode * 2 ^ 24 + d.pkts), BitVec.ofNat 32 d.words)

/-- The cells of a queue up to the first whose link slot fails, that one included, and the cells beyond it. -/
def splitChain (s : State) : List Nat → List Nat × List Nat
  | [] => ([], [])
  | [c] => ([c], [])
  | c :: r =>
    if tget (fun _ => false) s.qe.badLinks c then ([c], r)
    else
      let p := splitChain s r
      (c :: p.1, p.2)

/-- The RESET command on a queue of class c (R297): a link slot that fails on the way breaks the queue first (R286, R287). -/
def resetQueue (s : State) (q c : Nat) : State :=
  let p := splitChain s (queueCells s (getQ s q))
  let s := if p.2.isEmpty then freeCells s p.1 else markBroken s q c p.1 p.2
  poolCheck (setQ (freeGap s q) q {})

/-- The descriptor's 128 bits (R269). -/
def packDesc (d : QDesc) : Nat :=
  d.head + d.tail * 2 ^ 18 + d.rslot * 2 ^ 36 + d.wslot * 2 ^ 40 + d.words * 2 ^ 44 + d.pkts * 2 ^ 66 +
  qmodeCode d.mode * 2 ^ 88 + b2n d.inpkt * 2 ^ 91 + b2n d.armed * 2 ^ 92 + b2n d.listed * 2 ^ 93 +
  d.wnext.toNat * 2 ^ 94 + d.timx.toNat * 2 ^ 114

/-! ### Power and safe halt around the queue engine (R225, R483) -/

def safeHalt (s : State) : Bool := flag s SUP_STATUS SUP_STATUS_SAFEHALT

/-- An access held at the router of domain 2 or 3 in RET: it is counted, wakes the domain, and is performed after the
return (R483, R484). -/
def heldAccess (s : State) (d : Nat) : State :=
  if domState s d = 1 then
    let s := incSat s PD_REFUSED PD_REFUSED_HELD 1
    let s := setFlag s (PD_VOTEB d) PD_VOTEB_WAKE true
    let s := { s with wakeCause := tset (fun _ => 0) s.wakeCause d 0 }
    let s := setF s (PD_STATUS d) PD_STATUS_STATE 0
    setF (setFlag s (PD_STATUS d) PD_STATUS_WAKEQ false) (PD_STATUS d) PD_STATUS_LASTWAKE 3
  else s

/-- An access that ends with an error response because the domain sleeps (R483). -/
def refusedAccess (s : State) : State := incSat s PD_REFUSED PD_REFUSED_ERR 1

/-! ### Operations through the engine port (R277) -/

/-- Push a burst, word by word (R277). A closed queue counts each word (R296). -/
def pushWords (q c : Nat) : List (Word × Bool) → State → State
  | [], s => s
  | (w, e) :: r, s => pushWords q c r (pushOne s q c w e)

/-- The QE performs an operation only when its domain is powered and the card is not in safe halt. -/
def qeReady (s : State) : Bool := domState s 2 != 2 && !safeHalt s

/-- A push burst of the engine at router r. -/
def enginePush (s : State) (r q : Nat) (ws : List (Word × Bool)) : State :=
  if safeHalt s then s
  else if !qeRoute s r then routeLost s
  else if domState s 2 = 2 then refusedAccess s
  else
    let s := heldAccess s 2
    match qClass s q with
    | none => incSat s QE_REFUSED QE_REFUSED_CLOSED ws.length
    | some c => pushWords q c ws s

/-- A packet: every word with EOP = 0 but the last. -/
def packet : List Word → List (Word × Bool)
  | [] => []
  | [w] => [(w, true)]
  | w :: r => (w, false) :: packet r

/-- A push of one whole packet by the engine at router r. -/
def pushPacket (s : State) (r q : Nat) (ws : List Word) : State := enginePush s r q (packet ws)

/-- Pop up to n words, the first of them the i-th of the operation, stopping after the first EOP: (data, tag) pairs in order and
the state after. -/
def popWords (q c : Nat) (u : QueueUpset) : Nat → Nat → State → List (Word × Word) × State
  | 0, _, s => ([], s)
  | n + 1, i, s =>
    let (w, tag, s) := popWord s q c u i
    if tag.toNat % 2 = 0 then ([], s)
    else if bitsOf tag.toNat 1 1 = 1 then ([(w, tag)], s)
    else
      let (l, s) := popWords q c u n (i + 1) s
      ((w, tag) :: l, s)

/-- A pop of up to n words by the engine at router r. A queue that delivers none answers one tag (R273, R274, R296). -/
def enginePop (s : State) (r q n : Nat) (u : QueueUpset) : List (Word × Word) × State :=
  if safeHalt s then ([], s)
  else if !qeRoute s r then ([], routeLost s)
  else if domState s 2 = 2 then ([], refusedAccess s)
  else
    let s := heldAccess s 2
    match qClass s q with
    | none => ([(0, 0x100)], s)
    | some c =>
      let s := checkDesc s q c u
      if (getQ s q).mode = .broken then ([(0, 0x200)], s)
      else if (getQ s q).words = 0 then ([(0, 0)], s)
      else popWords q c u n 0 s

/-- A stat by the engine at router r: one pair, packets with mode, and words; of a closed queue, CLOSED and no words (R272, R277,
R296). -/
def engineStat (s : State) (r q : Nat) (u : QueueUpset) : List (Word × Word) × State :=
  if safeHalt s then ([], s)
  else if !qeRoute s r then ([], routeLost s)
  else if domState s 2 = 2 then ([], refusedAccess s)
  else
    let s := heldAccess s 2
    match qClass s q with
    | none => ([(0x80000000, 0)], s)
    | some c =>
      let s := checkDesc s q c u
      ([statCore s q], s)

/-- Words waiting in a queue. -/
def qWords (s : State) (q : Nat) : Nat := (getQ s q).words

/-- Whole packets waiting in a queue. -/
def qPkts (s : State) (q : Nat) : Nat := (getQ s q).pkts

/-- The words of a queue, head first, without popping. -/
def peekWords (s : State) : Nat → Nat → Nat → List (BitVec 36)
  | 0, _, _ => []
  | n + 1, cell, slot =>
    slotGet s cell slot ::
      (if slot = 15 then peekWords s n (bitsOf (linkGet s cell).toNat 17 0) 1 else peekWords s n cell (slot + 1))

/-- Room, in words, that a packet pushed to q now would find; 0 for a closed queue. -/
def roomOf (s : State) (q : Nat) : Nat :=
  match qClass s q with
  | none => 0
  | some c => room s q c

/-! ### The stale timer (R288 to R291) -/

/-- The stale timer of queue q falls due: the notice is posted and the queue is disarmed, while the QE is ON. -/
def staleDue (s : State) (q : Nat) : State :=
  match qClass s q with
  | none => s
  | some c =>
    if domOn s 2 && !safeHalt s && (getQ s q).armed then
      let s := checkDesc s q c .none
      let d := getQ s q
      if d.armed && d.mode = .normal && d.words != 0 then poolCheck (postNotice q c (disarm s q) .stale) else s
    else s

/-- The descriptor of queue q has a double-bit error that the next access finds (R286). -/
def upsetDesc (s : State) (q : Nat) (u : QueueUpset) : State :=
  if u = .descriptor then { s with qe := { s.qe with badDescs := tset (fun _ => false) s.qe.badDescs q true } } else s

end Sys2Proof.Machine
end

