-- ==== Sys2Proof/Machine/Bridge.lean ====
section
/-!
DEFINITION. What the engines and the host bridge share: packets popped through the engine port, the key store as the
crypto, ledger and draw units use it (R384, R385, R587), MSI-X messages (R517, R518) and mailbox responses (R524).
-/

namespace Sys2Proof.Machine

/-! ### Packets of an engine -/

/-- A packet as an engine pops it: its words, whether one was popped with POISON = 1 or GAP = 1, whether one of the last two
was, whether its EOP came. -/
structure Packet where
  words : List Word
  bad : Bool
  lastBad : Bool
  whole : Bool
deriving DecidableEq, Repr

/-- The packet that popped (data, tag) pairs spell. -/
def packetOf (l : List (Word × Word)) : Packet :=
  let bad (p : Word × Word) : Bool := p.2.getLsbD 2 || p.2.getLsbD 3
  { words := l.map (·.1)
    bad := l.any bad
    lastBad := (l.drop (l.length - 2)).any bad
    whole := l.any (fun p => p.2.getLsbD 1) }

/-- Pop one packet through its EOP word from queue q of class c. -/
def popPacketOf (s : State) (q c : Nat) (u : QueueUpset) : Packet × State :=
  let s := checkDesc s q c u
  let (l, s) := popWords q c u (qWords s q) 0 s
  (packetOf l, s)

/-- The engine at router r pops one packet; no words when the queue delivers none. -/
def popPacket (s : State) (r q : Nat) (u : QueueUpset) : Packet × State :=
  if !qeRoute s r then (packetOf [], routeLost s)
  else if domState s 2 = 2 then (packetOf [], refusedAccess s)
  else
    let s := heldAccess s 2
    match qClass s q with
    | none => (packetOf [], s)
    | some c => popPacketOf s q c u

/-- Whether a queue holds a whole packet (an EOP word) that the engine at router r may pop now. -/
def pktReady (s : State) (r q : Nat) : Bool :=
  qeReady s && qeRoute s r && qPkts s q != 0 && (getQ s q).mode != .broken

/-- Word i of the first packet in a queue, without popping. -/
def peekAt (s : State) (q i : Nat) : Word :=
  let d := getQ s q
  ((peekWords s (min d.words (i + 1)) d.head d.rslot).getD i 0).setWidth 32

/-- Length of the first packet in a queue: words up to its first EOP. -/
def peekLen (s : State) (q : Nat) : Nat :=
  let d := getQ s q
  (((peekWords s d.words d.head d.rslot).takeWhile (fun w => !w.getLsbD 32)).length) + 1

/-- A token's low word with RESULT set. -/
def withResult (lo : Word) (r : Nat) : Word := BitVec.ofNat 32 (bitsPut lo.toNat 23 22 r)

/-! ### Key store -/

def getKey (s : State) (k : Nat) : KeySlot := tget (fun _ => {}) s.keys k

def setKey (s : State) (k : Nat) (x : KeySlot) : State := { s with keys := tset (fun _ => {}) s.keys k x }

/-- Presence bit of key slot k. -/
def keyPresent (s : State) (k : Nat) : Bool := (getF s TMP_KEYPRES TMP_KEYPRES_PRES).testBit k

def setKeyPresent (s : State) (k : Nat) (b : Bool) : State :=
  setF s TMP_KEYPRES TMP_KEYPRES_PRES (bitsPut (getF s TMP_KEYPRES TMP_KEYPRES_PRES) k k (b2n b))

def keyVersion (s : State) (k : Nat) : Word := reg s (TMP_KEYVER k)

/-- The CRC-32 that a slot with this key and version carries (R587). -/
def keyCrc (key : List Byte) (version : Word) : Word := crc32 (key ++ leBytes 4 version.toNat)

/-- Clear a key slot: key, version and presence bit. -/
def clearKey (s : State) (k : Nat) : State :=
  setReg (setKeyPresent (setKey s k {}) k false) (TMP_KEYVER k) 0

/-- A use of key slot k (R385, R587): its bytes, or nothing when it is absent; a slot that fails its CRC, or whose bits an
upset has changed, becomes absent and is logged. -/
def useKey (s : State) (k : Nat) (upset : Bool) : Option (List Byte) × State :=
  if flag s TMP_STATUS TMP_STATUS_ZEROING || !keyPresent s k then (none, s)
  else
    let x := getKey s k
    if upset || keyCrc x.key (keyVersion s k) != x.crc then
      (none, logFault (setReg (setKeyPresent s k false) (TMP_KEYVER k) 0) .detect noElem noElem 0)
    else (some x.key, s)

/-! ### MSI-X (R517, R518) -/

/-- Vector Control mask bit of vector v; a table entry is masked at reset. -/
def vectorMasked (s : State) (v : Nat) : Bool := (tget (fun i => if i % 4 = 3 then 1 else 0) s.hostFn.table (4 * v + 3)).getLsbD 0

/-- A word of the MSI-X table. -/
def msixWord (s : State) (i : Nat) : Word := tget (fun i => if i % 4 = 3 then 1 else 0) s.hostFn.table i

def setPba (s : State) (v : Nat) (b : Bool) : State :=
  let p := s.hostFn.pba
  { s with hostFn := { s.hostFn with pba := if b then p ||| BitVec.ofNat 64 (2 ^ v) else p &&& ~~~ BitVec.ofNat 64 (2 ^ v) } }

/-- Send the message of vector v. -/
def msixSend (s : State) (v : Nat) : State :=
  emit s (.msix v ((msixWord s (4 * v)).toNat + 2 ^ 32 * (msixWord s (4 * v + 1)).toNat) (msixWord s (4 * v + 2)))

/-- A cause of vector v: discarded while MSI-X is disabled or the function is in D3hot (each such cause is counted, and
the first raises vector 3, which is discarded too), pending while masked, sent otherwise. -/
def msixCause (s : State) (v : Nat) : State :=
  if !domOn s 12 then s
  else if !s.hostFn.msixEn || getF s HB_LINK HB_LINK_DSTATE = 3 then
    let first := getF s HB_ERR HB_ERR_MSIDROP = 0
    incSat s HB_ERR HB_ERR_MSIDROP (if first then 2 else 1)
  else if s.hostFn.funcMask || vectorMasked s v then setPba s v true
  else msixSend s v

/-- Count an error of the host bridge; a count that rises from 0 is a cause of vector 3 (R517). -/
def hbErr (s : State) (f : Fld) : State :=
  let first := getF s HB_ERR f = 0
  let s := incSat s HB_ERR f 1
  if first then msixCause s 3 else s

/-! ### Responses (R521, R524) -/

/-- The words of a response frame. -/
def responseFrame (f : Frame) (status : Nat) (results : List Word) : List Word :=
  let w := [BitVec.ofNat 32 (0x5352 * 2 ^ 16 + f.code.toNat * 256 + f.tag.toNat),
            BitVec.ofNat 32 (status * 2 ^ 24 + results.length)] ++ results
  w ++ [crc32 (ofWords w)]

/-- Answer a frame: into the response FIFO whole, or counted as lost; and on SVC_TX while AUXIO is clocked (R507). -/
def respond (s : State) (f : Frame) (status : Nat) (results : List Word) : State :=
  let w := responseFrame f status results
  let s := if clocked s 17 then emit s (.uart w) else s
  if 1024 < s.mbx.rsp.length + w.length then incSat s HB_MBXCNT HB_MBXCNT_RSPLOST 1
  else
    let empty := s.mbx.rsp.isEmpty
    let s := { s with mbx := { s.mbx with rsp := s.mbx.rsp ++ w } }
    if empty then msixCause s 2 else s

/-- The executing command ends with OK and its results, and leaves the queue. -/
def finishCommand (s : State) : State :=
  match s.mbx.queue with
  | [] => s
  | f :: r =>
    let results := s.mbx.results
    let s := { s with mbx := { s.mbx with queue := r, owed := 0, results := [] } }
    respond s f 0 results

/-- One record that the executing command waits for has become durable. -/
def commandRecord (s : State) : State :=
  if s.mbx.owed ≤ 1 then finishCommand s else { s with mbx := { s.mbx with owed := s.mbx.owed - 1 } }

end Sys2Proof.Machine
end

