-- ==== Sys2Proof/Machine/Ledger.lean ====
section
/-!
DEFINITION. The ledger engine (spec chapter 13): records and their digest chain, sequence numbers, the ring, cairns,
commit requests, results, acknowledgement and anchor, the drain DMA, recovery at boot.
-/

namespace Sys2Proof.Machine

/-! ### The ring and the record (R349, R350, R362) -/

/-- Slots of the ring. -/
def ringSize : Nat := 393216

/-- Fabric address of slot i. -/
def slotAddr (i : Nat) : Nat := 0x30000000 + 128 * (i % ringSize)

/-- TIME of this moment (R350). -/
def timeNow (s : State) : BitVec 64 := BitVec.ofNat 64 (s.rtc.sec.toNat * 2 ^ 16 + 2 * s.rtc.sub.toNat)

/-- Bytes filled with zeros to n. -/
def padTo (n : Nat) (l : List Byte) : List Byte := l.take n ++ List.replicate (n - l.length) 0

/-- Bytes 0 to 95 of a record (R349). -/
def recordBytes (seq : Nat) (time : BitVec 64) (b : Body) : List Byte :=
  leBytes 8 seq ++ leBytes 8 time.toNat ++ leBytes 2 b.type.toNat ++ leBytes 2 b.payload.length ++
    leBytes 2 b.source.toNat ++ leBytes 2 b.flags.toNat ++ List.replicate 8 0 ++ padTo 64 b.payload

/-- Store bytes in the MRAM; its words are no longer poisoned. -/
def putMram (s : State) (a : Nat) (l : List Byte) : State :=
  let s := putBytes s a l
  { s with poison := tclear a (a + l.length) s.poison }

/-- The 32 bytes that eight registers show, byte 4i in [31:24] (WV_HASH, FW_HASH). -/
def hashRegs (s : State) (f : Nat → Nat) : List Byte := (List.range 8).flatMap (fun i => beBytes 4 (reg s (f i)).toNat)

/-! ### Accessors -/

def setLed (s : State) (l : Ledger) : State := { s with led := l }

def cairnInterval (s : State) : Nat := getF s LED_CAIRNINT LED_CAIRNINT_CAIRN

/-- A cairn falls due after the record with sequence number s (R366). -/
def cairnDue (s : State) (seq : Nat) : Bool := cairnInterval s != 0 && (seq + 1) % cairnInterval s == 0

/-- Slots of an entry: one for a record, two for a cairn. -/
def resvSlots (e : Resv) : Nat := if e.cairn then 2 else 1

/-- Records accepted and not durable (R361). -/
def ledgerPending (s : State) : Nat := (s.led.resv.filter (fun e => !e.cairn)).length

def ledgerOcc (s : State) : Nat := getF s LED_OCC LED_OCC_SLOTS

/-- Durable slots that no acknowledgement has freed. -/
def durableSlots (s : State) : Nat := ledgerOcc s - (s.led.resv.map resvSlots).sum

/-- Room for one more record and the cairn due with it (R365, R372). -/
def ledgerRoom (s : State) : Bool :=
  ledgerOcc s + s.led.freed + 1 + (if cairnDue s s.led.next then 2 else 0) ≤ ringSize && ledgerPending s < 2048

/-- Whether the engine accepts records (R226, R374, R376). -/
def ledgerAccepts (s : State) : Bool :=
  flag s LED_STATUS LED_STATUS_READY && !flag s LED_STATUS LED_STATUS_PFAIL && !safeHalt s

/-- LED_PEND, NOROOM and SIGNING follow the engine's state. -/
def ledgerSync (s : State) : State :=
  let s := setF s LED_PEND LED_PEND_COUNT (ledgerPending s)
  let s := setFlag s LED_STATUS LED_STATUS_NOROOM (!ledgerRoom s)
  setFlag s LED_STATUS LED_STATUS_SIGNING (s.led.resv.any (fun e => e.cairn && !e.written && !e.digest.isEmpty))

/-! ### Drawing numbers (R354, R362, R366) -/

/-- Reserve the next slots of the ring for an entry. -/
def reserveSlot (s : State) (e : Resv) : State :=
  let n := getF s LED_NEXTSLOT LED_NEXTSLOT_SLOT
  let s := setF s LED_NEXTSLOT LED_NEXTSLOT_SLOT ((n + resvSlots e) % ringSize)
  let s := setF s LED_OCC LED_OCC_SLOTS (ledgerOcc s + resvSlots e)
  setLed s { s.led with resv := s.led.resv ++ [{ e with slot := n }] }

/-- Draw the next sequence number, and reserve its slot and the cairn due after it. -/
def drawNumber (s : State) (tid : Word) (o : Origin) (b : Option Body) (a : After) : Nat × State :=
  let n := s.led.next
  let e : Resv := { seq := n, cairn := false, tid := tid, slot := 0, time := timeNow s, origin := o, body := b, after := a }
  let due := cairnDue s n
  let s := reserveSlot (setLed s { s.led with next := (n + 1) % 2 ^ 64 }) e
  let s := if due then reserveSlot s { e with cairn := true, body := none, after := .none } else s
  (n, ledgerSync s)

/-- A device's record, in order; it waits while the ring has no room. -/
def acceptRecord (s : State) (b : Body) (a : After) : State :=
  if !ledgerAccepts s then s
  else if s.led.queued.isEmpty && ledgerRoom s then (drawNumber s 0 .device (some b) a).2
  else setLed s { s.led with queued := s.led.queued ++ [(b, a)] }

/-- Accept device records that waited for room; at most n. -/
def acceptQueued : Nat → State → State
  | 0, s => s
  | n + 1, s =>
    match s.led.queued with
    | [] => s
    | (b, a) :: r =>
      if ledgerRoom s && ledgerAccepts s then
        acceptQueued n (drawNumber (setLed s { s.led with queued := r }) 0 .device (some b) a).2
      else s

/-! ### Writing, signing, durability (R353, R363, R364, R367, R368) -/

/-- The digest of sequence number `seq` is known to every entry that carries it; the record's commit word is written. -/
def markWritten (seq : Nat) (d : List Byte) (l : List Resv) : List Resv :=
  l.map (fun e => if e.seq = seq then { e with digest := d, written := e.written || !e.cairn } else e)

/-- The two parts of a slot, in the order of R363: bytes 8 to 127, then the commit word. -/
def slotParts (a : Nat) (b : List Byte) : List (Nat × List Byte) := [(a + 8, b.drop 8), (a, b.take 8)]

/-- Change the entry of `seq` that is a cairn or not, as said. -/
def setResv (s : State) (seq : Nat) (cairn : Bool) (f : Resv → Resv) : State :=
  setLed s { s.led with resv := s.led.resv.map (fun e => if e.seq == seq && e.cairn == cairn then f e else e) }

/-- Write the first of an entry's parts; the others stay to be written. -/
def writePart (s : State) (e : Resv) : State :=
  match e.todo with
  | [] => s
  | p :: r => setResv (putMram s p.1 p.2) e.seq e.cairn (fun x => { x with todo := r, digest := e.digest })

/-- A record with its digest and its parts, before the first is written (R353). -/
def recordReady (s : State) (e : Resv) (b : Body) : Resv :=
  let r := recordBytes e.seq e.time b
  let d := sha256 (s.led.chain ++ r)
  { e with digest := d, todo := slotParts (slotAddr e.slot) (r ++ d) }

/-- A record's commit word is written. -/
def recordCommitted (s : State) (e : Resv) (b : Body) : State :=
  let s := if b.type = 0x8008 then incSat s LED_VOID LED_VOID_COUNT 1 else s
  ledgerSync (setLed s { s.led with chain := e.digest, resv := markWritten e.seq e.digest s.led.resv })

/-- Write the next part of the next record of the chain, when its body has come (R363). -/
def writeRecord (s : State) : State :=
  match s.led.resv.find? (fun e => !e.cairn && !e.written) with
  | none => s
  | some e =>
    match e.body with
    | none => s
    | some b =>
      if e.todo.isEmpty then writePart s (recordReady s e b)
      else
        let s := writePart s e
        if e.todo.length = 1 then recordCommitted s e b else s

/-- Slot A and slot B of a cairn (R367). -/
def cairnBytes (s : State) (e : Resv) (key : Option (List Byte)) : List Byte :=
  let seq := leBytes 8 e.seq
  let (r, q) := match key with
    | some k => ecdsaSign (beNat k) (seq ++ e.digest)
    | none => (0, 0)
  let ver := match key with
    | some _ => leBytes 4 (keyVersion s 0).toNat
    | none => [0, 0, 0, 0]
  seq ++ leBytes 8 e.time.toNat ++ leBytes 2 0x8001 ++ [0, 0] ++ leBytes 2 0xE001 ++
    leBytes 2 (b2n key.isNone) ++ List.replicate 8 0 ++ e.digest ++ ver ++ leBytes 4 (cairnInterval s) ++
    List.replicate 8 0 ++ beBytes 48 r ++
    (beBytes 48 q ++ hashRegs s WV_HASH ++ hashRegs s FW_HASH ++ seq ++ leBytes 2 0x8001 ++ leBytes 2 2 ++ [0, 0, 0, 0])

/-- A cairn's commit word is written. -/
def cairnCommitted (s : State) (e : Resv) : State :=
  let s := incSat s LED_CAIRNCNT LED_CAIRNCNT_COUNT 1
  let s := if leNat (getBytes s (slotAddr e.slot + 22) 1) = 1 then incSat s LED_CAIRNCNT LED_CAIRNCNT_NOKEY 1 else s
  ledgerSync (setResv s e.seq true (fun x => { x with written := true }))

/-- A cairn with its parts: slot B, then slot A as R363 writes a slot (R367). -/
def cairnReady (e : Resv) (bytes : List Byte) : Resv :=
  { e with todo := (slotAddr (e.slot + 1), bytes.drop 128) :: slotParts (slotAddr e.slot) (bytes.take 128) }

/-- The next step of the first cairn whose sealed digest is known: it is signed and its slot B written, then slot A's bytes 8 to
127, then its commit word. -/
def signCairn (s : State) (upset : Bool) : State :=
  match s.led.resv.find? (fun e => e.cairn && !e.written && !e.digest.isEmpty) with
  | none => s
  | some e =>
    if e.todo.isEmpty then
      let (key, s) := useKey s 0 upset
      writePart s (cairnReady e (cairnBytes s e key))
    else
      let s := writePart s e
      if e.todo.length = 1 then cairnCommitted s e else s

/-- The result of a commit request (R359). -/
def commitResult (e : Resv) (tid lo : Word) : List Word :=
  let void := match e.body with
    | some b => b.type == 0x8008
    | none => true
  [tid, withResult lo (if void then 2 else 0), BitVec.ofNat 32 (0x10000000 + b2n void * 2 ^ 24),
   BitVec.ofNat 32 e.seq, BitVec.ofNat 32 (e.seq / 2 ^ 32)] ++ packLE e.digest

/-- The router of the draw unit and of the event fabric (R19). -/
def drawRouter : Nat := 12

/-- What follows a durable record. -/
def runAfter (s : State) (e : Resv) : State :=
  match e.after with
  | .none => s
  | .weft tid lo => pushPacket s (masterRouter 35) 0xFF010 (commitResult e tid lo)
  | .draw words => pushPacket s drawRouter 0xFF010 words
  | .load => setFlag s TLY_STATUS TLY_STATUS_LDBUSY
      (s.led.resv.any (fun x => x.after == .load) || s.led.queued.any (fun x => x.2 == .load))
  | .mailbox => commandRecord s
  | .tamper n => putMram s 0x33100010 (leBytes 8 n)

/-- The durable head passes every written entry at the front (R364); at most n. -/
def advanceDurable : Nat → State → State
  | 0, s => s
  | n + 1, s =>
    match s.led.resv with
    | [] => s
    | e :: r =>
      if !e.written then s
      else
        let s := setLed s { s.led with resv := r }
        let s := setF s LED_DURSLOT LED_DURSLOT_SLOT ((e.slot + resvSlots e) % ringSize)
        if e.cairn then advanceDurable n (produce s 160)
        else
          let s := setReg s LED_DURSEQLO (BitVec.ofNat 32 e.seq)
          let s := setReg s LED_DURSEQHI (BitVec.ofNat 32 (e.seq / 2 ^ 32))
          let s := (packLE e.digest).zipIdx.foldl (fun s p => setReg s (LED_HEADDIG p.2) p.1) s
          advanceDurable n (runAfter s e)

/-- The head advances over what is written. -/
def advanceAll (s : State) : State := ledgerSync (advanceDurable s.led.resv.length s)

/-- Write, sign and advance until nothing more can be done; each round writes a part of a record or of a cairn. -/
def settleLedger : Nat → State → State
  | 0, s => s
  | n + 1, s =>
    let s := acceptQueued s.led.queued.length s
    if s.led.resv.isEmpty then s else settleLedger n (advanceAll (signCairn (writeRecord s) false))

/-- Everything accepted becomes durable as far as bodies have come. -/
def finishLedger (s : State) : State := settleLedger (3 * s.led.resv.length + 6 * s.led.queued.length + 2) s

/-! ### Commit requests (R357, R358, R626) -/

/-- A VOID record's body. -/
def voidBody (tid : Word) (reason : Nat) : Body :=
  { type := 0x8008, source := 0xE001, payload := leBytes 4 tid.toNat ++ [BitVec.ofNat 8 reason] }

/-- Give entry `seq` its body and what follows its durability. -/
def giveBody (s : State) (seq : Nat) (b : Body) (a : After) : State :=
  setLed s { s.led with resv := s.led.resv.map (fun e =>
    if !e.cairn && e.seq == seq then { e with body := some b, after := a } else e) }

/-- TYPE and SOURCE of a firmware record (R351). -/
def firmwareTypes (type source : Nat) : Bool :=
  0x0001 ≤ type && type ≤ 0x7FFF && (source ≤ 0x1F || (0x0100 ≤ source && source ≤ 0x010F))

/-- The body that words 1 and 2 and the payload words give, or the reason of a VOID record. -/
def bodyOf (w1 w2 : Word) (payload : List Word) : Except Nat Body :=
  let len := bitsOf w1.toNat 31 16
  let type := bitsOf w1.toNat 15 0
  let source := bitsOf w2.toNat 31 16
  if 64 < len then .error 4
  else if !firmwareTypes type source then .error 5
  else .ok { type := BitVec.ofNat 16 type, source := BitVec.ofNat 16 source, flags := BitVec.ofNat 16 w2.toNat,
             payload := padTo len (ofWords payload) }

/-- The body of a commit request whose SEQ words were readable, with the reasons in the order of their table. -/
def requestBody (p : Packet) (tid : Word) (valid : Bool) (body : Packet) : Except Nat Body :=
  let narg := p.words.length - 5
  if valid then
    if body.words.isEmpty then .error 1
    else if body.words.length != 19 || !body.whole then .error 2
    else if p.bad || body.bad then .error 3
    else
      match bodyOf (body.words.getD 1 0) (body.words.getD 2 0) (body.words.drop 3) with
      | .error r => .error r
      | .ok b => if body.words.getD 0 0 = tid then .ok b else .error 5
  else if narg < 2 then .error 2
  else if p.bad then .error 3
  else bodyOf (p.words.getD 3 0) (p.words.getD 4 0) ((p.words.drop 5).take (narg - 2))

/-- A number drawn at a ledger stage's commit point whose request has not come. -/
def awaits (o : Origin) (e : Resv) : Bool := !e.cairn && e.origin == o && e.body.isNone

/-- The last two words of a packet as SEQ. -/
def packetSeq (l : List Word) : Nat :=
  let n := l.length
  (l.getD (n - 2) 0).toNat + 2 ^ 32 * (l.getD (n - 1) 0).toNat

/-- One commit request that has been popped; its body packet is popped with upset v (R357, R358, R626). -/
def commitRequest (s : State) (p : Packet) (v : QueueUpset) : State :=
  let lo := p.words.getD 1 0
  if p.words.length < 5 || p.lastBad then
    match s.led.resv.find? (awaits .commit) with
    | none => incSat s LED_REQERR LED_REQERR_FORGED 1
    | some e =>
      let r := if p.words.length < 5 then 2 else 3
      giveBody s e.seq (voidBody e.tid r) (.weft e.tid lo)
  else
    match s.led.resv.find? (fun e => awaits .commit e && e.seq == packetSeq p.words) with
    | none => incSat s LED_REQERR LED_REQERR_FORGED 1
    | some e =>
      let w2 := (p.words.getD 2 0).toNat
      let valid := bitsOf w2 20 20 = 1
      let (body, s) := if valid then popPacket s (masterRouter 35) (bitsOf w2 19 0) v else (packetOf [], s)
      match requestBody p e.tid valid body with
      | .ok b => giveBody s e.seq b (.weft e.tid lo)
      | .error r => giveBody s e.seq (voidBody e.tid r) (.weft e.tid lo)

/-- The request at the front of a request queue is a triad's direct one (R360, R402). -/
def directFront (s : State) (q : Nat) : Bool := 3 ≤ peekLen s q && (peekAt s q 2).getLsbD 31

/-- The engine takes the commit request at the front of its queue; u and v are the upsets that its pops meet. -/
def ledgerCommit (s : State) (u v : QueueUpset) : State :=
  if !ledgerAccepts s || !pktReady s (masterRouter 35) 0xFF300 || directFront s 0xFF300 then s
  else
    let (p, s) := popPacket s (masterRouter 35) 0xFF300 u
    if p.words.isEmpty then s else commitRequest s p v

/-- A direct request (R360): HEAD, or DENIED. -/
def ledgerDirect (s : State) (u : QueueUpset) : State :=
  if safeHalt s || !pktReady s (masterRouter 35) 0xFF300 || !directFront s 0xFF300 then s
  else
    let (p, s) := popPacket s (masterRouter 35) 0xFF300 u
    if p.bad then s
    else
      let t := bitsOf (p.words.getD 2 0).toNat 28 24
      let op := bitsOf (p.words.getD 3 0).toNat 31 28
      let front := [p.words.getD 0 0, p.words.getD 1 0]
      let answer :=
        if op = 2 then [0x20000000, reg s LED_DURSEQLO, reg s LED_DURSEQHI] ++
          (List.range 8).map (fun i => reg s (LED_HEADDIG i))
        else BitVec.ofNat 32 (op * 2 ^ 28 + 0x2000000) :: List.replicate 10 0
      pushPacket s (masterRouter 35) (0xFF340 + t) (front ++ answer)

/-- Every request that has reached the engine is taken, the direct ones among them (R374); at most n. -/
def takeCommits : Nat → State → State
  | 0, s => s
  | n + 1, s =>
    takeCommits n (if directFront s 0xFF300 then ledgerDirect s .none else ledgerCommit s .none .none)

/-- Every number drawn whose request has not come takes a VOID record with reason 6 (R374). -/
def voidRest (s : State) : State :=
  (s.led.resv.filter (fun e => awaits .commit e || awaits .draw e)).foldl
    (fun s e => giveBody s e.seq (voidBody e.tid 6) .none) s

/-! ### Acknowledgement and anchor (R371, R372) -/

/-- First sequence number that is not durable. -/
def durableNext (s : State) : Nat :=
  match s.led.resv.find? (fun e => !e.cairn) with
  | some e => e.seq
  | none => s.led.next

/-- Walk the durable slots from `slot` over what an acknowledgement of S frees: slots freed, first slot kept, and the
digest of the last record freed; at most n entries. -/
def ackWalk (s : State) (S : Nat) : Nat → Nat → Nat → List Byte → Nat × Nat × List Byte
  | 0, slot, freed, d => (freed, slot, d)
  | n + 1, slot, freed, d =>
    if durableSlots s ≤ freed then (freed, slot, d)
    else
      let a := slotAddr slot
      let seq := leNat (getBytes s a 8)
      if S < seq then (freed, slot, d)
      else if leNat (getBytes s (a + 16) 2) = 0x8001 then ackWalk s S n ((slot + 2) % ringSize) (freed + 2) d
      else ackWalk s S n ((slot + 1) % ringSize) (freed + 1) (getBytes s (a + 96) 32)

/-- An acknowledgement that is not applied is counted; source 67 when the count rises (R371, R408). -/
def ackErr (s : State) (f : Fld) : State :=
  if getF s LED_ACKERR f = 0xFFFF then s else srcEvent (incSat s LED_ACKERR f 1) 67

/-- Apply the acknowledgement of S (R371). -/
def applyAck (s : State) (S : Nat) : State :=
  if flag s LED_STATUS LED_STATUS_PFAIL then s
  else if S < s.led.acked then ackErr s LED_ACKERR_OLD
  else if durableNext s ≤ S || s.led.resv.any (fun e => e.cairn && e.seq == S) then
    ackErr s LED_ACKERR_AHEAD
  else
    let (n, slot, d) := ackWalk s S ringSize (getF s LED_FIRSTSLOT LED_FIRSTSLOT_SLOT) 0 (List.replicate 32 0)
    let s := setF s LED_OCC LED_OCC_SLOTS (ledgerOcc s - n)
    let s := setF s LED_FIRSTSLOT LED_FIRSTSLOT_SLOT slot
    let s := setReg (setReg s LED_ACKLO (BitVec.ofNat 32 S)) LED_ACKHI (BitVec.ofNat 32 (S / 2 ^ 32))
    let s := setFlag s LED_STATUS LED_STATUS_ANCHORPEND true
    let l := s.led
    ledgerSync (setLed s { l with acked := S + 1, freed := l.freed + n,
                                  anchor := some { seq := S + 1, slot := slot, dig := d } })

/-- A write of LED_ACKHI (R371). -/
def ackHi (s : State) (w : Word) : State := applyAck s (s.led.ackLo.toNat + 2 ^ 32 * w.toNat)

/-- The 64 bytes of an anchor copy (R559). -/
def anchorBytes (a : Anchor) : List Byte :=
  let b := leBytes 8 a.seq ++ leBytes 4 a.slot ++ [0, 0, 0, 0] ++ padTo 32 a.dig ++ List.replicate 12 0
  b ++ leBytes 4 (crc32 b).toNat

/-- The pending anchor copy becomes durable (R372). -/
def anchorDurable (s : State) : State :=
  match s.led.anchor with
  | none => s
  | some a =>
    let s := putMram s (0x33100100 + 0x40 * s.led.copy) (anchorBytes a)
    let s := setFlag s LED_STATUS LED_STATUS_ANCHORPEND false
    let s := setLed s { s.led with anchor := none, copy := 1 - s.led.copy, freed := 0 }
    ledgerSync (acceptQueued s.led.queued.length s)

/-! ### Drain DMA (R373) -/

/-- Slots that the drain DMA may copy, from LED_FIRSTSLOT on (R373). DEDUCED: without an anchor, where LED_FIRSTSLOT equals
LED_DURSLOT and R376 has the DMA still serve the ring, they are the whole ring (log entry 84). -/
def drainSlots (s : State) : Nat := if flag s LED_RECOV LED_RECOV_NOANCHOR then ringSize else durableSlots s

/-- A write of GO = 1. -/
def drainGo (s : State) : State :=
  if flag s LED_DMACTL LED_DMACTL_BUSY || flag s LED_STATUS LED_STATUS_PFAIL then s
  else
    let slot := getF s LED_DMASLOT LED_DMASLOT_SLOT
    let n := getF s LED_DMACNT LED_DMACNT_COUNT
    let first := getF s LED_FIRSTSLOT LED_FIRSTSLOT_SLOT
    let off := (slot + ringSize - first) % ringSize
    if n = 0 || 65536 < n || ringSize ≤ slot || drainSlots s < off + n then setFlag s LED_DMACTL LED_DMACTL_ERR true
    else
      let host := (reg s LED_DMAHADRLO).toNat / 128 * 128 + 2 ^ 32 * (reg s LED_DMAHADRHI).toNat
      let s := setFlag s LED_DMACTL LED_DMACTL_BUSY true
      setLed s { s.led with job := some { host := host, slot := slot, count := n } }

/-- The bytes of n slots from `slot` on, modulo the ring. -/
def ringBytes (s : State) : Nat → Nat → List Byte
  | 0, _ => []
  | n + 1, slot => getBytes s (slotAddr slot) 128 ++ ringBytes s n (slot + 1)

/-- The running copy ends without completing (R373, R252). -/
def drainStop (s : State) : State :=
  setFlag (setLed s { s.led with job := none }) LED_DMACTL LED_DMACTL_BUSY false

/-- The running copy completes. DESIGN CHOICE: over a failed route to the host bridge it ends without DONE, ERR or message (R250,
log entry 83). -/
def drainDone (s : State) : State :=
  match s.led.job with
  | none => s
  | some j =>
    if routeFailed s (masterRouter 35) (masterRouter 36) then routeLost (drainStop s) else
    let s := emit s (.hostWrite j.host (ringBytes s j.count j.slot))
    let was := flag s LED_DMACTL LED_DMACTL_DONE
    let s := setFlag (setFlag s LED_DMACTL LED_DMACTL_BUSY false) LED_DMACTL LED_DMACTL_DONE true
    let s := setLed s { s.led with job := none }
    if was then s else msixCause (produce s 159) 1

/-! ### The head snapshot (R386) -/

/-- The registers that a read of LED_DURSEQLO latches. -/
def ledgerSnapshot (s : State) : List Word :=
  [reg s LED_DURSEQHI, reg s LED_FIRSTSLOT, reg s LED_DURSLOT] ++ (List.range 8).map (fun i => reg s (LED_HEADDIG i))

/-- A read of LED_DURSEQLO. -/
def durSeqRead (s : State) : Word × State :=
  (reg s LED_DURSEQLO, setLed s { s.led with snap := ledgerSnapshot s })

/-! ### Recovery at boot (R376) -/

/-- Anchor copy i as the boot control block holds it. -/
def anchorCopy (s : State) (i : Nat) : List Byte := getBytes s (0x33100100 + 0x40 * i) 64

def anchorBlank (l : List Byte) : Bool := l.all (· == 0)

def anchorValid (l : List Byte) : Bool := (crc32 (l.take 60)).toNat == leNat (l.drop 60)

def anchorOf (l : List Byte) : Anchor :=
  { seq := leNat (l.take 8), slot := leNat ((l.drop 8).take 4), dig := (l.drop 16).take 32 }

/-- The anchor of R376 and the copy it comes from; none when no copy is valid and one is not blank. -/
def chooseAnchor (s : State) : Option (Anchor × Nat) :=
  let a := anchorCopy s 0
  let b := anchorCopy s 1
  match anchorValid a, anchorValid b with
  | true, true => if (anchorOf a).seq < (anchorOf b).seq then some (anchorOf b, 1) else some (anchorOf a, 0)
  | true, false => some (anchorOf a, 0)
  | false, true => some (anchorOf b, 1)
  | false, false =>
    if anchorBlank a && anchorBlank b then some ({ seq := 0, slot := 0, dig := List.replicate 32 0 }, 0) else none

/-- The scan from slot i with expected SEQ e and digest d: slots passed, e, d; at most n slots. -/
def ringScan (s : State) : Nat → Nat → Nat → Nat → List Byte → Nat × Nat × List Byte
  | 0, _, c, e, d => (c, e, d)
  | n + 1, i, c, e, d =>
    let a := slotAddr i
    let r := getBytes s a 128
    let next := slotAddr (i + 1)
    if leNat (r.take 8) = e && r.drop 96 == sha256 (d ++ r.take 96) then
      ringScan s n ((i + 1) % ringSize) (c + 1) (e + 1) (r.drop 96)
    else if leNat (r.take 8) + 1 = e && leNat ((r.drop 16).take 2) = 0x8001 && (r.drop 32).take 32 == d &&
        leNat (getBytes s (next + 112) 8) + 1 = e && c + 2 ≤ ringSize then
      ringScan s n ((i + 2) % ringSize) (c + 2) e d
    else (c, e, d)

/-- The boot scan: the engine's state and registers from the anchor and the ring, WS_SEQHI with the number it gives the sequencer
(R301); false when there is no anchor. -/
def ledgerScan (s : State) : State × Bool :=
  let bad (i : Nat) : Bool := !anchorValid (anchorCopy s i) && !anchorBlank (anchorCopy s i)
  let s := setFlag s LED_RECOV LED_RECOV_ANCHORBAD (bad 0 || bad 1)
  match chooseAnchor s with
  | none => (setFlag s LED_RECOV LED_RECOV_NOANCHOR true, false)
  | some (a, copy) =>
    let blank := anchorBlank (anchorCopy s 0) && anchorBlank (anchorCopy s 1)
    let (c, e, d) := ringScan s ringSize a.slot 0 a.seq a.dig
    let stop := (a.slot + c) % ringSize
    let head := if e = 0 then 2 ^ 64 - 1 else e - 1
    let s := setLed s { resv := [], next := e, chain := d, acked := a.seq, ackLo := BitVec.ofNat 32 (a.seq + 2 ^ 32 - 1),
                        copy := if blank then 0 else 1 - copy }
    let s := setFlag s LED_RECOV LED_RECOV_FRESH blank
    let s := setF s LED_RECOV LED_RECOV_ANCHORCOPY copy
    let s := setF s LED_RECOV LED_RECOV_SCANNED c
    let s := setF s LED_NEXTSLOT LED_NEXTSLOT_SLOT stop
    let s := setF s LED_DURSLOT LED_DURSLOT_SLOT stop
    let s := setF s LED_FIRSTSLOT LED_FIRSTSLOT_SLOT a.slot
    let s := setF s LED_OCC LED_OCC_SLOTS c
    let s := setReg (setReg s LED_DURSEQLO (BitVec.ofNat 32 head)) LED_DURSEQHI (BitVec.ofNat 32 (head / 2 ^ 32))
    let s := (packLE d).zipIdx.foldl (fun s p => setReg s (LED_HEADDIG p.2) p.1) s
    let ack := a.seq + 2 ^ 64 - 1
    let s := setReg (setReg s LED_ACKLO (BitVec.ofNat 32 ack)) LED_ACKHI (BitVec.ofNat 32 (ack / 2 ^ 32))
    let s := setLed s { s.led with snap := ledgerSnapshot s }
    let s := { s with weft := { s.weft with seqLatch := BitVec.ofNat 32 (e / 2 ^ 32) } }
    (ledgerSync (setFlag s LED_STATUS LED_STATUS_READY true), true)

end Sys2Proof.Machine
end

