-- ==== Sys2Proof/Machine/Draw.lean ====
section
/-!
DEFINITION. The draw unit (spec chapter 14): entropy source with its health tests, conditioning, the three DRBG
instances, RANGE and KOFN draws, the DRAW record and its result, direct requests, the power-fail end of requests.
-/

namespace Sys2Proof.Machine

def setDrw (s : State) (d : Draw) : State := { s with drw := d }

/-! ### Entropy source (R387 to R390) -/

/-- SOURCE of DRW_STATUS: 0 not started, 1 OK, 2 restarting, 3 FAILED. -/
def entropySource (s : State) : Nat := getF s DRW_STATUS DRW_STATUS_SOURCE

/-- A health-test failure: counted, shared source 80; the second within 1 s makes the source FAILED, with a DETECT entry. -/
def healthFail (s : State) (f : Fld) : State :=
  let s := srcEvent (incSat s DRW_HEALTH f 1) 80
  let again := match s.drw.failAt with
    | some t => decide (s.slck ≤ t + 32768)
    | none => false
  let s := setDrw s { s.drw with failAt := some s.slck, run := 0 }
  if again then logFault (setF s DRW_STATUS DRW_STATUS_SOURCE 3) .detect noElem noElem 0
  else setF s DRW_STATUS DRW_STATUS_SOURCE 2

/-- The bits of a byte string, bit 7 of byte 0 first. -/
def bitsMsb (l : List Byte) : List Bool := l.flatMap (fun b => (List.range 8).map (fun i => b.getLsbD (7 - i)))

/-- Repetition count test (C = 41): the last bit and its run after more bits, and whether a run reached C. -/
def repetition : List Bool → Bool → Nat → Bool × Nat × Bool
  | [], b, n => (b, n, false)
  | x :: r, b, n =>
    let n := if x == b then n + 1 else 1
    if 41 ≤ n then (x, n, true) else repetition r x n

/-- Adaptive proportion test of one window of 1,024 bits (cutoff 589): true when it fails. -/
def proportionFails (w : List Bool) : Bool :=
  match w with
  | [] => false
  | b :: _ => 589 ≤ (w.filter (· == b)).length

/-- Test 1,024 raw bits: the state after, and whether they passed. -/
def testWindow (s : State) (block : List Byte) : State × Bool :=
  let w := bitsMsb block
  let (b, n, bad) := repetition w s.drw.lastBit s.drw.run
  let s := setDrw s { s.drw with lastBit := b, run := n }
  if bad then (healthFail s DRW_HEALTH_RCTFAIL, false)
  else if proportionFails w then (healthFail s DRW_HEALTH_APTFAIL, false)
  else (s, true)

/-- n open words. -/
def freeWords : Nat → State → List Word × State
  | 0, s => ([], s)
  | n + 1, s =>
    let (w, s) := drawFree s
    let (l, s) := freeWords n s
    (w :: l, s)

/-- The next 1,024 raw bits of the jitter source: from the noise that the command brings, or open values once less than a
window of it is left (log entry 2); with the noise that is left. -/
def rawBits (s : State) (noise : List Byte) : List Byte × List Byte × State :=
  if 128 ≤ noise.length then (noise.take 128, noise.drop 128, s)
  else
    let (l, s) := freeWords 32 s
    (ofWords l, [], s)

/-- One window of raw bits, tested and conditioned (R388, R389); none when it fails. -/
def rawWindow (s : State) (noise : List Byte) : Option (List Byte) × List Byte × State :=
  let (b, noise, s) := rawBits s noise
  let (s, ok) := testWindow s b
  (if ok then some (sha256 b) else none, noise, s)

/-- The start-up test: four windows, tested and discarded. -/
def startUp : Nat → List Byte → State → Bool × List Byte × State
  | 0, noise, s => (true, noise, setF s DRW_STATUS DRW_STATUS_SOURCE 1)
  | n + 1, noise, s =>
    match rawWindow s noise with
    | (none, noise, s) => (false, noise, s)
    | (some _, noise, s) => startUp n noise s

/-- Collect k conditioned blocks; at most `fuel` windows and start-up tests; none when the source is FAILED. -/
def collectBlocks : Nat → Nat → List Byte → State → Option (List Byte) × List Byte × State
  | 0, _, noise, s => (none, noise, s)
  | _ + 1, 0, noise, s => (some [], noise, s)
  | f + 1, k + 1, noise, s =>
    if entropySource s = 3 then (none, noise, s)
    else if entropySource s != 1 then
      let (_, noise, s) := startUp 4 noise s
      collectBlocks f (k + 1) noise s
    else
      match rawWindow s noise with
      | (none, noise, s) => collectBlocks f (k + 1) noise s
      | (some b, noise, s) =>
        match collectBlocks f k noise s with
        | (none, noise, s) => (none, noise, s)
        | (some l, noise, s) => (some (b ++ l), noise, s)

/-- Host-supplied entropy is in use (EXTENT, before sealing). -/
def extEntropy (s : State) : Bool := flag s DRW_CTL DRW_CTL_EXTENT && !flag s MOD_STATUS MOD_STATUS_SEALED

/-- The bytes of DRW_ENTIN words, byte [31:24] first. -/
def entinBytes (l : List Word) : List Byte := l.flatMap (fun w => beBytes 4 w.toNat)

/-- k conditioned blocks from the source in use, and the noise that is left. -/
def conditioned (s : State) (k : Nat) (noise : List Byte) : Option (List Byte) × List Byte × State :=
  if extEntropy s then
    (some (entinBytes (s.drw.entin.take (8 * k))), noise, setDrw s { s.drw with entin := s.drw.entin.drop (8 * k) })
  else collectBlocks 40 k noise s

/-! ### Instances (R391 to R393) -/

/-- The three instances take one state; the count of calls since instantiation or reseed is shown. -/
def setInstances (s : State) (d : Drbg) : State :=
  setF (setDrw s { s.drw with d0 := d, d1 := d, d2 := d }) DRW_GENCNT DRW_GENCNT_COUNT d.count

/-- NOSEED, READY and EXTACT follow the unit's state. -/
def drawSync (s : State) : State :=
  let s := setFlag s DRW_STATUS DRW_STATUS_NOSEED (!keyPresent s 3)
  let s := setFlag s DRW_STATUS DRW_STATUS_EXTACT (extEntropy s)
  setFlag s DRW_STATUS DRW_STATUS_READY
    (keyPresent s 3 && flag s DRW_STATUS DRW_STATUS_SEEDED && !s.drw.due)

/-- The instances are cleared (R585). -/
def clearInstances (s : State) : State :=
  drawSync (setFlag (setInstances (setDrw s { s.drw with due := false }) {}) DRW_STATUS DRW_STATUS_SEEDED false)

/-- Instantiate with personalization string p: false when no entropy comes; with the noise that is left. -/
def instantiate (s : State) (p : List Byte) (noise : List Byte) : State × List Byte × Bool :=
  match conditioned s 3 noise with
  | (none, noise, s) => (s, noise, false)
  | (some b, noise, s) =>
    let (k, v) := drbgInstantiate (b.take 48) ((b.drop 64).take 16) p
    let s := setInstances s { key := k, v := v, count := 0 }
    let s := setFlag (setDrw s { s.drw with due := false }) DRW_STATUS DRW_STATUS_SEEDED true
    (incWrap s DRW_RESEEDS DRW_RESEEDS_COUNT 1, noise, true)

/-- Reseed: false when no entropy comes. -/
def reseed (s : State) (noise : List Byte) : State × Bool :=
  match conditioned s 2 noise with
  | (none, _, s) => (s, false)
  | (some b, _, s) =>
    let (k, v) := drbgReseed s.drw.d0.key s.drw.d0.v (b.take 48)
    let s := setInstances s { key := k, v := v, count := 0 }
    let s := setFlag s DRW_CTL DRW_CTL_RESEED false
    (incWrap s DRW_RESEEDS DRW_RESEEDS_COUNT 1, true)

/-- An instantiation is due before the next draw (R392, R393). -/
def instDue (s : State) : Bool := s.drw.due || !flag s DRW_STATUS DRW_STATUS_SEEDED

/-- A reseed is due before the next draw (R392). -/
def reseedDue (s : State) : Bool := 65520 ≤ s.drw.d0.count || flag s DRW_CTL DRW_CTL_RESEED

/-- The conditioned blocks that the next draw needs first. -/
def seedNeed (s : State) : Nat :=
  if instDue s then 3 + 2 * b2n (flag s DRW_CTL DRW_CTL_RESEED) else 2 * b2n (reseedDue s)

/-- What is due before a draw, the instantiation, then the reseed: whether one ran, and false when no entropy comes. -/
def seedUp (s : State) (p : List Byte) (noise : List Byte) : State × Bool × Bool :=
  let due := instDue s
  let (s, noise, ok) := if due then instantiate s p noise else (s, noise, true)
  if ok && reseedDue s then
    let (s, done) := reseed s noise
    (s, due || done, done)
  else (s, due && ok, ok)

/-! ### The output stream (R394, R396) -/

/-- A draw under way: the words of the last call that are left, calls made, rejections, the DRBG state, the calls that can be
made. -/
structure Stream where
  left : List Nat
  calls : Nat
  rej : Nat
  key : List Byte
  v : Nat
  cap : Nat

/-- The next word of the stream; none when every call has been used up: sixteen, or those before one whose three outputs all
differ (R393, R394). -/
def streamWord (add : List Byte) (x : Stream) : Option Nat × Stream :=
  match x.left with
  | w :: r => (some w, { x with left := r })
  | [] =>
    if x.cap ≤ x.calls then (none, x)
    else
      let (out, k, v) := drbgGenerate x.key x.v (add.take 8 ++ leBytes 4 x.calls ++ add.drop 8)
      match (pieces 4 16 out).map beNat with
      | [] => (none, x)
      | w :: r => (some w, { x with left := r, calls := x.calls + 1, key := k, v := v })

/-- A uniform integer below m (R396); none when the stream ends. -/
def uniform (add : List Byte) (m : Nat) : Nat → Stream → Option Nat × Stream
  | 0, x => (none, x)
  | f + 1, x =>
    match streamWord add x with
    | (none, x) => (none, x)
    | (some w, x) =>
      if 2 ^ 32 - 2 ^ 32 % m ≤ w then uniform add m f { x with rej := x.rej + 1 } else (some (w % m), x)

/-- n values from lo with range m, with replacement. -/
def drawRange (add : List Byte) (lo m : Nat) : Nat → Stream → Option (List Nat) × Stream
  | 0, x => (some [], x)
  | n + 1, x =>
    match uniform add m 257 x with
    | (none, x) => (none, x)
    | (some u, x) =>
      match drawRange add lo m n x with
      | (none, x) => (none, x)
      | (some l, x) => (some ((lo + u) :: l), x)

/-- The partial shuffle: k more values from position i of N on; `a` holds the positions that differ from base + x. -/
def drawKofn (add : List Byte) (base N : Nat) : Nat → Nat → Tab Nat → Stream → Option (List Nat) × Stream
  | 0, _, _, x => (some [], x)
  | k + 1, i, a, x =>
    match uniform add (N - i) 257 x with
    | (none, x) => (none, x)
    | (some u, x) =>
      let j := i + u
      let ai := tget (base + ·) a i
      let aj := tget (base + ·) a j
      let a := tset (base + ·) (tset (base + ·) a i aj) j ai
      match drawKofn add base N k (i + 1) a x with
      | (none, x) => (none, x)
      | (some l, x) => (some (aj :: l), x)

/-! ### Requests (R395, R397 to R399) -/

/-- The limits of R395. -/
def drawLimits (op count arg1 arg2 : Nat) : Bool :=
  if op = 1 then 1 ≤ count && count ≤ 9 && arg1 ≤ arg2
  else
    let n := arg2
    arg1 < 2 ^ 16 && n < 2 ^ 13 && 1 ≤ count && count ≤ 18 && count ≤ n && n ≤ 4096 && arg1 + n ≤ 65536

/-- A word of ARG0 whose bits [27:5] are zero. -/
def opWordOk (w : Nat) : Bool := bitsOf w 27 5 == 0

/-- A draw's outcome: STATUS, result bytes, calls, rejections, GENCNT before it, whether it was seeded first. -/
structure DrawOut where
  status : Nat
  results : List Byte := []
  rej : Nat := 0
  gen : Nat := 0
  seeded : Bool := false

/-- The draw itself once the instances are ready, in which instances disagree as `bad` says (R393): one that stands alone is
loaded again before the draw ends, so MASKED shows none. -/
def runDraw (s : State) (seq op count a0 a1 a2 : Nat) (seeded : Bool) (bad : DrbgUpset) : DrawOut × State :=
  let gen := s.drw.d0.count
  let add := leBytes 8 seq ++ leBytes 4 a0 ++ leBytes 4 a1 ++ leBytes 4 a2
  let cap := match bad with
    | .all c => c.toNat
    | .none | .one _ => 16
  let x0 : Stream := { left := [], calls := 0, rej := 0, key := s.drw.d0.key, v := s.drw.d0.v, cap := cap }
  let (r, x) := if op = 1 then drawRange add a1 (a2 - a1 + 1) count x0 else drawKofn add a1 a2 count 0 [] x0
  let vote (s : State) : State := incSat s DRW_VOTE DRW_VOTE_COUNT 1
  let s := setInstances s { key := x.key, v := x.v, count := s.drw.d0.count + x.calls }
  let out : DrawOut := { status := 0, rej := x.rej, gen := gen, seeded := seeded }
  let s := match bad with
    | .one _ => maskedFault (vote s) noElem
    | .none | .all _ => s
  match r with
  | some l => ({ out with results := l.flatMap (leBytes (if op = 1 then 4 else 2)) }, s)
  | none =>
    if 16 ≤ x.calls then ({ out with status := 3 }, s)
    else
      let (_, x1) := streamWord add { x with cap := 16 }
      let s := setInstances s { key := x1.key, v := x1.v, count := s.drw.d0.count + 1 }
      let s := logFault (vote s) .detect noElem noElem 0
      ({ out with status := 1 }, setDrw s { s.drw with due := true })

/-- Seed the instances where that is due, then draw (R392). -/
def seedAndDraw (s : State) (seq op count a0 a1 a2 : Nat) (noise : List Byte) (bad : DrbgUpset) (keyBad : Bool) :
    DrawOut × State :=
  match useKey s 3 keyBad with
  | (none, s) => ({ status := 2, gen := s.drw.d0.count }, s)
  | (some p, s) =>
    let (s, ran, ok) := seedUp s p noise
    if !ok then ({ status := 1, gen := s.drw.d0.count, seeded := ran }, s)
    else runDraw s seq op count a0 a1 a2 ran bad

/-- The DRAW record of a request (R398). -/
def drawBody (tid a0 a1 a2 : Word) (o : DrawOut) : Body :=
  let r := if o.status = 0 then o.results else []
  { type := 0x8009, source := 0xE002, flags := BitVec.ofNat 16 (o.status + 16 * b2n o.seeded)
    payload := leBytes 4 tid.toNat ++ leBytes 4 a0.toNat ++ leBytes 4 a1.toNat ++ leBytes 4 a2.toNat ++
      leBytes 4 o.gen ++ leBytes 4 o.rej ++ padTo ((r.length + 3) / 4 * 4) r }

/-- RESULT that a STATUS of the draw unit carries. -/
def drawResult (status : Nat) : Nat := if status = 0 then 0 else if 4 ≤ status && status ≤ 6 then 2 else 1

/-- The result packet (R399). -/
def drawAnswer (tid lo a0 : Word) (seq : Nat) (o : DrawOut) : List Word :=
  let r := if o.status = 0 then o.results else []
  [tid, withResult lo (drawResult o.status),
   BitVec.ofNat 32 (bitsOf a0.toNat 31 28 * 2 ^ 28 + o.status * 2 ^ 24 + bitsOf a0.toNat 4 0),
   BitVec.ofNat 32 seq, BitVec.ofNat 32 (seq / 2 ^ 32)] ++ packLE (padTo ((r.length + 3) / 4 * 4) r)

/-- DRW_DRAWS and DRW_ERR count an outcome. -/
def drawCount (s : State) (status : Nat) : State :=
  match status with
  | 0 => incSat s DRW_DRAWS DRW_DRAWS_COUNT 1
  | 1 => incSat s DRW_ERR DRW_ERR_NOENT 1
  | 2 => incSat s DRW_ERR DRW_ERR_NOSEED 1
  | 3 => incSat s DRW_ERR DRW_ERR_EXHAUST 1
  | 7 => s
  | _ => incSat s DRW_ERR DRW_ERR_BAD 1

/-- The reserved number that a request's SEQ words name, or the next one reserved for a draw when they are not
readable (R397). -/
def drawEntry (s : State) (p : Packet) : Option Resv :=
  if p.words.length < 5 || p.lastBad then s.led.resv.find? (awaits .draw)
  else s.led.resv.find? (fun e => awaits .draw e && e.seq == packetSeq p.words)

/-- A popped request ends with an outcome: its record goes to the ledger engine under its number. -/
def drawHand (s : State) (e : Resv) (p : Packet) (o : DrawOut) : State :=
  let w (i : Nat) : Word := if i + 2 < p.words.length then p.words.getD i 0 else 0
  let b := drawBody e.tid (w 3) (w 4) (w 5) o
  drawCount (giveBody s e.seq b (.draw (drawAnswer e.tid (p.words.getD 1 0) (w 3) e.seq o))) o.status

/-- One draw request that has been popped. -/
def drawRequest (s : State) (p : Packet) (e : Resv) (noise : List Byte) (bad : DrbgUpset) (keyBad : Bool) : State :=
  let a0 := (p.words.getD 3 0).toNat
  let a1 := (p.words.getD 4 0).toNat
  let a2 := (p.words.getD 5 0).toNat
  let op := bitsOf a0 31 28
  let gen := s.drw.d0.count
  if p.bad || p.words.length != 8 then drawHand s e p { status := 4, gen := gen }
  else if op != 1 && op != 2 then drawHand s e p { status := 5, gen := gen }
  else if !opWordOk a0 || !drawLimits op (bitsOf a0 4 0) a1 a2 then drawHand s e p { status := 4, gen := gen }
  else
    let (o, s) := seedAndDraw s e.seq op (bitsOf a0 4 0) a0 a1 a2 noise bad keyBad
    drawSync (drawHand s e p o)

/-- Whether the unit waits for DRW_ENTIN bytes before the next draw. -/
def entinShort (s : State) : Bool := extEntropy s && keyPresent s 3 && s.drw.entin.length < 8 * seedNeed s

/-- The unit pops the request at the front of its queue, a weft dispatch; one that names no number reserved for a draw is counted
and dropped. What it does with a request that holds a number is `f`. -/
def drawPop (s : State) (u : QueueUpset) (f : State → Packet → Resv → State) : State :=
  let (p, s) := popPacket s drawRouter 0xFF400 u
  if p.words.isEmpty then s
  else
    match drawEntry s p with
    | none => incSat s DRW_ERR DRW_ERR_BAD 1
    | some e => f s p e

/-- The unit takes the request at the front of its queue when it is a weft dispatch of operation `op`, or of none of the
two. -/
def drawFront (s : State) (op : Nat) (u : QueueUpset) (noise : List Byte) (bad : DrbgUpset) (keyBad : Bool) : State :=
  let front := bitsOf (peekAt s 0xFF400 3).toNat 31 28
  if !ledgerAccepts s || !pktReady s drawRouter 0xFF400 || directFront s 0xFF400 then s
  else if (front = 1 || front = 2) && front != op then s
  else if entinShort s then s
  else drawPop s u (fun s p e => drawRequest s p e noise bad keyBad)

/-- A direct request (R402): HEALTH, or DENIED. -/
def drawDirect (s : State) (u : QueueUpset) : State :=
  if safeHalt s || !pktReady s drawRouter 0xFF400 || !directFront s 0xFF400 then s
  else
    let (p, s) := popPacket s drawRouter 0xFF400 u
    if p.bad then incSat s DRW_ERR DRW_ERR_BAD 1
    else
      let t := bitsOf (p.words.getD 2 0).toNat 28 24
      let op := bitsOf (p.words.getD 3 0).toNat 31 28
      let front := [p.words.getD 0 0, p.words.getD 1 0]
      if op = 3 then
        pushPacket s drawRouter (0xFF440 + t) (front ++ [0x30000000, reg s DRW_STATUS, reg s DRW_GENCNT])
      else
        pushPacket (incSat s DRW_ERR DRW_ERR_BAD 1) drawRouter (0xFF440 + t)
          (front ++ [BitVec.ofNat 32 (op * 2 ^ 28 + 0x6000000)])

/-- A request ends without a draw, with a STATUS. -/
def drawEnds (status : Nat) (s : State) (p : Packet) (e : Resv) : State :=
  drawHand s e p { status := status, gen := s.drw.d0.count }

/-- Step 3 of the power-fail sequence (R401): the requests still queued end with PFAIL; direct ones write no record (R402); at
most n. -/
def drawPowerFail : Nat → State → State
  | 0, s => s
  | n + 1, s =>
    if !pktReady s drawRouter 0xFF400 then s
    else drawPowerFail n (if directFront s 0xFF400 then drawDirect s .none else drawPop s .none (drawEnds 7))

/-- Before a reset or a safe halt, the draws that hold a number are made, since every number drawn is written (R355); DESIGN
CHOICE: one that waits for DRW_ENTIN ends with NOENT (log entry 60); at most n. -/
def takeDraws : Nat → State → State
  | 0, s => s
  | n + 1, s =>
    if !ledgerAccepts s || !pktReady s drawRouter 0xFF400 then s
    else
      takeDraws n
        (if directFront s 0xFF400 then drawDirect s .none
         else if entinShort s then drawPop s .none (drawEnds 1)
         else drawPop s .none (fun s p e => drawRequest s p e [] .none false))

/-- The requests that hold a number have reached their engines, and every other number drawn becomes a VOID record, so that all
that is in progress can be finished (R58, R225, R355). -/
def finishNumbers (s : State) : State :=
  let s := takeCommits (qPkts s 0xFF300) s
  finishLedger (voidRest (takeDraws (qPkts s 0xFF400) s))

/-- Instantiation at the end of boot step 3 (R392). -/
def drawBoot (s : State) (noise : List Byte) : State :=
  match useKey s 3 false with
  | (none, s) => drawSync s
  | (some p, s) => if extEntropy s then drawSync s else drawSync (instantiate s p noise).1

end Sys2Proof.Machine
end

