-- ==== Sys2Proof/Machine/Timers.lean ====
section
/-!
DEFINITION. Timers (spec chapter 16): counting, compare, capture, link inputs, flags and events, sleep and debug freeze,
and the registers of a group.
-/

namespace Sys2Proof.Machine

/-! ### Accessors -/

def getCh (s : State) (g c : Nat) : Chan := tget (fun _ => {}) s.tmr (8 * g + c)

def setCh (s : State) (g c : Nat) (x : Chan) : State := { s with tmr := tset (fun _ => {}) s.tmr (8 * g + c) x }

def tmrF (s : State) (a : Nat → Nat → Nat) (f : Fld) (g c : Nat) : Nat := getF s (a g c) f

def chEn (s : State) (g c : Nat) : Bool := flag s (TMR_CTRL g c) TMR_CTRL_EN

def chCksel (s : State) (g c : Nat) : Nat := getF s (TMR_CTRL g c) TMR_CTRL_CKSEL

def setEn (s : State) (g c : Nat) (b : Bool) : State := setFlag s (TMR_CTRL g c) TMR_CTRL_EN b

def tmrFlag (s : State) (g c : Nat) (f : Fld) : State := setFlag s (TMR_FLAGS g c) f true

def werr (s : State) (g c : Nat) : State := tmrFlag s g c TMR_FLAGS_WERR

/-- The power domain of a group (R434). -/
def tgDomain (g : Nat) : Nat := if g = 8 then 1 else 4 + g

/-! ### Counting (R436 to R441, R459) -/

/-- Some triad whose halt freezes group g is halted (R459). -/
def haltedNear (s : State) (g : Nat) : Bool :=
  s.triads.any (fun p => p.2.halted && (g == 8 || p.1 / 4 == g))

def chFrozen (s : State) (g c : Nat) : Bool := flag s (TMR_CTRL g c) TMR_CTRL_FRZ && haltedNear s g

/-- SRC and ACT of link k (R450, R451). -/
def linkSrc (s : State) (g c k : Nat) : Nat := getF s (TMR_LINK g c) (if k = 0 then TMR_LINK_SRC0 else TMR_LINK_SRC1)

def linkAct (s : State) (g c k : Nat) : Nat := getF s (TMR_LINK g c) (if k = 0 then TMR_LINK_ACT0 else TMR_LINK_ACT1)

/-- ACT of link k as it acts: with CKSEL = 5, link 0 only clocks the channel. -/
def actOf (s : State) (g c k : Nat) : Nat := if k = 0 && chCksel s g c = 5 then 0 else linkAct s g c k

def follows (s : State) (g c : Nat) : Bool := actOf s g c 0 == 5 || actOf s g c 1 == 5

/-- Whether the gate is open (R451). -/
def gateOpen (s : State) (g c : Nat) : Bool := if follows s g c then (getCh s g c).ti else (getCh s g c).gate

/-- The kernel clock that CKSEL names runs (R436, R494). -/
def kernelRuns (s : State) (g c : Nat) : Bool :=
  clocked s (tgDomain g) &&
    (match chCksel s g c with
     | 0 | 3 | 4 | 5 | 6 => true
     | 1 | 2 => flag s CLK_STATUS CLK_STATUS_LOCK
     | _ => false)

/-- The channel counts (R441). -/
def counting (s : State) (g c : Nat) : Bool :=
  chEn s g c && gateOpen s g c && !chFrozen s g c && kernelRuns s g c

/-- D of the prescaler in force (R438). -/
def divisor (x : Chan) : Nat := 256 * (bitsOf x.psc.toNat 15 0 + 1) + bitsOf x.psc.toNat 23 16

/-- What waits in the shadow registers is taken up (R439, R440, R446). -/
def reload (s : State) (g c : Nat) : State :=
  let x := getCh s g c
  setCh s g c { x with top := x.topNext.getD x.top, cmp := x.cmpNext.getD x.cmp, psc := reg s (TMR_PSC g c),
                       topNext := none, cmpNext := none }

/-- A stop latches the count (R441, R443). -/
def stopCh (s : State) (g c : Nat) : State :=
  let x := getCh s g c
  setEn (setCh s g c { x with stopped := x.count }) g c false

/-- A start: A := 0, the gate open (R438, R451). -/
def startCh (s : State) (g c : Nat) : State :=
  if chEn s g c then s
  else
    let x := getCh s g c
    setEn (setCh s g c { x with acc := 0, gate := true, stopped := x.count }) g c true

/-- The interrupt event of a channel (R454). -/
def chInterrupt (s : State) (g c : Nat) : State :=
  if g = 8 then srcEvent s (128 + c) else clusterEvent s g (8 + c)

/-- A flag is set by the hardware; its enable makes an interrupt event of it. -/
def raiseFlag (s : State) (g c : Nat) (f e : Fld) : State :=
  let s := tmrFlag s g c f
  if flag s (TMR_IEN g c) e then chInterrupt s g c else s

/-! ### Capture (R447, R448, R449) -/

/-- Copy the count into TMR_CAP. -/
def capture (s : State) (g c : Nat) : State :=
  let s := if flag s (TMR_FLAGS g c) TMR_FLAGS_CAPF then tmrFlag s g c TMR_FLAGS_OVR else s
  let x := getCh s g c
  raiseFlag (setCh s g c { x with cap := x.count }) g c TMR_FLAGS_CAPF TMR_IEN_CIE

/-- One counted edge of the capture input: the edge prescaler passes every (EPSC + 1)-th. -/
def capEdge (s : State) (g c : Nat) : State :=
  if !flag s (TMR_CAPCTL g c) TMR_CAPCTL_CAPEN || !clocked s (tgDomain g) then s
  else
    let x := getCh s g c
    let n := x.edges + 1
    if getF s (TMR_CAPCTL g c) TMR_CAPCTL_EPSC + 1 ≤ n then capture (setCh s g c { x with edges := 0 }) g c
    else setCh s g c { x with edges := n }

/-- The next counted edge of the capture input passes the edge prescaler and copies the count (R448). -/
def timerCapture (s : State) (g c : Nat) : State :=
  if getF s (TMR_CAPCTL g c) TMR_CAPCTL_EPSC ≤ (getCh s g c).edges then capEdge s g c else s

/-! ### Steps and the link bus (R439, R445, R450 to R453, R455) -/

/-- An event of a link bus: group and source number (R450); TI events name their channel. -/
inductive BusEvent where
  | bus (g src : Nat)
  | ti (g c : Nat)

/-- The match event: flag, fabric producer, link bus. -/
def matchEvent (s : State) (g c : Nat) : State × List BusEvent :=
  (produce (raiseFlag s g c TMR_FLAGS_MATCHF TMR_IEN_MIE) (16 * g + 2 * c), [.bus g c])

/-- The overflow event. -/
def overflowEvent (s : State) (g c : Nat) : State × List BusEvent :=
  (produce (raiseFlag s g c TMR_FLAGS_OVFF TMR_IEN_OIE) (16 * g + 2 * c + 1), [.bus g (8 + c)])

/-- The next step of the count wraps it. -/
def wraps (x : Chan) : Bool := x.count == x.top || x.count == 0xFFFFFFFFFFFF

def nextCount (x : Chan) : BitVec 48 := if wraps x then 0 else x.count + 1

/-- One step of the count (R439): the match first, then the overflow, the reload point, and the end of a ONESHOT. -/
def stepCount (s : State) (g c : Nat) : State × List BusEvent :=
  let x := getCh s g c
  let s := setCh s g c { x with count := nextCount x }
  let (s, m) := if nextCount x = x.cmp then matchEvent s g c else (s, [])
  if wraps x then
    let (s, o) := overflowEvent s g c
    let s := reload s g c
    (if flag s (TMR_CTRL g c) TMR_CTRL_ONESHOT then stopCh s g c else s, m ++ o)
  else (s, m)

/-- One kernel edge of a channel that counts (R438). -/
def kernelStep (s : State) (g c : Nat) : State × List BusEvent :=
  if !counting s g c then (s, [])
  else
    let x := getCh s g c
    let a := x.acc + 256
    if a < divisor x then (setCh s g c { x with acc := a }, [])
    else stepCount (setCh s g c { x with acc := a - divisor x }) g c

/-- Count := 0, A := 0, reload point (R451, R439). -/
def zeroCount (s : State) (g c : Nat) : State :=
  let x := getCh s g c
  let s := reload (setCh s g c { x with count := 0, acc := 0 }) g c
  if chEn s g c then s else setCh s g c { getCh s g c with stopped := 0 }

/-- The next kernel edge of a channel steps its count and wraps it. -/
def wrapDue (s : State) (g c : Nat) : Bool :=
  let x := getCh s g c
  counting s g c && divisor x ≤ x.acc + 256 && wraps x

/-- The action of link k on an accepted event (R451). -/
def linkAction (s : State) (g c k : Nat) : State :=
  match actOf s g c k with
  | 1 => if chEn s g c then zeroCount s g c else s
  | 2 => if follows s g c then s else setCh s g c { getCh s g c with gate := true }
  | 3 => if follows s g c then s else setCh s g c { getCh s g c with gate := false }
  | 4 => startCh s g c
  | _ => s

def linkBusy (x : Chan) (k : Nat) : Bool := if k = 0 then x.busy0 else x.busy1

def setLinkBusy (x : Chan) (k : Nat) : Chan := if k = 0 then { x with busy0 := true } else { x with busy1 := true }

/-- An event of its source reaches link k, and whether the link accepts it: it is lost while the link still accepts one (R452)
or its domain sleeps in RET (R457). -/
def linkAccept (s : State) (g c k : Nat) : Bool × State :=
  if domState s (tgDomain g) = 1 then (false, tmrFlag s g c TMR_FLAGS_LINKLOST)
  else if !clocked s (tgDomain g) then (false, s)
  else if linkBusy (getCh s g c) k then (false, tmrFlag s g c TMR_FLAGS_LINKLOST)
  else (true, setCh s g c (setLinkBusy (getCh s g c) k))

/-- The channel has a kernel clock of its own: an accepted link event acts at its next edge. With CKSEL = 5 and 6, and where no
kernel clock is named, it acts when it arrives (log entry 85). -/
def ownClock (s : State) (g c : Nat) : Bool := chCksel s g c < 5

/-- What an accepted event of link k does: its action, or the kernel edge that it is (R436), and the capture input that it
feeds (R447). -/
def linkActs (s : State) (g c k : Nat) : State × List BusEvent :=
  let (s, l) := if k = 0 && chCksel s g c = 5 then kernelStep s g c else (linkAction s g c k, [])
  (if k = 1 && flag s (TMR_CAPCTL g c) TMR_CAPCTL_ICSRC then capEdge s g c else s, l)

/-- An event of its source reaches link k alone. -/
def linkEvent (s : State) (g c k : Nat) : State × List BusEvent :=
  match linkAccept s g c k with
  | (true, s) => if ownClock s g c then (s, []) else linkActs s g c k
  | (false, s) => (s, [])

/-- Events reach the links of a channel together, where h0 and h1 say so: link 0 acts before link 1 (R451). Where the edge that
link 0 makes would wrap the count, a RESTART of link 1 on it wins (R453). -/
def linkPair (s : State) (g c : Nat) (h0 h1 : Bool) : State × List BusEvent :=
  let (a0, s) := if h0 then linkAccept s g c 0 else (false, s)
  let (a1, s) := if h1 then linkAccept s g c 1 else (false, s)
  if ownClock s g c then (s, [])
  else
    let won := a1 && chCksel s g c = 5 && actOf s g c 1 = 1 && wrapDue s g c
    let (s, l) := if a0 && !won then linkActs s g c 0 else (s, [])
    let (s, m) := if a1 then linkActs s g c 1 else (s, [])
    (s, l ++ m)

/-- Link k has a source: not where SRC names none, nor where ACT = FOLLOW leaves SRC without use (R450, R451). -/
def linkUsed (s : State) (g c k : Nat) : Bool :=
  linkSrc s g c k ≤ 20 && (actOf s g c k != 5 || (k == 1 && flag s (TMR_CAPCTL g c) TMR_CAPCTL_ICSRC))

/-- Whether link k of a channel selects the event. -/
def selects (s : State) (g c k : Nat) (e : BusEvent) : Bool :=
  linkUsed s g c k && (match e with
    | .bus g' src => g == g' && linkSrc s g c k == src
    | .ti g' c' => g == g' && c == c' && linkSrc s g c k == 20)

/-- The group of an event. -/
def BusEvent.group : BusEvent → Nat
  | .bus g _ => g
  | .ti g _ => g

/-- Events of one moment at the links of channel c of their group. -/
def chanDeliver (s : State) (g c : Nat) (b : List BusEvent) : State × List BusEvent :=
  let h0 := b.any (selects s g c 0)
  let h1 := b.any (selects s g c 1)
  if h0 || h1 then linkPair s g c h0 h1 else (s, [])

/-- Events of one moment, which come from one channel or one input, at the links of the channels of their group: the
events that each channel makes of them come together. -/
def busDeliver (s : State) (b : List BusEvent) : State × List (List BusEvent) :=
  match b with
  | [] => (s, [])
  | e :: _ =>
    (List.range 8).foldl (fun (p : State × List (List BusEvent)) c =>
      let (s', l) := chanDeliver p.1 e.group c b
      (s', if l.isEmpty then p.2 else p.2 ++ [l])) (s, [])

/-- Events of the link buses until none is left; at most n: every link accepts one event in a command. -/
def busRun : Nat → List (List BusEvent) → State → State
  | 0, _, s => s
  | _, [], s => s
  | n + 1, b :: r, s =>
    let (s, l) := busDeliver s b
    busRun n (r ++ l) s

def busAll (p : State × List BusEvent) : State := busRun 600 [p.2] p.1

/-- An event at input XTx of group g (R461). -/
def xtEvent (s : State) (g x : Nat) : State := busAll (s, [.bus g (16 + x)])

/-- The input XTx of group g is busy (R461, R507). -/
def xtBusy (s : State) (g x : Nat) : Bool :=
  (!clocked s (tgDomain g) && domState s (tgDomain g) != 1) ||
    (List.range 16).any (fun i => selects s g (i / 2) (i % 2) (.bus g (16 + x)) && linkBusy (getCh s g (i / 2)) (i % 2))

/-- A kernel edge at which accepted events of link 0 and link 1 act, where b0 and b1 say so: the step of the count, then link 0,
then link 1 (R451); a RESTART on the edge that would wrap the count wins (R453, log entry 85). -/
def edgeWith (s : State) (g c : Nat) (b0 b1 : Bool) : State × List BusEvent :=
  let won := wrapDue s g c && ((b0 && actOf s g c 0 = 1) || (b1 && actOf s g c 1 = 1))
  let (s, l) := if won then (s, []) else kernelStep s g c
  let s := if b0 then (linkActs s g c 0).1 else s
  (if b1 then (linkActs s g c 1).1 else s, l)

/-- A kernel edge of channel c of group g, for a kernel clock of its own that runs: the events that its links have accepted act,
and it ends their acceptance (R452). -/
def kernelEdge (s : State) (g c : Nat) : State :=
  if !ownClock s g c || !kernelRuns s g c then s
  else
    let x := getCh s g c
    busAll (edgeWith (setCh s g c { x with busy0 := false, busy1 := false }) g c x.busy0 x.busy1)

/-- Links whose acceptance takes a PCLK period have done when the command ends; those of a channel with a kernel clock of its own
wait for its next edge (R452). -/
def linksDone (s : State) : State :=
  s.tmr.foldl (fun s p =>
    let g := p.1 / 8
    let c := p.1 % 8
    if (p.2.busy0 || p.2.busy1) && !ownClock s g c then
      setCh s g c { getCh s g c with busy0 := false, busy1 := false }
    else s) s

/-- Whether the next kernel edge of a channel steps its count. -/
def stepDue (s : State) (g c : Nat) : Bool :=
  counting s g c && ownClock s g c && divisor (getCh s g c) ≤ (getCh s g c).acc + 256

/-- The step that makes the count equal to the compare value (R445). -/
def timerMatch (s : State) (g c : Nat) : State :=
  if stepDue s g c && nextCount (getCh s g c) == (getCh s g c).cmp then kernelEdge s g c else s

/-- The step that wraps the count (R439). -/
def timerOverflow (s : State) (g c : Nat) : State :=
  if stepDue s g c && wraps (getCh s g c) then kernelEdge s g c else s

/-- An event of the source of link k, when the link has that action (R451). -/
def linkRow (s : State) (g c k act : Nat) : State :=
  if linkUsed s g c k && actOf s g c k = act then busAll (linkEvent s g c k) else s

/-! ### EV pins (R437, R447) -/

/-- Whether EDGE counts an accepted change to level b. -/
def edgeCounts (s : State) (g c : Nat) (b : Bool) : Bool :=
  match getF s (TMR_CAPCTL g c) TMR_CAPCTL_EDGE with
  | 0 => b
  | 1 => !b
  | 2 => true
  | _ => false

/-- FILT + 1 samples agree on level b: TI takes it, the gate under FOLLOW with it, and a change that EDGE counts is an edge
of the capture input and the event of TI (R447, R450, R451). -/
def acceptLevel (s : State) (g c : Nat) (b : Bool) : State × List BusEvent :=
  if (getCh s g c).ti = b then (s, [])
  else
    let s := setCh s g c { getCh s g c with ti := b }
    if edgeCounts s g c b then (capEdge s g c, [.ti g c]) else (s, [])

/-- The samples of a channel's capture input from an EV pin are taken (R447). -/
def samples (s : State) (g c : Nat) : Bool := kernelRuns s g c && !flag s (TMR_CAPCTL g c) TMR_CAPCTL_ICSRC

/-- TI of a channel changes its level (R451). -/
def followTi (s : State) (g c : Nat) (b : Bool) : State :=
  if samples s g c then busAll (acceptLevel s g c b) else s

/-- The link of a channel whose action is RESTART, if one has a source. -/
def restartLink (s : State) (g c : Nat) : Option Nat := [0, 1].find? (fun k => linkUsed s g c k && actOf s g c k == 1)

/-- A kernel edge of a channel that counts a pin; with `hit`, an event of its RESTART link falls on it (R453). -/
def pinStep (s : State) (g c : Nat) (hit : Bool) : State × List BusEvent :=
  match restartLink s g c with
  | some k =>
    let (a, s) := if hit then linkAccept s g c k else (false, s)
    edgeWith s g c (a && k == 0) (a && k == 1)
  | none => kernelStep s g c

/-- A rising edge of pin k is a kernel edge of the channels that count it (R436); `restart` names the channels, 8 times the group
plus the channel, at which an event of a RESTART link falls on this edge. -/
def pinKernel (s : State) (k : Nat) (restart : BitVec 72) : State :=
  (List.range 72).foldl (fun s i =>
    if chCksel s (i / 8) (i % 8) = 6 && getF s (TMR_CTRL (i / 8) (i % 8)) TMR_CTRL_EVSEL = k then
      busAll (pinStep s (i / 8) (i % 8) (restart.getLsbD i))
    else s) s

/-- Level b of pin k at the capture inputs that read it: `accept` names the channels, 8 times the group plus the
channel, at which FILT + 1 samples agree on it. -/
def pinCapture (s : State) (k : Nat) (b : Bool) (accept : BitVec 72) : State :=
  (List.range 72).foldl (fun s i =>
    if accept.getLsbD i && getF s (TMR_CAPCTL (i / 8) (i % 8)) TMR_CAPCTL_ICSEL = k then followTi s (i / 8) (i % 8) b
    else s) s

/-- Samples of a channel's capture input in n PCLK periods, at the nominal rates of R436. -/
def samplesIn (s : State) (g c n : Nat) : Nat :=
  match chCksel s g c with
  | 1 => n / 4
  | 2 => 4 * n / 25
  | 3 => n / 25
  | 4 => n * 32768 / 625000000
  | _ => n

/-- The channels whose filter accepts a level that lasts n PCLK periods: FILT + 1 of their samples fall in it (R447, log entry
86). -/
def acceptIn (s : State) (n : Nat) : BitVec 72 :=
  BitVec.ofNat 72 ((List.range 72).foldl (fun a i =>
    a + b2n (getF s (TMR_CAPCTL (i / 8) (i % 8)) TMR_CAPCTL_FILT + 1 ≤ samplesIn s (i / 8) (i % 8) n) * 2 ^ i) 0)

/-! ### Sleep (R457) -/

/-- Entry to RET: every counting channel stops, its count latched (R443), and the SLCK count is recorded for those that make-up
serves. -/
def groupSleep (s : State) (g : Nat) : State :=
  (List.range 8).foldl (fun s c =>
    if counting s g c then
      let x := getCh s g c
      setCh s g c { x with stopped := x.count, slept := if chCksel s g c < 5 then some s.slck else none }
    else s) s

/-- Entry to OFF: the group's state is lost. -/
def groupLost (s : State) (g : Nat) : State :=
  { resetRegs s (tgBase g) (tgBase g + 0x400) with tmr := tclear (8 * g) (8 * g + 8) s.tmr }

/-- Kernel edges in E SLCK periods (R457). -/
def sleepEdges (cksel e : Nat) : Nat :=
  match cksel with
  | 4 => e
  | 0 => e * 625000000 / 32768
  | 1 => e * 156250000 / 32768
  | 2 => e * 100000000 / 32768
  | _ => e * 25000000 / 32768

/-- Steps to the first wrap from count x with top t. -/
def stepsToWrap (x t : Nat) : Nat := if x ≤ t then t + 1 - x else 2 ^ 48 - x

/-- Steps to the first match of compare value m from count x with top t, if there is one. -/
def stepsToMatch (x t m : Nat) : Option Nat :=
  if x < m && (m ≤ t || t < x) then some (m - x)
  else if m ≤ t then some (stepsToWrap x t + m)
  else none

/-- The count after n steps. -/
def countAfter (x t n : Nat) : Nat :=
  let w := stepsToWrap x t
  if n < w then x + n else (n - w) % (t + 1)

/-- Make-up of one channel at the return to ON. -/
def makeUp (s : State) (g c : Nat) : State :=
  let x := getCh s g c
  match x.slept with
  | none => s
  | some e =>
    let t := x.acc + 256 * sleepEdges (chCksel s g c) (s.slck - e)
    let n := t / divisor x
    let T := x.top.toNat
    let w := stepsToWrap x.count.toNat T
    let once := flag s (TMR_CTRL g c) TMR_CTRL_ONESHOT && w ≤ n
    let last := if once then w else n
    let m := match stepsToMatch x.count.toNat T x.cmp.toNat with
      | some j => if j ≤ last then some j else none
      | none => none
    let s := setCh s g c { x with count := BitVec.ofNat 48 (countAfter x.count.toNat T last), acc := t % divisor x,
                                  slept := none }
    let s := setReg (tmrFlag s g c TMR_FLAGS_SKIP) (TMR_MAKEUP g c) (BitVec.ofNat 32 (min n (2 ^ 32 - 1)))
    let wrapped := w ≤ last
    let s := match m with
      | some j => if wrapped && w < j then
          busAll (matchEvent (busAll (overflowEvent (reload s g c) g c)) g c)
        else
          let s := busAll (matchEvent s g c)
          if wrapped then busAll (overflowEvent (reload s g c) g c) else s
      | none => if wrapped then busAll (overflowEvent (reload s g c) g c) else s
    if once then stopCh s g c else s

/-- Return from RET of group g. -/
def groupWake (s : State) (g : Nat) : State := (List.range 8).foldl (fun s c => makeUp s g c) s

/-- Debug halt begins: the channels that it freezes latch their counts, as at a stop (R459). -/
def freezeChannels (s : State) : State :=
  s.tmr.foldl (fun s p =>
    let g := p.1 / 8
    let c := p.1 % 8
    if chFrozen s g c && chEn s g c then setCh s g c { getCh s g c with stopped := (getCh s g c).count } else s) s

/-! ### Register operations -/

/-- A write of TG_GCTL: STOP wins over START of the same channel (R442). -/
def groupControl (s : State) (g : Nat) (w : Word) : State :=
  (List.range 8).foldl (fun s c =>
    if w.getLsbD (8 + c) then (if chEn s g c then stopCh s g c else s)
    else if w.getLsbD c then startCh s g c else s) s

/-- The kernel clock of a channel changes: an event that a link is still accepting is lost (log entry 85). -/
def linksLost (s : State) (g c : Nat) : State :=
  let x := getCh s g c
  if x.busy0 || x.busy1 then tmrFlag (setCh s g c { x with busy0 := false, busy1 := false }) g c TMR_FLAGS_LINKLOST else s

/-- A write of TMR_CTRLc (R436, R441): a CKSEL that names no kernel clock sets WERR at every write of it. -/
def ctrlWrite (s : State) (g c : Nat) (w : Word) : State :=
  let on := chEn s g c
  let ck := bitsOf w.toNat 15 12
  let ev := bitsOf w.toNat 10 8
  let s := setFlag s (TMR_CTRL g c) TMR_CTRL_ONESHOT (w.getLsbD 4)
  let s := setFlag s (TMR_CTRL g c) TMR_CTRL_FRZ (w.getLsbD 3)
  let s := setFlag s (TMR_CTRL g c) TMR_CTRL_PRELOAD (w.getLsbD 2)
  let s :=
    if on then
      if ck != chCksel s g c || ev != getF s (TMR_CTRL g c) TMR_CTRL_EVSEL || 7 ≤ ck then werr s g c else s
    else
      let s := if ck = chCksel s g c then s else linksLost s g c
      let s := setF (setF s (TMR_CTRL g c) TMR_CTRL_CKSEL ck) (TMR_CTRL g c) TMR_CTRL_EVSEL ev
      if 7 ≤ ck then werr s g c else s
  if w.getLsbD 0 then startCh s g c else if on then stopCh s g c else s

/-- A write of TMR_PSCc (R440). -/
def pscWrite (s : State) (g c : Nat) (w : Word) : State :=
  let s := plainWrite s (TMR_PSC g c) w
  if chEn s g c then s else setCh s g c { getCh s g c with psc := reg s (TMR_PSC g c) }

/-- A 48-bit value of its halves. -/
def wide (lo hi : Word) : BitVec 48 := BitVec.ofNat 48 (lo.toNat + 2 ^ 32 * (hi.toNat % 65536))

/-- Whether a value written now waits for the reload point (R446). -/
def preloads (s : State) (g c : Nat) : Bool := chEn s g c && flag s (TMR_CTRL g c) TMR_CTRL_PRELOAD

/-- A write of TMR_TOPHIc (R446). -/
def topHiWrite (s : State) (g c : Nat) (w : Word) : State :=
  let x := getCh s g c
  let v := wide x.topLo w
  if preloads s g c then setCh s g c { x with topNext := some v } else setCh s g c { x with top := v, topNext := none }

/-- A write of TMR_CMPHIc (R446). -/
def cmpHiWrite (s : State) (g c : Nat) (w : Word) : State :=
  let x := getCh s g c
  let v := wide x.cmpLo w
  if preloads s g c then setCh s g c { x with cmpNext := some v } else setCh s g c { x with cmp := v, cmpNext := none }

/-- A write of TMR_CNTLOc (R444). -/
def cntLoWrite (s : State) (g c : Nat) (w : Word) : State :=
  if chEn s g c then werr s g c else setCh s g c { getCh s g c with cntLo := w }

/-- A write of TMR_CNTHIc (R444). -/
def cntHiWrite (s : State) (g c : Nat) (w : Word) : State :=
  if chEn s g c then werr s g c
  else
    let x := getCh s g c
    let v := wide x.cntLo w
    setCh s g c { x with count := v, stopped := v }

/-- A read of TMR_CNTLOc (R443). -/
def cntLoRead (s : State) (g c : Nat) : Word × State :=
  let x := getCh s g c
  let stale := chEn s g c && !chFrozen s g c
  let v := if stale then x.stopped else x.count
  (v.setWidth 32, setCh s g c { x with cntHi := BitVec.ofNat 32 (v.toNat / 2 ^ 32 + b2n stale * 2 ^ 31) })

/-- A read of TMR_CAPLOc (R449). -/
def capLoRead (s : State) (g c : Nat) : Word × State :=
  let x := getCh s g c
  let s := setCh s g c { x with capHi := BitVec.ofNat 32 (x.cap.toNat / 2 ^ 32) }
  (x.cap.setWidth 32, setFlag s (TMR_FLAGS g c) TMR_FLAGS_CAPF false)

/-- A write of TMR_CAPCTLc: the edge prescaler restarts when CAPEN goes from 0 to 1 (R448). -/
def capctlWrite (s : State) (g c : Nat) (w : Word) : State :=
  let was := flag s (TMR_CAPCTL g c) TMR_CAPCTL_CAPEN
  let s := plainWrite s (TMR_CAPCTL g c) w
  if !was && w.getLsbD 20 then setCh s g c { getCh s g c with edges := 0 } else s

/-- A write of TMR_IENc: each enable bit written 1 while its flag is 1 makes an interrupt event (R454). -/
def ienWrite (s : State) (g c : Nat) (w : Word) : State :=
  let s := plainWrite s (TMR_IEN g c) w
  (List.range 3).foldl (fun s i =>
    if w.getLsbD i && (reg s (TMR_FLAGS g c)).getLsbD i then chInterrupt s g c else s) s

/-- A write of TMR_KICKc: the capture, then the zero (R439, R448). -/
def kickWrite (s : State) (g c : Nat) (w : Word) : State :=
  let s := if w.getLsbD 1 then capture s g c else s
  if w.getLsbD 0 then zeroCount s g c else s

/-- A write of TMR_LINKc (R450, R451). -/
def linkWrite (s : State) (g c : Nat) (w : Word) : State :=
  if chEn s g c then werr s g c
  else
    let s := plainWrite s (TMR_LINK g c) w
    if 6 ≤ bitsOf w.toNat 10 8 || 6 ≤ bitsOf w.toNat 26 24 then werr s g c else s

/-- TG_STATUS. -/
def groupStatus (s : State) (g : Nat) : Word :=
  BitVec.ofNat 32 ((List.range 8).foldl (fun n c =>
    n + b2n (counting s g c) * 2 ^ c + b2n (chFrozen s g c) * 2 ^ (8 + c)) 0)

/-- A write to a register of channel c of group g, `o` its offset in the channel's block. -/
def chanWrite (s : State) (g c o : Nat) (w : Word) : State :=
  match o with
  | 0x00 => ctrlWrite s g c w
  | 0x04 => pscWrite s g c w
  | 0x08 => setCh s g c { getCh s g c with topLo := w }
  | 0x0C => topHiWrite s g c w
  | 0x10 => setCh s g c { getCh s g c with cmpLo := w }
  | 0x14 => cmpHiWrite s g c w
  | 0x18 => cntLoWrite s g c w
  | 0x1C => cntHiWrite s g c w
  | 0x28 => capctlWrite s g c w
  | 0x2C => plainWrite s (TMR_FLAGS g c) w
  | 0x30 => ienWrite s g c w
  | 0x34 => kickWrite s g c w
  | 0x3C => linkWrite s g c w
  | _ => s

/-- A read of a register of channel c of group g. -/
def chanRead (s : State) (g c o : Nat) : Word × State :=
  let x := getCh s g c
  match o with
  | 0x08 => (x.top.setWidth 32, s)
  | 0x0C => ((x.top >>> 32).setWidth 32, s)
  | 0x10 => (x.cmp.setWidth 32, s)
  | 0x14 => ((x.cmp >>> 32).setWidth 32, s)
  | 0x18 => cntLoRead s g c
  | 0x1C => (x.cntHi, s)
  | 0x20 => capLoRead s g c
  | 0x24 => (x.capHi, s)
  | _ => plainRead s (tgBase g + 0x100 + 0x40 * c + o)

/-- A write to a register of group g at offset o of its block. -/
def groupWrite (s : State) (g o : Nat) (w : Word) : State :=
  if o = 0 then groupControl s g w
  else if 0x100 ≤ o && o < 0x300 then chanWrite s g ((o - 0x100) / 0x40) ((o - 0x100) % 0x40) w
  else s

/-- A read of a register of group g at offset o of its block. -/
def groupRead (s : State) (g o : Nat) : Word × State :=
  if o = 4 then (groupStatus s g, s)
  else if 0x100 ≤ o && o < 0x300 then chanRead s g ((o - 0x100) / 0x40) ((o - 0x100) % 0x40)
  else (0, s)

end Sys2Proof.Machine
end

