-- ==== Sys2Proof/Machine/Clocks.lean ====
section
/-!
DEFINITION. The clock controller (spec chapter 19): the choice of a domain's clock source, PLLA's lock and failure,
stopped clocks and their timeouts.
-/

namespace Sys2Proof.Machine

/-- The domains that have a clock source register. -/
def clkDomains : List Nat := [1, 4, 5, 6, 7, 8, 9, 10, 11, 12, 13, 14, 15, 16, 17]

def pllLocked (s : State) : Bool := flag s CLK_STATUS CLK_STATUS_LOCK

/-- The domain runs from PLLA. -/
def clkToPll (s : State) (d : Nat) : State :=
  setFlag (setFlag s (CLK_SRC d) CLK_SRC_CUR true) (CLK_SRC d) CLK_SRC_SWPEND false

/-- A write of CLK_SRCd (R499): AUTO of PCIE stays 1; a domain that is ON takes the source now, or at LOCK. -/
def clkSrcWrite (s : State) (d : Nat) (w : Word) : State :=
  if !clkDomains.contains d then s
  else
    let s := if d = 12 then s else setFlag s (CLK_SRC d) CLK_SRC_AUTO (w.getLsbD 2)
    let s := setFlag s (CLK_SRC d) CLK_SRC_SEL (w.getLsbD 0)
    if !domOn s d then s
    else if w.getLsbD 0 then
      if pllLocked s then clkToPll s d else setFlag s (CLK_SRC d) CLK_SRC_SWPEND true
    else setFlag (setFlag s (CLK_SRC d) CLK_SRC_CUR false) (CLK_SRC d) CLK_SRC_SWPEND false

/-- The automatic switch of domain d (R497). -/
def clkAuto (s : State) (d : Nat) : State :=
  if pllLocked s && domOn s d && flag s (CLK_SRC d) CLK_SRC_AUTO then clkToPll s d else s

/-- Every automatic switch that is due. -/
def clkAutoAll (s : State) : State := clkDomains.foldl clkAuto s

/-- PLLA locks (R495, R497, R499); a source that has failed stays failed (R508). -/
def pllLock (s : State) : State :=
  if flag s CLK_STATUS CLK_STATUS_ROOTFAIL || flag s CLK_STATUS CLK_STATUS_PLLFAIL || pllLocked s then s
  else
    let s := setFlag s CLK_STATUS CLK_STATUS_LOCK true
    let s := clkDomains.foldl (fun s d =>
      if domOn s d && flag s (CLK_SRC d) CLK_SRC_SWPEND then clkToPll s d else s) s
    clkAutoAll s

/-- The root oscillator or PLLA fails (R508). -/
def clockFailure (s : State) (root : Bool) : State :=
  let s := setFlag s CLK_STATUS (if root then CLK_STATUS_ROOTFAIL else CLK_STATUS_PLLFAIL) true
  let s := setFlag s CLK_STATUS CLK_STATUS_LOCK false
  let s := clkDomains.foldl (fun s d =>
    let s := setFlag s (CLK_SRC d) CLK_SRC_CUR false
    if flag s (CLK_SRC d) CLK_SRC_SEL then setFlag s (CLK_SRC d) CLK_SRC_SWPEND true else s) s
  logFault (setFlag s CLK_STATUS CLK_STATUS_FALLBACK true) .detect noElem noElem 0

/-- A domain leaves ON: a pending switch is dropped (R499). -/
def clkLeave (s : State) (d : Nat) : State :=
  if clkDomains.contains d then setFlag s (CLK_SRC d) CLK_SRC_SWPEND false else s

/-- A domain restarts on FIO (R497). -/
def clkExit (s : State) (d : Nat) : State :=
  if !clkDomains.contains d then s
  else
    let s := setFlag s (CLK_SRC d) CLK_SRC_SEL false
    let s := setFlag s (CLK_SRC d) CLK_SRC_CUR false
    clkAuto (setFlag s (CLK_SRC d) CLK_SRC_SWPEND false) d

/-! ### Stopped clocks (R505, R506) -/

/-- Domains whose blocks need a clock that PLLA alone gives. -/
def needsPll (d : Nat) : Bool := d == 12 || d == 13 || d == 14

/-- Domain d is ON and its clocks do not run. -/
def clockStopped (s : State) (d : Nat) : Bool :=
  domOn s d && (!clocked s d || (needsPll d && !pllLocked s))

/-- The power domain of the block that a device address lies in, and whether the block is a clocked one. -/
def deviceDomain (a : Nat) : Nat × Bool :=
  if 0x40000000 ≤ a && a < 0x400E0000 then
    (match (a - 0x40000000) / 0x10000 with
     | 5 | 6 => (1, true)
     | 7 => (16, true)
     | _ => (1, false))
  else if a < 0x42000000 then (2, false)
  else if a < 0x45000000 then (3, false)
  else if a < 0x46000000 then (12, true)
  else if a < 0x46100000 then (13, true)
  else if a < 0x46200000 then (14, true)
  else if a < 0x48000000 then (15, true)
  else
    let n := (a - 0x48000000) / 0x100000
    (4 + n, (a - 0x48000000) % 0x100000 / 0x10000 == 1)

/-- A device access would wait at a stopped clock. -/
def meetsStopped (s : State) (a : Nat) : Bool :=
  let (d, clk) := deviceDomain a
  clk && clockStopped s d

/-- An access ends with CLKSTOP: counted, and captured while VALID = 0. -/
def clkStopEnd (s : State) (a : Nat) : State :=
  let s := incSat s CLK_STOPCNT CLK_STOPCNT_COUNT 1
  if flag s CLK_STOPCNT CLK_STOPCNT_VALID then s
  else setFlag (setReg s CLK_STOPADR (BitVec.ofNat 32 a)) CLK_STOPCNT CLK_STOPCNT_VALID true

end Sys2Proof.Machine
end

