-- ==== Sys2Proof/Machine/Datagram.lean ====
section
/-!
DEFINITION. The Sullabel datagram (R538, R539), the classifier's ranges (R540), and the packing of bytes into queue
words (R379, R541).
-/

namespace Sys2Proof.Machine

/-- An n-byte little-endian field at offset `off`. -/
def leAt (b : List Byte) (off n : Nat) : Nat := leNat ((b.drop off).take n)

/-- An n-byte big-endian field at offset `off`. -/
def beAt (b : List Byte) (off n : Nat) : Nat := beNat ((b.drop off).take n)

/-- SESSION of a header, its 20 bits. -/
def dgSession (b : List Byte) : Nat := leAt b 8 4 % 2 ^ 20

/-- LENGTH of a header. -/
def dgLength (b : List Byte) : Nat := leAt b 16 2

/-- The header part of R539, with REPLY as given. -/
def headerOk (reply : Nat) (b : List Byte) : Bool :=
  32 ≤ b.length && b.take 4 == [0x53, 0x42, 0x57, 0x44] && leAt b 4 1 == 1 && leAt b 5 1 % 2 == reply &&
    leAt b 5 1 / 4 == 0 && leAt b 8 4 < 2 ^ 20 && leAt b 18 2 == 0 && dgLength b % 4 == 0 && dgLength b ≤ 1024

/-- A valid intake datagram (R539). -/
def datagramOk (b : List Byte) : Bool := headerOk 0 b && b.length == 48 + dgLength b

/-- The first classifier entry whose range holds session v (R540). -/
def classify (s : State) (v : Nat) : Option Nat :=
  (List.range 256).find? (fun e => getF s (CLS_FIRST e) CLS_FIRST_VALUE ≤ v && v ≤ getF s (CLS_LAST e) CLS_LAST_VALUE)

/-- The queue of session v of entry e (R540). -/
def sessionQueue (s : State) (e v : Nat) : Nat :=
  (getF s (CLS_QBASE e) CLS_QBASE_VALUE + (v - getF s (CLS_FIRST e) CLS_FIRST_VALUE)) % 2 ^ 20

/-- Bytes packed four to a word, the first in bits [7:0], with zero padding in the last word (R379, R537). -/
def packBytes (l : List Byte) : List Word := toWords (l.length / 4 + 1) l

/-- Room for a whole packet plus two words, as R309 waits for it; a closed queue takes and counts every word. -/
def roomPlusTwo (s : State) (q n : Nat) : Bool := (qClass s q).isNone || n + 2 ≤ roomOf s q

end Sys2Proof.Machine
end

