-- ==== Sys2Proof/Machine/CryptoEngine.lean ====
section
/-!
DEFINITION. The cluster crypto engines (spec chapter 13, R378 to R383): VERIFY, SEAL and HASH requests, their answers and
their counters.
-/

namespace Sys2Proof.Machine

/-- A request of the crypto engine: operation, output class, input queue (none: no input), LEN of a direct request, the
session it names, the triad it answers (none: a weft dispatch), whether R378 refuses it. -/
structure CryReq where
  op : Nat
  outClass : Nat
  input : Option Nat
  len : Option Nat := none
  session : Nat := 0
  triad : Option Nat := none
  refused : Bool := false

/-- The class is 0xFF, or the weave defines it. -/
def outClassOk (s : State) (c : Nat) : Bool := c == 0xFF || (c < 64 && flag s (QE_COWN c) QE_COWN_VALID)

/-- A direct request's operation and parameters (R378). -/
def cryDirect (s : State) (w : List Word) : CryReq :=
  let w3 := (w.getD 3 0).toNat
  let op := bitsOf w3 31 28
  let len := bitsOf w3 15 0
  let bad := w.length < 6 || !(op == 1 || op == 2 || op == 3) || bitsOf w3 27 24 != 0 ||
    (op != 1 && (len == 0 || 1024 < len)) || !outClassOk s (bitsOf w3 23 16)
  { op := op, outClass := bitsOf w3 23 16, input := some ((w.getD 5 0).toNat % 2 ^ 20), len := some len,
    session := if op = 2 then (w.getD 4 0).toNat % 2 ^ 20 else 0,
    triad := some (bitsOf (w.getD 2 0).toNat 28 24), refused := bad }

/-- A weft dispatch's operation and parameters (R378); none when the token's stage is no crypto stage. -/
def cryDispatch (s : State) (w : List Word) : Option CryReq :=
  let stage := bitsOf (w.getD 1 0).toNat 31 24
  let kind := getF s (WS_STGW0 stage) WS_STGW0_KIND
  let w2 := (w.getD 2 0).toNat
  if kind = 1 || kind = 2 then
    some { op := kind, outClass := getF s (WS_STGW2 stage) WS_STGW2_OARG,
           input := if bitsOf w2 20 20 = 1 then some (w2 % 2 ^ 20) else none }
  else none

/-- The request that a packet's words spell. -/
def cryRequest (s : State) (w : List Word) : Option CryReq :=
  if (w.getD 2 0).getLsbD 31 then some (cryDirect s w) else cryDispatch s w

/-- What an input packet gives: whether its length fits (R380, R381), the session as its header was read (0 where the packet
ends before it), the message bytes. -/
def cryInput (r : CryReq) (tid : Word) (p : List Word) : Bool × Nat × List Byte :=
  match r.op with
  | 1 =>
    let b := ofWords p
    let ok := 12 ≤ p.length && dgLength b % 4 == 0 && dgLength b ≤ 1024 && b.length == 48 + dgLength b
    (ok, dgSession b, b.take (b.length - 16))
  | 2 =>
    let b := ofWords (p.drop 1)
    match r.triad, r.len with
    | some _, some len => (p.head? == some tid && p.length == 1 + (len + 3) / 4, r.session, b.take len)
    | _, _ =>
      (p.head? == some tid && headerOk 1 b && b.length == 32 + dgLength b, dgSession b, b)
  | _ =>
    let len := r.len.getD 0
    (p.head? == some tid && p.length == 1 + (len + 3) / 4, 0, (ofWords (p.drop 1)).take len)

/-- The master key slot of an operation: 1 for VERIFY, 2 for SEAL. -/
def crySlot (op : Nat) : Nat := if op = 1 then 1 else 2

/-- An outcome: STATUS, session, result words, the packet to copy to OUTCLASS. -/
structure CryOut where
  status : Nat
  session : Nat := 0
  words : List Word := []
  copy : List Word := []

/-- The operation on a message whose length fits; the key is read and the two engines' results are compared (R222). -/
def cryPerform (s : State) (n : Nat) (r : CryReq) (tid : Word) (p : List Word) (session : Nat) (m : List Byte)
    (mismatch keyBad : Bool) : CryOut × State :=
  let (key, s) := if r.op = 3 then (some [], s) else useKey s (crySlot r.op) keyBad
  match key with
  | none => ({ status := 5, session := session }, s)
  | some k =>
    if mismatch then ({ status := 6, session := session }, logFault s .detect (0xA8 + n) noElem 0)
    else if r.op = 1 then
      let tag := cmac (terminalKey k [0x53, 0x42, 0x54, 0x4B] session) m
      if tag == (ofWords p).drop m.length then
        ({ status := 0, session := session, copy := tid :: p.take (p.length - 4) }, s)
      else ({ status := 1, session := session }, s)
    else if r.op = 2 then
      let tag := packLE (cmac (terminalKey k [0x53, 0x42, 0x52, 0x4B] session) m)
      ({ status := 0, session := session, words := tag, copy := p ++ tag }, s)
    else ({ status := 0, words := packLE (sha256 m) }, s)

/-- The engine serves a request, with upset v at the pop of its input (R378, R380, R381, R383). -/
def cryServe (s : State) (n : Nat) (r : CryReq) (tid : Word) (v : QueueUpset) (mismatch keyBad : Bool) : CryOut × State :=
  if r.refused then ({ status := 7, session := r.session }, s)
  else
    match r.input with
    | none => ({ status := 2, session := r.session }, s)
    | some q =>
      let (p, s) := popPacket s (clusterRouter n) q v
      if p.words.isEmpty then ({ status := 2, session := r.session }, s)
      else
        let (ok, session, m) := cryInput r tid p.words
        if p.bad then ({ status := 4, session := session }, s)
        else if !ok then ({ status := 3, session := session }, s)
        else cryPerform s n r tid p.words session m mismatch keyBad

/-- CRY_OPS and CRY_ERR of cluster n count a status. -/
def cryCount (s : State) (n status : Nat) : State :=
  match status with
  | 0 => incSat s (CRY_OPS n) CRY_OPS_COUNT 1
  | 1 => incSat s (CRY_ERR n) CRY_ERR_FAIL 1
  | 5 => incSat s (CRY_ERR n) CRY_ERR_NOKEY 1
  | 6 => incSat s (CRY_ERR n) CRY_ERR_MISMATCH 1
  | _ => incSat s (CRY_ERR n) CRY_ERR_MALFORMED 1

/-- RESULT of a status. -/
def cryResult (status : Nat) : Nat := if status = 0 then 0 else if status = 1 then 1 else 2

/-- The output queue of a request and the longest packet it can get: the engine waits for room for it. -/
def cryOutQueue (s : State) (r : CryReq) (lo : Word) : Nat :=
  (getF s (QE_CFIRST r.outClass) QE_CFIRST_FIRST + lo.toNat % 65536) % 2 ^ 20

/-- An answer with its status is pushed and counted (R383). -/
def cryReply (s : State) (n op : Nat) (triad : Option Nat) (tid lo : Word) (o : CryOut) : State :=
  let sw := BitVec.ofNat 32 (op * 2 ^ 28 + o.status * 2 ^ 24 + (if op = 1 || op = 2 then o.session else 0))
  let s := match triad with
    | some t => pushPacket s (clusterRouter n) (0xFF140 + t) ([tid, lo, sw] ++ o.words)
    | none => pushPacket s (clusterRouter n) 0xFF010 ([tid, withResult lo (cryResult o.status), sw] ++ o.words)
  cryCount s n o.status

/-- The request that waits in the engine of cluster n. -/
def getJob (s : State) (n : Nat) : Option CryJob := tget (fun _ => none) s.cry n

def setJob (s : State) (n : Nat) (j : Option CryJob) : State := { s with cry := tset (fun _ => none) s.cry n j }

/-- The waiting request goes on once the whole packet finds room at its output queue (R380, R381). -/
def jobGo (s : State) (n : Nat) (j : CryJob) : State :=
  if !qeReady s || !roomPlusTwo s j.queue j.copy.length then s
  else
    let s := pushPacket (setJob s n none) (clusterRouter n) j.queue j.copy
    cryReply s n j.op j.triad j.tid j.lo { status := 0, session := j.session, words := j.words }

/-- An outcome is answered at once, but one that leaves a packet at an output queue first waits for room there (R380, R381). -/
def cryAnswer (s : State) (n : Nat) (r : CryReq) (tid lo : Word) (o : CryOut) : State :=
  if o.status = 0 && r.op != 3 && r.outClass != 0xFF then
    let j : CryJob := { op := r.op, queue := cryOutQueue s r lo, triad := r.triad, tid := tid, lo := lo, session := o.session,
                        words := o.words, copy := o.copy }
    jobGo (setJob s n (some j)) n j
  else cryReply s n r.op r.triad tid lo o

/-- The engine of cluster n serves a request that it has popped. -/
def cryTake (s : State) (n : Nat) (p : Packet) (v : QueueUpset) (mismatch keyBad : Bool) : State :=
  if p.words.isEmpty then s
  else if p.words.length < 3 || p.bad then incSat s (CRY_ERR n) CRY_ERR_MALFORMED 1
  else
    match cryRequest s p.words with
    | none => incSat s (CRY_ERR n) CRY_ERR_MALFORMED 1
    | some r =>
      let tid := p.words.getD 0 0
      let (o, s) := cryServe s n r tid v mismatch keyBad
      cryAnswer s n r tid (p.words.getD 1 0) o

/-- The operation of the request at the front of queue q, 0 when it is none of the three. -/
def frontOp (s : State) (q : Nat) : Nat :=
  match cryRequest s [peekAt s q 0, peekAt s q 1, peekAt s q 2, peekAt s q 3] with
  | none => 0
  | some r => if r.op ≤ 3 then r.op else 0

/-- The engine of cluster n goes on with operation `op`: with the request that waits for room, or with the one at the front of
its queue, when it is of that operation or of none; u and v are the upsets that the pops of the request and of its input meet. -/
def cryptoFront (s : State) (n op : Nat) (u v : QueueUpset) (mismatch keyBad : Bool) : State :=
  let q := 0xFF100 + n
  if !domOn s (4 + n) then s
  else
    match getJob s n with
    | some j => if j.op = op then jobGo s n j else s
    | none =>
      if !pktReady s (clusterRouter n) q then s
      else if 3 ≤ peekLen s q && frontOp s q != 0 && frontOp s q != op then s
      else
        let (p, s) := popPacket s (clusterRouter n) q u
        cryTake s n p v mismatch keyBad

/-- What CRY_STATUS of cluster n shows: NOSIGN and NOMASTER by the key store, BUSY while a request waits for room. -/
def cryStatus (s : State) (n : Nat) : Word :=
  BitVec.ofNat 32 (4 * b2n (!keyPresent s 0) + 2 * b2n (!keyPresent s 1 || !keyPresent s 2) + b2n (getJob s n).isSome)

end Sys2Proof.Machine
end

