-- ==== Sys2Proof/Machine/Operands.lean ====
section
/-!
DEFINITION. The ports of a core and the encodings of moves (spec chapter 03): the port table (R75), short codes (R77),
the widths of ports (R61), the decoding of a move and its legality (R78 to R83).
-/

namespace Sys2Proof.Machine

/-! ### The port table (R75) -/

/-- Access of a port: readable and writable, readable only, a trigger. -/
inductive PortKind where
  | rw | r | t
deriving DecidableEq, Repr

/-- Mode marking of a port: any mode, supervisor only, readable in any mode and writable in supervisor mode. -/
inductive PortMode where
  | any | s | rAnyWs
deriving DecidableEq, Repr

/-- The access of port `id`; none: unassigned. -/
def portKind (id : Nat) : Option PortKind :=
  if id ≤ 0x20 then some .rw
  else if id < 0x30 then none
  else if id = 0x30 then some .rw
  else if id ≤ 0x32 then some .r
  else if id < 0x40 then none
  else if id ≤ 0x4E then some .t
  else if id = 0x4F then none
  else if id ≤ 0x52 then some .rw
  else if id ≤ 0x56 then some .r
  else if id < 0x60 then none
  else if id ≤ 0x6C then some .t
  else if id < 0x70 then none
  else if id ≤ 0x73 then some .rw
  else if id ≤ 0x76 then some .t
  else if id = 0x77 then none
  else if id ≤ 0x79 then some .rw
  else if id = 0x7A then some .r
  else if id < 0x80 then none
  else if id ≤ 0x87 then some .t
  else if id ≤ 0x8A then some .rw
  else if id = 0x8B then some .r
  else if id ≤ 0x8D then some .t
  else if id < 0x90 then none
  else if id ≤ 0x9F then some .r
  else if id = 0xA0 then some .rw
  else if id ≤ 0xA4 then some .t
  else if id < 0xA8 then none
  else if id = 0xA8 then some .rw
  else if id ≤ 0xAB then some .r
  else if id ≤ 0xAD then some .t
  else if id < 0xB0 then none
  else if id ≤ 0xB1 then some .rw
  else if id ≤ 0xB5 then some .r
  else if id < 0xB8 then none
  else if id ≤ 0xBB then some .t
  else if id < 0xC0 then none
  else if id ≤ 0xDB then some .rw
  else if id ≤ 0xDE then some .r
  else if id = 0xDF then none
  else if id ≤ 0xE6 then some .t
  else if id = 0xE7 then none
  else if id ≤ 0xE9 then some .r
  else none

/-- The mode marking of port `id`. -/
def portMode (id : Nat) : PortMode :=
  if id = 0xA4 then .s
  else if 0xC0 ≤ id && id ≤ 0xD9 then .s
  else if id = 0xDA || id = 0xDB then .rAnyWs
  else if 0xDC ≤ id && id ≤ 0xDE then .s
  else if id = 0xE0 || id = 0xE1 || id = 0xE4 || id = 0xE5 then .s
  else .any

/-- Short destination codes 16 to 63 (R75), from 24 on. -/
def shortDstTable : List Nat :=
  [0x30, 0x40, 0x41, 0x42, 0x43, 0x44, 0x45, 0x46, 0x48, 0x49, 0x4A, 0x4D, 0x50, 0x51, 0x60, 0x61, 0x62, 0x63, 0x64, 0x65] ++
  [0x70, 0x71, 0x74, 0x76, 0x78, 0x79, 0x84, 0x81, 0x87, 0x85, 0xB0, 0xB1, 0xB8, 0xB9, 0xA0, 0xA1, 0xA3, 0xA8, 0xAC, 0xE3]

/-- The port that short destination code c stands for (R77). -/
def shortDst (c : Nat) : Nat := if c < 24 then c else shortDstTable.getD (c - 24) 0

/-- Short source codes 24 to 47 (R75). -/
def shortSrcTable : List Nat :=
  [0x31, 0x32, 0x20, 0x72, 0x73, 0x7A, 0x53, 0x54, 0x55, 0x56, 0xB2, 0xB3, 0xB4, 0xB5, 0x8B, 0xA8] ++
  [0x90, 0x91, 0x92, 0x93, 0x94, 0x95, 0x96, 0x97]

/-- The port that short source code c (below 48) stands for. -/
def shortSrc (c : Nat) : Nat := if c < 24 then c else shortSrcTable.getD (c - 24) 0

/-- The short destination code of a port, where it has one. -/
def shortDstCode (id : Nat) : Option Nat :=
  if id < 24 then some id else (shortDstTable.findIdx? (· == id)).map (· + 24)

/-- The bits that a port holds (R61, R88 and the port tables). -/
def portMask (id : Nat) : Word :=
  if id = 0x20 then 0x1F
  else if id = 0x32 then 0xFF
  else if id = 0x52 then 0x1F7
  else if id = 0x89 then 0x1FFFE
  else if id = 0x8A || id = 0x8B then 0x1F
  else if id = 0xB3 then 0x7FF
  else if id = 0xB4 then 0x873FFFFF
  else if id = 0xB5 then 0x3FFFFF
  else if id = 0xB0 then 0xFFFFF
  else if id = 0xB1 then 1
  else if 0xD0 ≤ id && id ≤ 0xD7 then 0x3F
  else if id = 0xD8 then 0xFFFFF800
  else if id = 0xDA then 2
  else if id = 0xDB then 0x8FFF00FF
  else 0xFFFFFFFF

/-- What a port holds when a triad has not written it: zero (R66), but S = 1 in ctl.mode. -/
def portInit (id : Nat) : Word := if id = 0xDA then 1 else 0

/-- A stored port of a triad. -/
def port (x : Triad) (id : Nat) : Word := tget portInit x.ports id

/-- The hardware or a move sets a stored port. -/
def setPort (x : Triad) (id : Nat) (w : Word) : Triad := { x with ports := tset portInit x.ports id w }

/-- Supervisor mode (R70). -/
def supervisor (x : Triad) : Bool := (port x 0xDA).getLsbD 0

/-- ctl.mode.DET (R187). -/
def detMode (x : Triad) : Bool := (port x 0xDA).getLsbD 1

/-! ### Moves (R78 to R83) -/

/-- The source of a decoded move. -/
inductive Src where
  | port (id : Nat)
  | imm (v : Word)
deriving DecidableEq, Repr

/-- What a decoded move does. -/
inductive MoveOp where
  | mv (dst : Nat) (src : Src) (seg : BitVec 3)
  | hi (dst : Nat) (v : BitVec 16)
  | branch (cond : BitVec 4) (off : BitVec 24)
  | call (mask : BitVec 16) (tgtSrc : Bool) (off : BitVec 12)
deriving DecidableEq, Repr

/-- A move: what it does, its length in bytes, and its encoding as word B of R208. -/
structure Move where
  op : MoveOp
  len : Nat
  enc : Word
deriving DecidableEq, Repr

/-- An exception: vector, SUB, ctl.fadr, WRITE and FETCH (R89); whether what raised it came from outside the core, so
that a trace records it (R599); what the access that failed leaves in a counter, 1 PD_REFUSED, 2 CLK_STOPCNT, 3 LAT_E2E
(R483, R506, R250), and its fabric address; the triad, the key of the word and what the read found in it, where a double-bit
error raised it (R131). -/
structure Exc where
  vec : Nat
  sub : Nat := 0
  fadr : Word := 0
  wr : Bool := false
  fetch : Bool := false
  ext : Bool := false
  count : Nat := 0
  caddr : Nat := 0
  meet : Option (Nat × Nat × Meet) := none
deriving DecidableEq, Repr

/-- The place of an exception in the order of R91, as far as memory accesses raise it. -/
def excRank (e : Exc) : Nat :=
  match e.vec with
  | 4 => 0
  | 2 => 1
  | 3 => 2
  | 7 => 3
  | 8 => 4
  | _ => 5

/-- The illegal-encoding exception (R82). -/
def excIllegal (enc : Word) : Exc := { vec := 0, fadr := enc }

/-- A short immediate source code, 48 to 63 (R78). -/
def shortImm (c : Nat) : Word := BitVec.ofInt 32 ((c : Int) - 56)

/-- Whether SEG may be other than 0 for a destination (R82). -/
def segAllowed (dst : Nat) : Bool := (0x80 ≤ dst && dst ≤ 0x87) || dst == 0x8C || dst == 0x8D

/-- Decode one halfword as a short move (R78, R79, R82). -/
def decodeShort (h : BitVec 16) : Except Exc Move :=
  let n := h.toNat
  let enc := BitVec.ofNat 32 n
  let dst := shortDst (bitsOf n 14 9)
  let c := bitsOf n 8 3
  let src := if c < 48 then Src.port (shortSrc c) else .imm (shortImm c)
  if bitsOf n 15 15 = 1 || bitsOf n 1 0 != 0 then .error (excIllegal enc)
  else if bitsOf n 2 2 = 1 && 23 < c then .error (excIllegal enc)
  else .ok { op := .mv dst src 0, len := 2, enc := enc }

/-- Decode two halfwords as a long move (R78, R80 to R82). -/
def decodeLong (w : Word) : Except Exc Move :=
  let n := w.toNat
  let bad : Except Exc Move := .error (excIllegal w)
  let ok (op : MoveOp) : Except Exc Move := .ok { op := op, len := 4, enc := w }
  let dst := bitsOf n 28 21
  match bitsOf n 30 29 with
  | 0 =>
    let seg := BitVec.ofNat 3 (bitsOf n 11 9)
    if bitsOf n 12 12 != 0 || bitsOf n 8 0 != 0 then bad
    else if seg != 0 && !segAllowed dst then bad
    else ok (.mv dst (.port (bitsOf n 20 13)) seg)
  | 1 =>
    if bitsOf n 20 20 = 1 then
      if 0x1F < dst || bitsOf n 19 16 != 0 then bad else ok (.hi dst (BitVec.ofNat 16 (bitsOf n 15 0)))
    else ok (.mv dst (.imm ((BitVec.ofNat 20 (bitsOf n 19 0)).signExtend 32)) 0)
  | 2 =>
    if bitsOf n 24 24 != 0 then bad
    else ok (.branch (BitVec.ofNat 4 (bitsOf n 28 25)) (BitVec.ofNat 24 (bitsOf n 23 0)))
  | _ =>
    let off := BitVec.ofNat 12 (bitsOf n 11 0)
    if bitsOf n 12 12 = 1 then
      if off != 0 then bad else ok (.call (BitVec.ofNat 16 (bitsOf n 28 13)) true 0)
    else ok (.call (BitVec.ofNat 16 (bitsOf n 28 13)) false off)

/-- Length of a move in bytes, from its first halfword (R78). -/
def encLen : Encoding → Nat
  | .short _ => 2
  | .long _ => 4

def decodeMove : Encoding → Except Exc Move
  | .short h => decodeShort h
  | .long w => decodeLong w

/-- The halfword of a short move with destination code dc. -/
def encShort (dc : Nat) (src : BitVec 6) (last : Bool) : BitVec 16 :=
  BitVec.ofNat 16 (dc * 2 ^ 9 + src.toNat * 2 ^ 3 + b2n last * 4)

/-- The word of a port move. -/
def encPort (dst : Nat) (src : BitVec 8) (seg : BitVec 3) : Word :=
  BitVec.ofNat 32 (2 ^ 31 + dst * 2 ^ 21 + src.toNat * 2 ^ 13 + seg.toNat * 2 ^ 9)

/-- The word of an immediate move. -/
def encImm (dst : Nat) (hi : Bool) (imm : BitVec 20) : Word :=
  BitVec.ofNat 32 (2 ^ 31 + 2 ^ 29 + dst * 2 ^ 21 + b2n hi * 2 ^ 20 + imm.toNat)

/-- The word of a conditional branch. -/
def encBranch (cond : BitVec 4) (off : BitVec 24) : Word :=
  BitVec.ofNat 32 (2 ^ 31 + 2 ^ 30 + cond.toNat * 2 ^ 25 + off.toNat)

/-- The word of a call with mask. -/
def encCall (mask : BitVec 16) (tgtSrc : Bool) (off : BitVec 12) : Word :=
  BitVec.ofNat 32 (2 ^ 31 + 2 ^ 30 + 2 ^ 29 + mask.toNat * 2 ^ 13 + b2n tgtSrc * 2 ^ 12 + off.toNat)

/-- The encoding of the move with destination port `dst` and the given form; a port without a short destination code
has no short form, and its code field is then taken as 0 (such a command is not well formed). -/
def encForm (dst : Nat) : MoveForm → Encoding
  | .short src last => .short (encShort ((shortDstCode dst).getD 0) src last)
  | .port src seg => .long (encPort dst src seg)
  | .imm v => .long (encImm dst false v)

/-- The move that a destination port and a form name, checked as R82 checks its encoding. -/
def moveOf (dst : Nat) (f : MoveForm) : Except Exc Move :=
  match f with
  | .short src last =>
    let enc := (encShort ((shortDstCode dst).getD 0) src last).zeroExtend 32
    if last && 23 < src.toNat then .error (excIllegal enc)
    else
      let s := if src.toNat < 48 then Src.port (shortSrc src.toNat) else .imm (shortImm src.toNat)
      .ok { op := .mv dst s 0, len := 2, enc := enc }
  | .port src seg =>
    let enc := encPort dst src seg
    if seg != 0 && !segAllowed dst then .error (excIllegal enc)
    else .ok { op := .mv dst (.port src.toNat) seg, len := 4, enc := enc }
  | .imm v => .ok { op := .mv dst (.imm (v.signExtend 32)) 0, len := 4, enc := encImm dst false v }

/-- Length of the move that a form spells. -/
def formLen : MoveForm → Nat
  | .short _ _ => 2
  | _ => 4

/-- The illegal-port exception of a source, if it breaks R83. -/
def srcIllegal : Src → Option Exc
  | .imm _ => none
  | .port id =>
    match portKind id with
    | none => some { vec := 1, sub := 0, fadr := BitVec.ofNat 32 id }
    | some .t => some { vec := 1, sub := 1, fadr := BitVec.ofNat 32 id }
    | some _ => none

/-- The illegal-port exception of a destination, if it breaks R83. -/
def dstIllegal (id : Nat) : Option Exc :=
  match portKind id with
  | none => some { vec := 1, sub := 0, fadr := BitVec.ofNat 32 id }
  | some .r => some { vec := 1, sub := 2, fadr := BitVec.ofNat 32 id }
  | some _ => none

/-- The privilege exception of a task-mode move (R70). DESIGN CHOICE (log entry 78): where the source and the destination are both
reserved, ctl.fadr holds the source's ID. -/
def privIllegal (src : Src) (dst : Nat) : Option Exc :=
  let e (id : Nat) : Option Exc := some { vec := 11, sub := 0, fadr := BitVec.ofNat 32 id }
  let d := match portMode dst with
    | .any => none
    | .s | .rAnyWs => e dst
  match src with
  | .imm _ => d
  | .port id =>
    match portMode id with
    | .s => e id
    | .any | .rAnyWs => d

/-- The exceptions that a move's ports raise before it acts: R83, then R70 in task mode (R91). -/
def portExc (sup : Bool) (op : MoveOp) : Option Exc :=
  match op with
  | .mv dst src _ =>
    match srcIllegal src with
    | some e => some e
    | none =>
      match dstIllegal dst with
      | some e => some e
      | none => if sup then none else privIllegal src dst
  | .hi _ _ | .branch _ _ | .call _ _ _ => none

/-! ### Units (R86, R165, R168) -/

/-- Unit ID of a port: 0 ALU, 1 DEC, 2 MUL, 3 LSU, 4 GTH, 5 BR, 6 LOOP, 7 QP, 8 CTL; none for registers and fl. -/
def portUnit (id : Nat) : Option Nat :=
  if id < 0x30 then none
  else if id < 0x50 then some 0
  else if id < 0x70 then some 1
  else if id < 0x78 then some 2
  else if id < 0x88 then some 3
  else if id < 0xA0 then some 4
  else if id < 0xA8 then some 5
  else if id < 0xB0 then some 6
  else if id < 0xC0 then some 7
  else some 8

/-- The operand ports of a unit (R86 rule 6). -/
def operandPorts : Nat → List Nat
  | 0 => [0x30]
  | 1 => [0x50, 0x51, 0x52]
  | 2 => [0x70, 0x71]
  | 3 => [0x78, 0x79]
  | 4 => [0x88, 0x89, 0x8A]
  | 5 => [0xA0]
  | 6 => [0xA8]
  | 7 => [0xB0, 0xB1]
  | _ => []

/-- The ports besides its own that a trigger's operation writes: result ports, fl, dec.mode where it can set BAD, g31 or the
ports that a return restores. -/
def producedBy (id : Nat) : List Nat :=
  if 0x40 ≤ id && id ≤ 0x4C then [0x31, 0x32, 0x20]
  else if id = 0x4D || id = 0x4E then [0x20]
  else if id = 0x64 then [0x53, 0x20]
  else if id = 0x66 || id = 0x67 || id = 0x6A || id = 0x6C then [0x53, 0x54, 0x20, 0x52]
  else if id = 0x68 then [0x53, 0x54, 0x20]
  else if id = 0x6B then [0x55, 0x56, 0x20, 0x52]
  else if 0x60 ≤ id && id ≤ 0x69 then [0x53, 0x20, 0x52]
  else if 0x74 ≤ id && id ≤ 0x76 then [0x72, 0x73]
  else if 0x80 ≤ id && id ≤ 0x84 then [0x7A]
  else if id = 0x8C || id = 0x8D then 0x8B :: (List.range 16).map (0x90 + ·)
  else if id = 0xA2 || id = 0xA3 then [0x1F]
  else if id = 0xA4 then [0x20, 0xD9, 0xDA, 0xDB]
  else if id = 0xB9 then [0xB2, 0xB3]
  else if id = 0xBB then [0xB4, 0xB5]
  else []

def isTrigger (id : Nat) : Bool := portKind id == some .t

/-- The unit that a write of port `id` triggers. -/
def triggers (id : Nat) : Option Nat := if isTrigger id then portUnit id else none

/-- The GTH ports in image order. -/
def gthPorts : List Nat := [0x88, 0x89, 0x8A, 0x8B] ++ (List.range 16).map (0x90 + ·)

/-- The ports that the image of a unit holds, in its order (R169). -/
def imagePorts : Nat → List Nat
  | 0 => [0x30, 0x31, 0x32]
  | 1 => [0x50, 0x51, 0x52, 0x53, 0x54, 0x55, 0x56]
  | 2 => [0x70, 0x71, 0x72, 0x73]
  | 3 => [0x78, 0x79, 0x7A]
  | 4 => gthPorts
  | 5 => [0xA0]
  | 6 => [0xA8]
  | 7 => [0xB0, 0xB1, 0xB2, 0xB3, 0xB4, 0xB5]
  | _ => []

/-- The ports that a move reads, `v` being the value that it transports: that of ctl.usave names a unit (R168). -/
def readsOf (v : Word) : MoveOp → List Nat
  | .mv dst src _ =>
    (if dst = 0xE4 then imagePorts (bitsOf v.toNat 31 28) else []) ++ (match src with | .port id => [id] | .imm _ => []) ++
      (match triggers dst with | some u => operandPorts u | none => []) ++
      (if dst = 0x41 || dst = 0x43 || dst = 0x61 || dst = 0x63 then [0x20] else []) ++
      (if dst = 0x64 then [0x32] else []) ++ (if dst = 0x76 then [0x72, 0x73] else []) ++
      (if dst = 0xA2 || dst = 0xA3 then [0x1F] else [])
  | .hi dst _ => [dst]
  | .branch _ _ => [0x20]
  | .call mask tgtSrc _ =>
    0x1F :: ((if tgtSrc then [0xA0] else []) ++ ((List.range 16).filter (fun i => mask.getLsbD i)).map (· + 16))

/-- The port a move writes, 256 for a branch or call. -/
def dstOf : MoveOp → Nat
  | .mv dst _ _ => dst
  | .hi dst _ => dst
  | .branch _ _ | .call _ _ _ => 256

/-- The registers and ports that a move writes, `v` being the value that it transports (R86 rules 5 and 6, R170). -/
def writesOf (v : Word) : MoveOp → List Nat
  | .mv dst _ _ => dst :: (producedBy dst ++ if dst = 0xE5 then imagePorts (bitsOf v.toNat 31 28) else [])
  | .hi dst _ => [dst]
  | .branch _ _ => []
  | .call _ _ _ => [0x1F]

/-- Whether a move may be A of a pair (R86 rule 3). -/
def mayLead : MoveOp → Bool
  | .mv dst _ _ => !(portUnit dst == some 5 || portUnit dst == some 6 || portUnit dst == some 8)
  | .hi _ _ => true
  | .branch _ _ | .call _ _ _ => false

/-- Whether the move at hand follows A directly, outside deterministic mode and in at most 6 bytes (R86 rules 1 and 2). -/
def pairFits (det : Bool) (a : PairInfo) (pc : Word) (len : Nat) : Bool := !det && a.next == pc && a.len + len ≤ 6

/-- Whether B, the move at hand that transports v, pairs with the A before it (R86 rules 1, 2, 4 to 6). -/
def pairsWith (det : Bool) (a : PairInfo) (pc : Word) (b : Move) (v : Word) : Bool :=
  let ad := a.dst.toNat
  let aw := ad :: producedBy ad
  pairFits det a pc b.len && !((triggers ad).isSome && triggers ad == triggers (dstOf b.op)) &&
    (writesOf v b.op).all (fun p => !aw.contains p) && (readsOf v b.op).all (fun p => !aw.contains p) &&
    (match b.op with | .branch _ _ => !(triggers ad == some 0 || triggers ad == some 1) | _ => true)

/-! ### Ports as moves read and write them -/

/-- The value of a readable port other than ctl.claim. -/
def readPort (s : State) (t : Nat) (id : Nat) : Word :=
  let x := getT s t
  if id = 0xA8 then (match x.loops with | [] => x.lcnt | l :: _ => l.count)
  else if id = 0xA9 then (match x.loops with | [] => 0 | l :: _ => l.start)
  else if id = 0xAA then (match x.loops with | [] => 0 | l :: _ => l.stop)
  else if id = 0xAB then BitVec.ofNat 32 x.loops.length
  else if id = 0xE8 then BitVec.ofNat 32 t
  else if id = 0xE9 then BitVec.ofNat 32 (getF s (SUP_TRIAD t) SUP_TRIAD_GROUP)
  else port x id

/-- The fetch segment: s6 in supervisor mode, s1 in task mode (R72). -/
def fetchSeg (x : Triad) : Nat := if supervisor x then 6 else 1

/-- Clear both caches (R139, R140). -/
def flushCaches (x : Triad) : Triad := { x with icache := [], dcache := [], group := none }

/-- Write an RW port (R61, R76, R88, R160, R187). The fetch restarts after a write to a descriptor of the fetch segment and
after a write of ctl.mode (R173). -/
def writePort (x : Triad) (id : Nat) (w : Word) : Triad :=
  let v := w &&& portMask id
  if id = 0xA8 then { x with lcnt := w }
  else if 0xC0 ≤ id && id ≤ 0xD7 then
    let sa := 0xD0 + id % 8
    let lock := port x sa &&& 0x100
    if lock != 0 then x else { setPort x id v with group := if id % 8 = fetchSeg x then none else x.group }
  else if id = 0xDA then
    let y := setPort x id (v ||| (port x id &&& 1))
    if detMode x && !detMode y then flushCaches y else { y with group := none }
  else setPort x id v

/-- Halt triad t (R603). -/
def haltTriad (s : State) (t : Nat) : State :=
  let s := setReg s DBG_STAT (reg s DBG_STAT ||| BitVec.ofNat 32 (2 ^ t))
  setT s t { getT s t with halted := true, stepping := false, haltAt := none, pairA := none }

/-! ### Suspension (R164) -/

/-- ctl.prog of a suspended routine. -/
def progWord (unit : Nat) (trig : BitVec 8) (k : Nat) : Word :=
  BitVec.ofNat 32 (2 ^ 31 + unit * 2 ^ 24 + trig.toNat * 2 ^ 16 + k % 256)

/-- Steps completed by the routine under way. -/
def stepsDone (x : Triad) : Routine → Nat
  | .dec _ => x.dec.step
  | .gth _ _ => (port x 0x8B).toNat
  | .call _ _ _ k => k

/-- Suspend the routine under way: ctl.prog and SUSP (R164). -/
def suspend (x : Triad) : Triad :=
  match x.run with
  | none => x
  | some r =>
    let k := stepsDone x r.routine
    match r.routine with
    | .dec _ => { setPort x 0xDB (progWord 1 x.dec.trig k) with dec := { x.dec with susp := true }, run := none }
    | .gth _ _ => { setPort x 0xDB (progWord 4 x.gth.trig k) with gth := { x.gth with susp := true }, run := none }
    | .call _ _ _ _ => { setPort x 0xDB (progWord 5 0 k) with run := none }

end Sys2Proof.Machine
end

