-- ==== Sys2Proof/Machine/Lattice.lean ====
section
/-!
DEFINITION. The lattice and the common store (spec chapter 09): failed links, routes and routers, bank accesses, the rows of
scrubbing, torn bursts, and the priority commands.
-/

namespace Sys2Proof.Machine

/-! ### Link and packet errors (R249, R250) -/

/-- SPARELINKS and FAILLINKS follow the links' STATE fields. -/
def countLinks (s : State) : State :=
  let n (v : Nat) := ((List.range 24).filter (fun i => getF s (LAT_LINK i) LAT_LINK_STATE == v)).length
  setF (setF s LAT_STATUS LAT_STATUS_SPARELINKS (n 1)) LAT_STATUS LAT_STATUS_FAILLINKS (n 3)

/-- A flit on link i, in one of its two directions, fails its CRC; `again` when it is the replay of a flit that has just failed
there (R249). The spare serves both directions from the switch on, so the failures in succession of both start again with it. A
failure that a replay or the spare masks is logged so (R231, R232). -/
def flitError (s : State) (i : Nat) (back again : Bool) : State :=
  let s := incSat s (LAT_LINK i) LAT_LINK_RETRY 1
  let k := 2 * i + b2n back
  let n := if again then tget (fun _ => 0) s.lat.flits k + 1 else 1
  let put (s : State) (v : Nat) : State := { s with lat := { s.lat with flits := tset (fun _ => 0) s.lat.flits k v } }
  if n < 4 then maskedFault (put s n) noElem
  else
    let s := put s 0
    if getF s (LAT_LINK i) LAT_LINK_STATE = 0 then
      let s := { s with lat := { s.lat with flits := tset (fun _ => 0) s.lat.flits (4 * i + 1 - k) 0 } }
      let s := countLinks (setF s (LAT_LINK i) LAT_LINK_STATE 1)
      srcEvent (maskedFault s noElem) 16
    else if getF s (LAT_LINK i) LAT_LINK_STATE = 1 then
      let s := countLinks (setF s (LAT_LINK i) LAT_LINK_STATE 3)
      srcEvent (srcEvent (logFault s .detect noElem noElem 0) 16) 17
    else s

/-- A packet from router `src` to `dst` fails its end-to-end CRC; `second` when it is the retransmission (R250). The
retransmission masks the first failure (R231, R232). -/
def packetError (s : State) (src dst : Nat) (second : Bool) : State :=
  if second then
    if routeFailed s src dst then s
    else
      let s := { s with lat := { s.lat with routes := tset (fun _ => false) s.lat.routes (16 * src + dst) true } }
      let s := incSat s LAT_E2E LAT_E2E_ROUTEFAIL 1
      srcEvent (logFault s .detect noElem noElem 0) 17
  else maskedFault (incSat s LAT_E2E LAT_E2E_RETX 1) noElem

/-- The logic of router r fails: every route through it is failed (R250). -/
def routerFail (s : State) (r : Nat) : State :=
  let f := getF s LAT_RTRFAIL LAT_RTRFAIL_FAIL
  let s := setF s LAT_RTRFAIL LAT_RTRFAIL_FAIL (f ||| 2 ^ r)
  srcEvent (logFault s .detect noElem noElem 0) 17

/-! ### Common store banks (R245 to R247, R252, R259) -/

/-- A double-bit error found by master m's access at word address a: poison, DBL, the capture, and the entry of a detected
fault (R131, R231, R232, R259). -/
def bankDouble (s : State) (m a : Nat) : State :=
  let s := logFault (setPoison s a true) .detect noElem noElem 0
  let s := incSat s (CS_BANK (bankOf a)) CS_BANK_DBL 1
  if flag s CS_ERRINFO CS_ERRINFO_VALID then s
  else
    let s := setReg s CS_ERRADR (BitVec.ofNat 32 (a / 4 * 4))
    let s := setF s CS_ERRINFO CS_ERRINFO_SRC m
    setFlag s CS_ERRINFO CS_ERRINFO_VALID true

/-- The storage upset that an access meets in the word at `a` (R131, R232). -/
def bankUpset (s : State) (m a : Nat) : Upset → State
  | .none => s
  | .single => maskedFault (incSat s (CS_BANK (bankOf a)) CS_BANK_CORR 1) noElem
  | .double => bankDouble s m a

/-- A word store: it clears poison (R134, R246). -/
def bankWord (s : State) (a : Nat) (w : Word) : State := setPoison (putWord s (a / 4 * 4) w) a false

/-- Merge the bytes that `be` enables into a word. -/
def mergeBytes (old new : Word) (be : BitVec 4) : Word :=
  let pick (i : Nat) : Nat := if be.getLsbD i then bitsOf new.toNat (8 * i + 7) (8 * i)
                              else bitsOf old.toNat (8 * i + 7) (8 * i)
  BitVec.ofNat 32 (pick 0 + 256 * pick 1 + 65536 * pick 2 + 16777216 * pick 3)

/-- A store with byte enables: one read-merge-write, discarded and counted on a poisoned word (R246). -/
def bankPart (s : State) (a : Nat) (w : Word) (be : BitVec 4) : State :=
  if be = 15 then bankWord s a w
  else if poisoned s a then incSat s (CS_BANK (bankOf a)) CS_BANK_DISC 1
  else putWord s (a / 4 * 4) (mergeBytes (getWord s (a / 4 * 4)) w be)

/-- The words of a write burst, one after another. -/
def bankWords (a : Nat) : List Word → State → State
  | [], s => s
  | w :: r, s => bankWords (a + 4) r (bankWord s a w)

/-- A write burst of which the bank accepted only `beats` whole beats before the abort (R252). -/
def bankTorn (s : State) (m a beats : Nat) (ws : List Word) : State :=
  let s := bankWords a (ws.take (8 * beats)) s
  let s := incSat s (CS_BANK (bankOf a)) CS_BANK_TORN 1
  let s := incSat s LAT_TORN LAT_TORN_COUNT 1
  let s := setF s LAT_TORN LAT_TORN_SRC m
  srcEvent (setF s LAT_TORN LAT_TORN_TGT (bankOf a)) 19

/-- A burst as the lattice carries it: 1 to 16 beats of 32 bytes from a 32-byte boundary on, within 4 KiB (R238). -/
def burstOk (a words : Nat) : Bool :=
  a % 32 = 0 && words % 8 = 0 && 0 < words && words ≤ 128 && a % 4096 + 4 * words ≤ 4096

/-- The words of a read burst, each with the mark of a poisoned one (R132, R245). -/
def readBurst (s : State) (a n : Nat) : List (Word × Word) :=
  (List.range n).map (fun i => (getWord s (a + 4 * i), BitVec.ofNat 32 (8 * b2n (poisoned s (a + 4 * i)))))

/-- An access answers with words; `rdata` holds the first. -/
def answerWords (s : State) (l : List (Word × Word)) : State :=
  { s with rwords := l, rdata := match l with | [] => 0 | p :: _ => p.1 }

/-- What a read by master m finds in the words from `a` on, in ascending order (R131, R247). -/
def bankUpsets (s : State) (m a : Nat) : List Upset → State
  | [] => s
  | u :: r => bankUpsets (bankUpset s m a u) m (a + 4) r

/-- One access of master m that its bank performs (R238, R245); a read of a word is one beat. -/
def bankAccess (s : State) (m a : Nat) (op : BankOp) : State :=
  match op with
  | .read u =>
    let s := bankUpset s m a u
    answerWords s (readBurst s (a / 4 * 4) 1)
  | .readBurst beats found =>
    let n := 8 * beats.toNat
    if burstOk a n then
      let s := bankUpsets s m a (found.take n)
      answerWords s (readBurst s a n)
    else s
  | .store w be u =>
    let s := if be = 15 then s else bankUpset s m a u
    bankPart s a w be
  | .burst ws => if burstOk a ws.length then bankWords a ws s else s
  | .torn ws beats => if burstOk a ws.length then bankTorn s m a beats.toNat ws else s

/-- A core's access that ends on a failed route raises its exception; another master gets an error response (R250). -/
def bankReach (s : State) (m a : Nat) (op : BankOp) : State :=
  if accessFailed s m a then { routeLost s with rstat := if m < 32 then s.rstat else 2 } else bankAccess s m a op

/-! ### Scrubbing of a bank (R247) -/

/-- The address of row n of bank b: its pages in ascending order, 128 rows each (R22). -/
def scrubRowAt (b n : Nat) : Nat := 0x10000000 + (16 * (n / 128) + b) * 4096 + n % 128 * 32

/-- Rows of a bank. -/
def bankRows : Nat := 81920

/-- Rows that bank b has scrubbed since reset. -/
def rowsDone (s : State) (b : Nat) : Nat := tget (fun _ => 0) s.lat.rows b

/-- Whether bank b's row n ends a pass over the common store: the last bank to finish it ends it. -/
def passEnds (s : State) (b n : Nat) : Bool :=
  (n + 1) % bankRows = 0 && (List.range 16).all (fun k => k == b || n + 1 ≤ rowsDone s k)

/-! ### Stop bits and intake (R255 to R257, R26) -/

/-- Intake as R26, R51 and R556 allow it: no safe halt, keys present, the island with a supply (R580), boot complete with a weave
loaded and no store failed in its self-test. -/
def intakeFit (s : State) : Bool :=
  !flag s MOD_STATUS MOD_STATUS_SAFEHALT && !flag s MOD_STATUS MOD_STATUS_KEYLOST && !s.islandOff &&
    flag s MOD_STATUS MOD_STATUS_READY && getF s WV_STATUS WV_STATUS_STATE == 2 &&
    !flag s BOOT_STATUS BOOT_STATUS_SELFTEST

/-- The held stop bits (R256): bit 0 host, 1 supervisors, 2 boot engine. -/
def stopBits (s : State) : BitVec 3 :=
  BitVec.ofNat 3 (b2n (flag s MOD_STOP MOD_STOP_HOSTSTOP) + 2 * b2n (flag s MOD_STOP MOD_STOP_SUPSTOP) +
    4 * b2n (flag s MOD_STOP MOD_STOP_BOOTSTOP))

/-- Intake accepts datagrams: no stop bit, and R26 allows it (R256). -/
def intakeAllowed (s : State) : Bool := intakeFit s && stopBits s == 0

/-- MOD_STATUS.INTAKE follows what it depends on. -/
def intakeUpdate (s : State) : State := setFlag s MOD_STATUS MOD_STATUS_INTAKE (intakeAllowed s)

/-- The MAC of port p, 0 ETH0, 1 ETH1, 2 SER, loads its working copies from the held bits (R257). -/
def macStops (s : State) (p : Nat) : State :=
  { s with net := { s.net with stops := tset (fun _ => 0) s.net.stops p (stopBits s) } }

/-- Port p takes ACTIVE from the last back-pressure command (R255); SER has no register for it. -/
def macThrottle (s : State) (p : Nat) : State := if p < 2 then setFlag s (ETH_THR p) ETH_THR_ACTIVE s.lat.throttle else s

/-- The MAC of port p starts with both (R257, log entry 87). -/
def macLoad (s : State) (p : Nat) : State := macThrottle (macStops s p) p

/-- Every MAC whose domain is ON takes `f`. -/
def eachMac (f : State → Nat → State) (s : State) : State :=
  [0, 1, 2].foldl (fun s p => if domOn s (13 + p) then f s p else s) s

/-- Every MAC whose domain is ON follows the held bits. -/
def macFollow (s : State) : State := eachMac macStops s

/-- The router of a sender of stop commands. -/
def senderRouter (who : Nat) : Nat := masterRouter (if who = 0 then 36 else if who = 1 then 39 else 38)

/-- A priority command of a sender to L31 is lost over a failed route (R258). -/
def stopLost (s : State) (who : Nat) : Bool := routeFailed s (senderRouter who) 7

/-- Set or clear the held stop bit of a sender: 0 host, 1 supervisors, 2 boot engine; the command that follows acts at the MACs,
unless a failed route loses it (R256 to R258). -/
def setStop (s : State) (who : Nat) (b : Bool) : State :=
  let f := match who with
    | 0 => MOD_STOP_HOSTSTOP
    | 1 => MOD_STOP_SUPSTOP
    | _ => MOD_STOP_BOOTSTOP
  let s := setFlag s MOD_STOP f b
  intakeUpdate (if stopLost s who then s else macFollow s)

/-- A RESUME-INTAKE of a sender; only a power-on reset clears the supervisors' bit, and the boot engine's stays under
SCANLOCK (R256). -/
def resumeIntake (s : State) (who : Nat) : State :=
  if who = 1 || 3 ≤ who || stopLost s who || (who = 2 && flag s MOD_STOP MOD_STOP_SCANLOCK) then s
  else setStop s who false

/-- A STOP-INTAKE of a sender. -/
def stopIntake (s : State) (who : Nat) : State := if 3 ≤ who || stopLost s who then s else setStop s who true

end Sys2Proof.Machine
end

