-- ==== Sys2Proof/Machine/Tally.lean ====
section
/-!
DEFINITION. The tally engine (spec chapter 12): tallies and their values, requests and their answers, recorded reads and
reports, parking, the sequencer's messages, loads and the selected tally's snapshot.
-/

namespace Sys2Proof.Machine

/-! ### Order of transactions (R300) -/

/-- Transaction x is earlier than transaction y. -/
def earlier (x y : Word) : Bool := let d := (y - x).toNat; 1 ≤ d && d < 2 ^ 31

/-- The earliest of the listed transactions that satisfy `p`. -/
def earliest (l : List Word) : Option Word :=
  l.foldl (fun b x => match b with
    | none => some x
    | some y => if earlier x y then some x else some y) none

/-! ### Values (R328) -/

/-- Whether every digit of a word is a decimal digit. -/
def digitsOk (w : Word) : Bool := (List.range 8).all (fun i => bitsOf w.toNat (4 * i + 3) (4 * i) ≤ 9)

/-- The number that 8 packed digits spell. -/
def bcdNat (w : Word) : Nat := (List.range 8).foldl (fun n i => 10 * n + bitsOf w.toNat (31 - 4 * i) (28 - 4 * i)) 0

/-- 8 packed digits of a number. -/
def natBcd (n : Nat) : Word :=
  BitVec.ofNat 32 ((List.range 8).foldl (fun a i => a + n / 10 ^ i % 10 * 16 ^ i) 0)

/-- The magnitude that four words spell, word 0 lowest. -/
def bcdWords (l : List Word) : Nat := l.reverse.foldl (fun n w => 10 ^ 8 * n + bcdNat w) 0

/-- The signed value of four words, in 32-digit ten's complement. -/
def tallyValue (l : List Word) : Int :=
  let n := bcdWords l
  if 5 * 10 ^ 31 ≤ n then (n : Int) - 10 ^ 32 else n

/-- The four words of a number modulo 10^32. -/
def tallyWords (v : Int) : List Word :=
  let n := (v % 10 ^ 32).toNat
  (List.range 4).map (fun i => natBcd (n / 10 ^ (8 * i) % 10 ^ 8))

/-! ### Accessors -/

def setTly (s : State) (e : TallyEng) : State := { s with tly := e }

def getTally (s : State) (k : Nat) : Tally := tget (fun _ => {}) s.tly.tallies k

def setTally (s : State) (k : Nat) (x : Tally) : State :=
  setTly s { s.tly with tallies := tset (fun _ => {}) s.tly.tallies k x }

def getTSlot (s : State) (i : Nat) : Option TSlot := tget (fun _ => none) s.tly.slots i

def setTSlot (s : State) (i : Nat) (x : Option TSlot) : State :=
  setTly s { s.tly with slots := tset (fun _ => none) s.tly.slots i x }

/-- X's delta on tally k. -/
def deltaOf (t : Tally) (x : Word) : Option Int := (t.deltas.find? (fun d => d.1 == x)).map (·.2)

/-- S_X(k) (R329). -/
def specSum (t : Tally) (x : Word) : Int :=
  t.c + ((t.deltas.filter (fun d => d.1 == x || earlier d.1 x)).map (·.2)).sum

/-- How many tallies hold a delta of X. -/
def deltaCount (s : State) (x : Word) : Nat := (s.tly.tallies.filter (fun p => (deltaOf p.2 x).isSome)).length

/-- TLY_DEPUSED, TLY_PARKED and DEPFULL follow the engine's state. -/
def tallySync (s : State) : State :=
  let s := setF s TLY_DEPUSED TLY_DEPUSED_USED s.tly.reads.length
  let s := setF s TLY_PARKED TLY_PARKED_COUNT s.tly.parked.length
  setFlag s TLY_STATUS TLY_STATUS_DEPFULL (131072 ≤ s.tly.reads.length)

/-! ### Reports (R338, R339) -/

/-- Remove X's delta on every tally it holds one on: the tallies changed, in order of their numbers. -/
def dropDeltas (s : State) (x : Word) : List Nat × State :=
  let ks := (s.tly.tallies.filter (fun p => (deltaOf p.2 x).isSome)).map (·.1)
  (ks, ks.foldl (fun s k => let t := getTally s k
                            setTally s k { t with deltas := t.deltas.filter (fun d => d.1 != x) }) s)

/-- Erase X's records. -/
def eraseReads (s : State) (x : Word) : State :=
  setTly s { s.tly with reads := s.tly.reads.filter (fun r => r.tid != x) }

/-- The first record of tally k held by a transaction later than y. -/
def nextReader (s : State) (y : Word) (k : Nat) : Option ReadRec :=
  s.tly.reads.find? (fun r => r.tally == k && earlier y r.tid)

/-- Work of a change: tally k was changed by transaction y; or transaction x has to be reported. -/
inductive Change where
  | changed (k : Nat) (y : Word)
  | reader (x : Word)

/-- Steps 1, 2 and 4 of a report of X, and the removal of its deltas: the tallies those changed. -/
def reportOne (s : State) (x : Word) (root : Option Word) : List Nat × State :=
  match s.tly.reads.find? (fun r => r.tid == x) with
  | none => ([], s)
  | some r =>
    let s := setTly s { s.tly with reports := s.tly.reports ++
      [{ slot := r.slot, tid := x, stage := r.stage, root := root }] }
    let s := incSat s TLY_REPORT TLY_REPORT_COUNT 1
    let s := eraseReads s x
    let s := match getTSlot s r.slot with
      | some t => setTSlot s r.slot (some { t with held := true })
      | none => s
    dropDeltas s x

/-- Report every reader that the listed changes reach, oldest record first, each reader's own discards before the next
reader (R339); `n` bounds the steps: each erases a record or ends a change. -/
def spread (root : Option Word) : Nat → List Change → State → State
  | 0, _, s => s
  | _, [], s => s
  | n + 1, .changed k y :: r, s =>
    match nextReader s y k with
    | none => spread root n r s
    | some x => spread root n (.reader x.tid :: .changed k y :: r) s
  | n + 1, .reader x :: r, s =>
    let (ks, s) := reportOne s x root
    spread root n (ks.map (fun k => .changed k x) ++ r) s

/-- Steps that `spread` needs at most: each record costs three steps and at most one for each tally that is changed. -/
def spreadFuel (s : State) (l : List Change) : Nat :=
  l.length + 4 * s.tly.reads.length + (s.tly.tallies.map (fun p => p.2.deltas.length)).sum + 1

def spreadAll (s : State) (root : Option Word) (l : List Change) : State := spread root (spreadFuel s l) l s

/-! ### Requests (R330 to R337) -/

def reqTid (r : TReq) : Word := r.words.getD 0 0

def reqOp (r : TReq) : Nat := bitsOf (r.words.getD 3 0).toNat 31 28

def reqTally (r : TReq) : Nat := bitsOf (r.words.getD 3 0).toNat 15 0

def reqStage (r : TReq) : BitVec 8 := BitVec.ofNat 8 (bitsOf (r.words.getD 1 0).toNat 31 24)

/-- RESULT that a STATUS carries (R335). -/
def tallyResult (status : Nat) : Nat := if status = 0 then 0 else if status = 1 then 1 else 2

/-- Answer a request with STATUS and value, and count it (R335). -/
def tallyAnswer (s : State) (r : TReq) (status : Nat) (value : List Word) : State :=
  let lo := r.words.getD 1 0
  let w2 := r.words.getD 2 0
  let sw := BitVec.ofNat 32 (reqOp r * 2 ^ 28 + status * 2 ^ 24 + reqTally r)
  let s := if w2.getLsbD 31 then pushPacket s (masterRouter 34) (0xFF240 + bitsOf w2.toNat 28 24) ([reqTid r, lo, sw] ++ value)
           else pushPacket s (masterRouter 34) 0xFF010 ([reqTid r, withResult lo (tallyResult status), sw] ++ value)
  match status with
  | 1 => incSat s TLY_OVER TLY_OVER_COUNT 1
  | 3 => incSat s TLY_ERR TLY_ERR_STALE 1
  | 5 | 6 => incSat s TLY_ERR TLY_ERR_BAD 1
  | 4 | 8 => incSat s TLY_ERR TLY_ERR_BUSY 1
  | _ => s

def zeroValue : List Word := [0, 0, 0, 0]

/-- The check of R332. -/
def tallyStale (s : State) (r : TReq) : Bool :=
  match getTSlot s r.slot with
  | none => true
  | some t =>
    t.tid != reqTid r || t.epoch.toNat != bitsOf (r.words.getD 1 0).toNat 19 16 || t.held || t.aborted

/-- Whether X has passed its commit point. -/
def reqCommitted (s : State) (r : TReq) : Bool :=
  match getTSlot s r.slot with
  | some t => t.committed
  | none => false

/-- A speculative read of X needs a record: X is not at the head, not committed, and holds none for k (R337). -/
def needsRecord (s : State) (r : TReq) : Bool :=
  s.tly.head != some (reqTid r) && !reqCommitted s r &&
    !s.tly.reads.any (fun x => x.tally == reqTally r && x.tid == reqTid r)

/-- Make the record, where one is needed. -/
def makeRecord (s : State) (r : TReq) : State :=
  if needsRecord s r then
    setTly s { s.tly with reads := s.tly.reads ++
      [{ tally := reqTally r, tid := reqTid r, slot := r.slot, stage := reqStage r }] }
  else s

/-- Whether the request has to wait for a record (R340). -/
def recordShort (s : State) (r : TReq) : Bool := needsRecord s r && 131072 ≤ s.tly.reads.length

/-- Outcome of one try: done, or parked for what. -/
inductive Tried where
  | done (s : State)
  | park (w : TWait) (s : State)

/-- Step 5 and 6 of R330, with R341; reaching step 5 records the read, also where the ADD is then parked (R337). -/
def tryAddSum (s : State) (r : TReq) (v : Int) : Tried :=
  let s := makeRecord s r
  let k := reqTally r
  let x := reqTid r
  let sum := specSum (getTally s k) x
  let new := sum + v
  let lim : Int := (getTally s k).limit
  if lim < new || new < -lim || new < -(5 * 10 ^ 31) || 5 * 10 ^ 31 ≤ new then
    .done (tallyAnswer s r 1 (tallyWords sum))
  else
    let full (s : State) : Bool := (deltaOf (getTally s k) x).isNone && 8 ≤ (getTally s k).deltas.length
    let s := if full s then
        spreadAll s none (((getTally s k).deltas.filter (fun d => earlier x d.1)).map (fun d => .reader d.1))
      else s
    if full s then .park (.entry k) s
    else
      let t := getTally s k
      let ds := match deltaOf t x with
        | some _ => t.deltas.map (fun d => if d.1 == x then (x, d.2 + v) else d)
        | none => t.deltas ++ [(x, v)]
      let s := setTally s k { t with deltas := ds }
      let s := spreadAll s none [.changed k x]
      .done (tallyAnswer s r 0 (tallyWords (specSum (getTally s k) x)))

/-- ADD (R330). -/
def tryAdd (s : State) (r : TReq) : Tried :=
  let k := reqTally r
  let x := reqTid r
  let d := (r.words.drop 4).take 4
  if !d.all digitsOk then .done (tallyAnswer s r 6 zeroValue)
  else if !(getTally s k).en then .done (tallyAnswer s r 2 zeroValue)
  else if reqCommitted s r then .done (tallyAnswer s r 7 zeroValue)
  else if (deltaOf (getTally s k) x).isNone && 16 ≤ deltaCount s x then .done (tallyAnswer s r 4 zeroValue)
  else if recordShort s r then .park .record s
  else tryAddSum s r (tallyValue d)

/-- READSPEC and READCOMM (R334). -/
def tryRead (s : State) (r : TReq) (spec : Bool) : Tried :=
  let t := getTally s (reqTally r)
  if !t.en then .done (tallyAnswer s r 2 zeroValue)
  else if spec then
    if recordShort s r then .park .record s
    else .done (tallyAnswer (makeRecord s r) r 0 (tallyWords (specSum t (reqTid r))))
  else .done (tallyAnswer s r 0 (tallyWords t.c))

/-- One try of a request whose turn it is. -/
def tryRequest (s : State) (r : TReq) : Tried :=
  if tallyStale s r then .done (tallyAnswer s r 3 zeroValue)
  else
    let op := reqOp r
    let n := r.words.length
    if bitsOf (r.words.getD 3 0).toNat 27 16 != 0 || !(op == 1 || op == 2 || op == 3) ||
        n != (if op = 1 then 8 else 4) then .done (tallyAnswer s r 5 zeroValue)
    else if op = 1 then tryAdd s r
    else tryRead s r (op = 2)

/-! ### Parking (R340 to R342) -/

def parkedOf (s : State) (slot : Nat) : Nat := (s.tly.parked.filter (fun p => p.2.slot == slot)).length

def park (s : State) (w : TWait) (r : TReq) : State := setTly s { s.tly with parked := s.tly.parked ++ [(w, r)] }

/-- A request as it arrives: STALE comes first; behind a parked request of its slot it waits its turn, four at most. -/
def arrive (s : State) (r : TReq) : State :=
  if tallyStale s r then tallyAnswer s r 3 zeroValue
  else if parkedOf s r.slot = 0 then
    match tryRequest s r with
    | .done s => s
    | .park w s => park s w r
  else if 4 ≤ parkedOf s r.slot then tallyAnswer s r 8 zeroValue
  else park s .turn r

/-- A reported slot is held until its REWIND, which discards what it has parked (R339, R342). -/
def slotHeld (s : State) (slot : Nat) : Bool :=
  match getTSlot s slot with
  | some t => t.held
  | none => false

/-- Whether a parked request may be released now. -/
def releasable (s : State) (p : TWait × TReq) : Bool :=
  !slotHeld s p.2.slot &&
  match p.1 with
  | .record => !recordShort s p.2
  | .entry k => (getTally s k).deltas.length < 8
  | .turn => (s.tly.parked.find? (fun q => q.2.slot == p.2.slot)) == some p

/-- The parked request to release next: the earliest transaction's, its earliest arrival first. -/
def nextRelease (s : State) : Option (TWait × TReq) :=
  let l := s.tly.parked.filter (releasable s)
  match earliest (l.map (fun p => reqTid p.2)) with
  | none => none
  | some x => l.find? (fun p => reqTid p.2 == x)

/-- Replace the first parked request equal to p. -/
def replaceParked (p : TWait × TReq) (q : Option (TWait × TReq)) : List (TWait × TReq) → List (TWait × TReq)
  | [] => []
  | x :: r => if x = p then q.toList ++ r else x :: replaceParked p q r

/-- Perform released requests, at most n; one that has to wait again keeps its place. -/
def releaseAll : Nat → State → State
  | 0, s => s
  | n + 1, s =>
    match nextRelease s with
    | none => s
    | some p =>
      match tryRequest s p.2 with
      | .done s => releaseAll n (setTly s { s.tly with parked := replaceParked p none s.tly.parked })
      | .park w s => releaseAll n (setTly s { s.tly with parked := replaceParked p (some (w, p.2)) s.tly.parked })

/-- After every operation and message: parked requests that may go on, then the counts. -/
def tallyDone (s : State) : State := tallySync (releaseAll (4 * s.tly.parked.length) s)

/-- Discard the parked requests of a slot (R342). -/
def unpark (s : State) (slot : Nat) : State :=
  setTly s { s.tly with parked := s.tly.parked.filter (fun p => p.2.slot != slot) }

/-! ### Taking requests -/

/-- Whether the engine takes work: its domain is ON and the card is not in safe halt. -/
def tallyRuns (s : State) : Bool := domOn s 3 && !safeHalt s

/-- The engine takes the request at the front of its queue, when its operation is `op` or none of the three (R334, R336,
R346), after the messages that stand on the private link, which have arrived before it (R332). -/
def tallyFront (s : State) (op : Nat) (u : QueueUpset) : State :=
  let front := bitsOf (peekAt s 0xFF200 3).toNat 31 28
  if !tallyRuns s || !flag s TLY_CTRL TLY_CTRL_OPEN || !s.weft.msgs.isEmpty || !pktReady s (masterRouter 34) 0xFF200 then s
  else if 4 ≤ peekLen s 0xFF200 && (front == 1 || front == 2 || front == 3) && front != op then s
  else
    let (p, s) := popPacket s (masterRouter 34) 0xFF200 u
    if p.words.isEmpty then s
    else if p.words.length < 4 || p.bad then incSat s TLY_ERR TLY_ERR_MALFORMED 1
    else tallyDone (arrive s { slot := (p.words.getD 1 0).toNat % 65536, words := p.words })

/-! ### Messages of the sequencer (R331, R343, R344, R339) -/

/-- The slot record is that of transaction x. -/
def slotIs (s : State) (slot : Nat) (x : Word) : Bool :=
  match getTSlot s slot with
  | some t => t.tid == x
  | none => false

def tallyBegin (s : State) (slot : Nat) (x : Word) : State := setTSlot s slot (some { tid := x })

def tallyHead (s : State) (x : Option Word) : State := setTly s { s.tly with head := x }

/-- COMMIT (R343). -/
def tallyCommit (s : State) (slot : Nat) (x : Word) : State :=
  if !slotIs s slot x then s
  else
    let tab := s.tly.tallies.foldl (fun l p => match deltaOf p.2 x with
      | none => l
      | some d => tset (fun _ => {}) l p.1 { p.2 with c := p.2.c + d, deltas := p.2.deltas.filter (fun e => e.1 != x) })
      s.tly.tallies
    let s := eraseReads (setTly s { s.tly with tallies := tab }) x
    match getTSlot s slot with
    | some t => setTSlot s slot (some { t with committed := true })
    | none => s

/-- Discard X's deltas, report the readers of each, and erase X's records. -/
def tallyUndo (s : State) (x : Word) (root : Option Word) : State :=
  let s := eraseReads s x
  let (ks, s) := dropDeltas s x
  spreadAll s root (ks.map (fun k => .changed k x))

/-- ABORT (R344). -/
def tallyAbort (s : State) (slot : Nat) (x : Word) : State :=
  if !slotIs s slot x then s
  else
    let s := tallyUndo (unpark s slot) x (some x)
    match getTSlot s slot with
    | some t => setTSlot s slot (some { t with aborted := true })
    | none => s

/-- REWIND (R339, R342). -/
def tallyRewind (s : State) (slot : Nat) (x : Word) (e : BitVec 4) (root : Option Word) : State :=
  if !slotIs s slot x then s
  else
    let s := tallyUndo (unpark s slot) x root
    match getTSlot s slot with
    | some t => setTSlot s slot (some { t with epoch := e, held := false })
    | none => s

/-- END. -/
def tallyEnd (s : State) (slot : Nat) (x : Word) : State :=
  if slotIs s slot x then setTSlot (unpark s slot) slot none else s

/-- The front message of the sequencer's private link leaves it. -/
def takeMsg (s : State) : State := { s with weft := { s.weft with msgs := s.weft.msgs.drop 1 } }

/-! ### Loads and the selected tally (R346, R348) -/

/-- The digits of TLY_LDVAL0 to TLY_LDVAL3. -/
def loadWords (s : State) : List Word := (List.range 4).map (fun i => reg s (TLY_LDVAL i))

/-- The record of a tally load (R352). -/
def loadBody (k : Nat) (l : List Word) : Body :=
  { type := 0x8006, source := 0xE004, payload := leBytes 2 k ++ ofWords l }

/-- A write of TLY_LDCMD (R346). -/
def tallyLoad (s : State) (w : Word) : State :=
  if !w.getLsbD 31 then s
  else if flag s TLY_CTRL TLY_CTRL_OPEN || !(loadWords s).all digitsOk then
    setFlag s TLY_STATUS TLY_STATUS_LDREFUSED true
  else if !ledgerAccepts s then s
  else
    let k := getF s TLY_LDIDX TLY_LDIDX_TALLY
    let s := setTally s k { getTally s k with c := tallyValue (loadWords s) }
    acceptRecord (setFlag s TLY_STATUS TLY_STATUS_LDBUSY true) (loadBody k (loadWords s)) .load

/-- A write of TLY_CTRL: OPEN is set for the rest of the boot. -/
def tallyOpen (s : State) (w : Word) : State :=
  if w.getLsbD 0 then setFlag (setFlag s TLY_CTRL TLY_CTRL_OPEN true) TLY_STATUS TLY_STATUS_OPEN true else s

/-- ADDs parked on tally k for an entry. -/
def parkedOn (s : State) (k : Nat) : Nat :=
  (s.tly.parked.filter (fun p => reqOp p.2 == 1 && reqTally p.2 == k)).length

/-- A write of TLY_SEL latches the selected tally's registers (R348). -/
def tallySelect (s : State) (w : Word) : State :=
  let k := w.toNat % 65536
  let s := setF s TLY_SEL TLY_SEL_TALLY k
  let t := getTally s k
  let s := setReg s TLY_INFO (BitVec.ofNat 32 (b2n t.en * 2 ^ 31 + t.deltas.length * 65536 + min (parkedOn s k) 65535))
  let s := (tallyWords t.c).zipIdx.foldl (fun s p => setReg s (TLY_COMM p.2) p.1) s
  (tallyWords (t.limit : Int)).zipIdx.foldl (fun s p => setReg s (TLY_LIM p.2) p.1) s

end Sys2Proof.Machine
end

