-- ==== Sys2Proof/Machine/Weft.lean ====
section
/-!
DEFINITION. The weft sequencer (spec chapter 11): tokens and context blocks, dispatch, commit point, results, timeouts,
aborts, rewinds, throttling.
-/

namespace Sys2Proof.Machine

/-! ### Accessors -/

def setWeft (s : State) (w : Weft) : State := { s with weft := w }

def getW (s : State) (i : Nat) : Option WSlot := tget (fun _ => none) s.weft.slots i

def setW (s : State) (i : Nat) (x : Option WSlot) : State :=
  setWeft s { s.weft with slots := tset (fun _ => none) s.weft.slots i x }

/-- Send the tally engine a message (R331). -/
def sendMsg (s : State) (m : TMsg) : State := setWeft s { s.weft with msgs := s.weft.msgs ++ [m] }

def maxFlight (s : State) : Nat := getF s WS_MAXFLIGHT WS_MAXFLIGHT_MAX

def startStage (s : State) : Nat := getF s WS_GEOM WS_GEOM_START

def stageCount (s : State) : Nat := getF s WS_GEOM WS_GEOM_NSTAGE

def stageKind (s : State) (i : Nat) : Nat := getF s (WS_STGW0 i) WS_STGW0_KIND

def stageHarg (s : State) (i : Nat) : Nat := getF s (WS_STGW0 i) WS_STGW0_HARG

def stageQclass (s : State) (i : Nat) : Nat := getF s (WS_STGW0 i) WS_STGW0_QCLASS

def stageNarg (s : State) (i : Nat) : Nat := getF s (WS_STGW2 i) WS_STGW2_NARG

def stageOarg (s : State) (i : Nat) : Nat := getF s (WS_STGW2 i) WS_STGW2_OARG

/-- FLAGS bit of a stage: 0 SPEC, 1 COMMIT, 2 POST, 3 CKPT (R304). -/
def stageFlag (s : State) (i b : Nat) : Bool := (getF s (WS_STGW0 i) WS_STGW0_FLAGS).testBit b

/-- NEXTk of a stage. -/
def stageNext (s : State) (i k : Nat) : BitVec 8 := BitVec.ofNat 8 (bitsOf (reg s (WS_STGW1 i)).toNat (8 * k + 7) (8 * k))

/-- The class of the START stage. -/
def startClass (s : State) : Nat := stageQclass s (startStage s)

/-- The notice queue of the START stage's class (R307). -/
def startQueue (s : State) : Nat := 0xFFF00 + getF s (QE_COWN (startClass s)) QE_COWN_NOTIFY

/-- A token's low word (R299). -/
def tokenLow (x : WSlot) (slot : Nat) : Word :=
  BitVec.ofNat 32 (x.stage.toNat * 2 ^ 24 + x.result.toNat * 2 ^ 22 + b2n x.committed * 2 ^ 21 + b2n x.rewound * 2 ^ 20 +
    x.epoch.toNat * 2 ^ 16 + slot)

/-! ### Context blocks (R302) -/

def ctxAddr (s : State) (slot : Nat) : Nat := (reg s WS_CTXBASE).toNat / 4096 * 4096 + 128 * slot

/-- The sequencer's accesses to the context block of a slot end on a failed route (R250). -/
def ctxLost (s : State) (slot : Nat) : Bool := accessFailed s 33 (ctxAddr s slot)

/-- Word i of a context block. DESIGN CHOICE: over a failed route the sequencer goes on with an open value (log entry 83). -/
def ctxWord (s : State) (slot i : Nat) : Word :=
  if ctxLost s slot then Config.lostWord (ctxAddr s slot + 4 * i) s.fresh else getWord s (ctxAddr s slot + 4 * i)

/-- Write words i onwards of a context block: one access, which a failed route loses (R250). -/
def setCtxs (s : State) (slot i : Nat) (l : List Word) : State :=
  if ctxLost s slot then routeLost s else bankWords (ctxAddr s slot + 4 * i) l s

def setCtx (s : State) (slot i : Nat) (w : Word) : State := setCtxs s slot i [w]

/-- The sequencer reads words of a context block for what it sends on; the access is counted where it ends on a failed route. -/
def readCtx (s : State) (slot : Nat) : State := if ctxLost s slot then routeLost s else s

def ctxQid (s : State) (slot : Nat) : Nat := (ctxWord s slot 2).toNat % 2 ^ 20

def ctxConsumed (s : State) (slot : Nat) : Bool := (ctxWord s slot 2).getLsbD 20

def ctxCkValid (s : State) (slot : Nat) : Bool := (ctxWord s slot 3).getLsbD 0

def ctxCkStage (s : State) (slot : Nat) : BitVec 8 := BitVec.ofNat 8 (bitsOf (ctxWord s slot 3).toNat 15 8)

/-- ARGi (first = 8) or CKPi (first = 20), n words. -/
def ctxArgs (s : State) (slot first n : Nat) : List Word := (List.range n).map (fun i => ctxWord s slot (first + i))

/-- The context's token words follow the slot. -/
def putToken (s : State) (slot : Nat) (x : WSlot) : State :=
  setCtx (setCtx s slot 0 x.tid) slot 1 (tokenLow x slot)

/-- A slot and its token in the context block. -/
def putW (s : State) (slot : Nat) (x : WSlot) : State := putToken (setW s slot (some x)) slot x

/-! ### Head and status (R301, R321, R331) -/

/-- Transactions that stand in front of others: in flight, not committed, not aborting. -/
def standing (s : State) : List Word :=
  s.weft.slots.filterMap (fun p => match p.2 with
    | some x => if x.committed || x.phase == .aborting then none else some x.tid
    | none => none)

/-- Slots in use. -/
def inFlight (s : State) : Nat := s.weft.slots.length

/-- The head transaction; HEAD goes to the tally engine whenever it changes. -/
def headSync (s : State) : State :=
  let h := earliest (standing s)
  if h = s.weft.head then s else sendMsg (setWeft s { s.weft with head := h }) (.head h)

/-- A transaction at the head waits for room in the ring (R322). -/
def ringWaits (s : State) : Bool :=
  s.weft.slots.any (fun p => match p.2 with
    | some x => x.phase == .waiting && some x.tid == s.weft.head && stageFlag s x.next.toNat 1 && x.next != 0xFF &&
                !ledgerRoom s
    | none => false)

/-- One of the conditions of R321 is true. -/
def throttleOn (s : State) : Bool :=
  getF s LED_HIWATER LED_HIWATER_SLOTS ≤ ledgerOcc s || inFlight s == maxFlight s || 65536 ≤ qWords s (startQueue s) ||
    flag s QE_STATUS QE_STATUS_POOLLOW

/-- Every release condition of R321 holds. -/
def throttleOff (s : State) : Bool :=
  ledgerOcc s + 1024 < getF s LED_HIWATER LED_HIWATER_SLOTS && inFlight s ≤ maxFlight s - maxFlight s / 8 &&
    qWords s (startQueue s) < 32768 && !flag s QE_STATUS QE_STATUS_POOLLOW

/-- THROTTLE-ON or THROTTLE-OFF acts at the ports whose domain is ON (R255), the others take it when they return (log entry
87); over a failed route to L31 it is lost (R258). -/
def setThrottle (s : State) (b : Bool) : State :=
  if routeFailed s (masterRouter 33) 7 then s else
  eachMac macThrottle { s with lat := { s.lat with throttle := b } }

/-- The sequencer sends THROTTLE-ON or THROTTLE-OFF. -/
def weftThrottle (s : State) (b : Bool) : State := setThrottle (setFlag s WS_STATUS WS_STATUS_THROTTLE b) b

/-- The sequencer looks at the conditions of R321 while its domain is ON and its stage table is loaded. -/
def throttleSync (s : State) : State :=
  if !weaveLocked s || !domOn s 3 || stageCount s = 0 then s
  else if flag s WS_STATUS WS_STATUS_THROTTLE then (if throttleOff s then weftThrottle s false else s)
  else if throttleOn s then weftThrottle s true else s

/-- The sequencer's registers follow its state. -/
def weftSync (s : State) : State :=
  let s := headSync s
  let s := setF s WS_INFLIGHT WS_INFLIGHT_COUNT (inFlight s)
  let s := setFlag s WS_STATUS WS_STATUS_FULL (inFlight s == maxFlight s)
  let s := setFlag s WS_STATUS WS_STATUS_RINGWAIT (ringWaits s)
  setReg s WS_HEADTID (s.weft.head.getD (reg s WS_TIDNEXT))

/-- The sequencer works: enabled, its domain ON, no safe halt. -/
def weftRuns (s : State) : Bool := flag s WS_STATUS WS_STATUS_RUN && domOn s 3 && !safeHalt s

/-! ### Start (R323) -/

/-- The context area lies wholly in the common store. -/
def ctxAreaOk (s : State) : Bool :=
  let b := (reg s WS_CTXBASE).toNat / 4096 * 4096
  0x10000000 ≤ b && b + 128 * maxFlight s ≤ 0x12800000

/-- A write of WS_CTRL. -/
def weftControl (s : State) (w : Word) : State :=
  let s := setFlag s WS_CTRL WS_CTRL_HOLD (w.getLsbD 1)
  if !w.getLsbD 0 then setFlag (setFlag s WS_CTRL WS_CTRL_EN false) WS_STATUS WS_STATUS_RUN false
  else if flag s WS_CTRL WS_CTRL_EN then s
  else if ctxAreaOk s then setFlag (setFlag s WS_CTRL WS_CTRL_EN true) WS_STATUS WS_STATUS_RUN true
  else setFlag s WS_STATUS WS_STATUS_CTXERR true

/-! ### Creating tokens (R307) -/

/-- The slot of the next token. -/
def nextSlot (s : State) : Nat := (reg s WS_TIDNEXT).toNat % max (maxFlight s) 1

/-- Create a token whose intake queue is q. -/
def createToken (s : State) (q : Nat) : State :=
  let tid := reg s WS_TIDNEXT
  let slot := nextSlot s
  let st := BitVec.ofNat 8 (startStage s)
  let x : WSlot := { tid := tid, stage := st, next := st }
  let s := setW s slot (some x)
  let s := setCtxs s slot 0 ([tid, tokenLow x slot, BitVec.ofNat 32 q] ++ List.replicate 29 0)
  let s := setReg s WS_TIDNEXT (tid + 1)
  weftSync (sendMsg s (.begin slot tid))

/-- The sequencer pops one notice. -/
def tokenCreate (s : State) (u : QueueUpset) : State :=
  if !weftRuns s || flag s WS_CTRL WS_CTRL_HOLD || flag s WS_STATUS WS_STATUS_STOPPED || (getW s (nextSlot s)).isSome ||
      !qeReady s || !qeRoute s (masterRouter 33) || 64 ≤ startClass s then s
  else
    let s := heldAccess s 2
    let (w, tag, s) := popCore s (startQueue s) 65 u
    if !tag.getLsbD 0 then s
    else if tag.getLsbD 2 then incSat s WS_NOTE WS_NOTE_LOST w.toNat
    else if tag.getLsbD 3 then incSat s WS_NOTE WS_NOTE_LOST 1
    else
      match bitsOf w.toNat 31 30 with
      | 2 => incSat s WS_NOTE WS_NOTE_LOST 1
      | 3 => incSat s WS_NOTE WS_NOTE_BROKEN 1
      | _ => createToken s (w.toNat % 2 ^ 20)

/-! ### End of a transaction (R316, R627) -/

/-- The classes that have a work queue for each slot: inputs other than the START class, and crypto outputs. -/
def workClasses (s : State) : List Nat :=
  (List.range (min (stageCount s) 256)).flatMap (fun i =>
    (if stageQclass s i < 64 && stageQclass s i != startClass s then [stageQclass s i] else []) ++
    (if (stageKind s i == 1 || stageKind s i == 2) && stageOarg s i < 64 then [stageOarg s i] else []))

/-- Work queue of class c for a slot, when the class reaches it (R303). -/
def workQueue (s : State) (c slot : Nat) : Option Nat :=
  let q := getF s (QE_CFIRST c) QE_CFIRST_FIRST + slot
  if flag s (QE_COWN c) QE_COWN_VALID && q ≤ getF s (QE_CLAST c) QE_CLAST_LAST then some q else none

/-- Reset every work queue of a slot, as the RESET command does; over a failed route nothing is reset (R250). -/
def resetWork (s : State) (slot : Nat) : State :=
  if !qeRoute s (masterRouter 33) then routeLost s else
  (workClasses s).foldl (fun s c => match workQueue s c slot with
    | some q => resetQueue s q c
    | none => s) s

/-- Reset the work queues, clear the context block, free the slot. -/
def freeSlot (s : State) (slot : Nat) (x : WSlot) : State :=
  let s := setCtxs (resetWork s slot) slot 0 (List.replicate 32 0)
  weftSync (sendMsg (setW s slot none) (.fin slot x.tid))

/-- Step 4 of an abort, once the packet has been taken and nothing is outstanding. -/
def abortGo (s : State) (slot : Nat) : State :=
  match getW s slot with
  | none => s
  | some x =>
    if x.phase = .aborting && !x.outstanding && ctxConsumed s slot then freeSlot s slot x else weftSync s

/-- Abort the transaction in a slot with reason r (R315, R316). -/
def abortSlot (s : State) (slot r : Nat) : State :=
  match getW s slot with
  | none => s
  | some x =>
    if x.committed || x.phase = .aborting then s
    else
      let s := incSat s (WS_ABT r) WS_ABT_COUNT 1
      let s := putW s slot { x with phase := .aborting, result := if r = 2 then 3 else x.result }
      abortGo (sendMsg s (.abort slot x.tid)) slot

/-- Abort every transaction that has not committed. -/
def abortAll (s : State) (r : Nat) : State := (s.weft.slots.map (·.1)).foldl (fun s i => abortSlot s i r) s

/-- The slot of a TID (R300). -/
def tidSlot (s : State) (tid : Word) : Nat := tid.toNat % max (maxFlight s) 1

/-- Transaction tid is out at a triad. -/
def handles (s : State) (tid : Word) : Bool :=
  match getW s (tidSlot s tid) with
  | none => false
  | some x => x.tid == tid && x.outstanding && stageKind s x.stage.toNat == 0

/-- A triad has stopped: the transactions it handles, in a rewind or not, abort with TRIADSTOP (R219, R315). -/
def abortOfTriad (s : State) (t : Nat) : State :=
  (tget (fun _ => []) s.weft.handler t).foldl (fun s tid => if handles s tid then abortSlot s (tidSlot s tid) 3 else s) s

/-- Transaction tid is at no triad any more: its dispatch has returned or timed out. -/
def handled (s : State) (tid : Word) : State :=
  setWeft s { s.weft with handler := (s.weft.handler.map (fun p => (p.1, p.2.filter (fun y => y != tid)))).filter
                                       (fun p => !p.2.isEmpty) }

/-- The next word of dispatch queue q begins a packet, or not. -/
def packetOpen (s : State) (q : Nat) (b : Bool) : State :=
  if 0xFF000 ≤ q && q < 0xFF010 then setWeft s { s.weft with taking := tset (fun _ => false) s.weft.taking (q % 16) b } else s

/-- Triad t has taken a word with this tag from dispatch queue q: with the first word of a dispatch it becomes its handler. -/
def noteHandler (s : State) (t q : Nat) (data tag : Word) : State :=
  let mid := tget (fun _ => false) s.weft.taking (q % 16)
  let s := packetOpen s q (!tag.getLsbD 1)
  if mid || tag.getLsbD 2 || !handles s data then s
  else
    let s := handled s data
    let l := tget (fun _ => []) s.weft.handler t
    setWeft s { s.weft with handler := tset (fun _ => []) s.weft.handler t (l ++ [data]) }

/-! ### Dispatch (R308 to R311) -/

/-- Every earlier transaction of the same intake queue has CONSUMED = 1 (R308). -/
def intakeTurn (s : State) (slot : Nat) (x : WSlot) : Bool :=
  s.weft.slots.all (fun p => match p.2 with
    | some y => !(earlier y.tid x.tid && ctxQid s p.1 == ctxQid s slot && !ctxConsumed s p.1)
    | none => true)

/-- Every abort of a transaction earlier than x is complete (R317). -/
def abortsDone (s : State) (x : Word) : Bool :=
  let later (y : Option Word) : Bool := match y with
    | some y => !earlier y x
    | none => true
  s.weft.msgs.all (fun m => match m with
    | .abort _ y => !earlier y x
    | .rewind _ _ _ root => later root
    | _ => true) && s.tly.reports.all (fun r => later r.root)

/-- A report of transaction x is on its way: it is going to be rewound. -/
def reported (s : State) (x : Word) : Bool := s.tly.reports.any (fun r => r.tid == x)

def atHead (s : State) (x : WSlot) : Bool := s.weft.head == some x.tid

/-- The queue a stage is dispatched into (R305). -/
def dispatchQueue (s : State) (i : Nat) : Nat :=
  match stageKind s i with
  | 0 => 0xFF000 + stageHarg s i
  | 1 | 2 => 0xFF100 + stageHarg s i
  | 3 => 0xFF200
  | 4 => 0xFF300
  | 5 => 0xFF510 + stageHarg s i
  | _ => 0xFF400

/-- The input of a stage (R303): none when the class does not reach it, else the QID, if it has one. -/
def stageInput (s : State) (slot i : Nat) : Option (Option Nat) :=
  let c := stageQclass s i
  if c = 0xFF then some none
  else if c = startClass s then some (some (ctxQid s slot))
  else (workQueue s c slot).map some

/-- The wait conditions of R310 for stage i. -/
def stageReady (s : State) (slot : Nat) (x : WSlot) (i : Nat) : Bool :=
  (stageQclass s i != startClass s || stageQclass s i == 0xFF || intakeTurn s slot x) &&
    (if stageFlag s i 2 || stageFlag s i 0 then true
     else atHead s x && abortsDone s x.tid &&
       (!stageFlag s i 1 || (!reported s x.tid && ledgerRoom s && ledgerAccepts s)))

/-- CKPT = 1: the argument words become the checkpoint (R318). -/
def takeCheckpoint (s : State) (slot i : Nat) : State :=
  let s := setCtxs (readCtx s slot) slot 20 (ctxArgs s slot 8 12)
  setCtx s slot 3 (BitVec.ofNat 32 (i * 256 + 1))

/-- Push the dispatch packet of stage i; a commit stage has been given its number `seq` (R309, R357). -/
def pushDispatch (s : State) (slot : Nat) (x : WSlot) (i : Nat) (input : Option Nat) (seq : List Word) : State :=
  let w2 := match input with
    | some q => BitVec.ofNat 32 (q + 2 ^ 20)
    | none => 0
  pushPacket s (masterRouter 33) (dispatchQueue s i) ([x.tid, tokenLow x slot, w2] ++ ctxArgs s slot 8 (stageNarg s i) ++ seq)

/-- The commit point (R311): the number, the tally engine's COMMIT, COMMITTED. -/
def commitPoint (s : State) (slot : Nat) (x : WSlot) (i : Nat) : List Word × WSlot × State :=
  let o := if stageKind s i = 6 then Origin.draw else Origin.commit
  let (n, s) := drawNumber s x.tid o none .none
  ([BitVec.ofNat 32 n, BitVec.ofNat 32 (n / 2 ^ 32)], { x with committed := true }, sendMsg s (.commit slot x.tid))

/-- Dispatch stage i to its handler. -/
def dispatchStage (s : State) (slot : Nat) (x : WSlot) (i : Nat) (input : Option Nat) : State :=
  let x := { x with stage := BitVec.ofNat 8 i, result := 0, phase := .dispatched, outstanding := true,
                    outEpoch := x.epoch, restored := false }
  let (seq, x, s) := if stageFlag s i 1 then commitPoint s slot x i else ([], x, s)
  let s := if stageFlag s i 3 then takeCheckpoint s slot i else s
  weftSync (pushDispatch (readCtx (putW s slot x) slot) slot x i input seq)

/-- The transaction in a slot moves on when its wait conditions have cleared (R309, R310). -/
def stageDispatch (s : State) (slot : Nat) : State :=
  match getW s slot with
  | none => s
  | some x =>
    if !weftRuns s || !qeReady s || !qeRoute s (masterRouter 33) || x.phase != .waiting then s
    else if x.next = 0xFF then
      if x.committed then freeSlot s slot x
      else if atHead s x && abortsDone s x.tid && !reported s x.tid then abortSlot s slot 1
      else s
    else
      let i := x.next.toNat
      if !stageReady s slot x i then weftSync s
      else
        match stageInput s slot i with
        | none =>
          if x.committed then freeSlot (incSat s (WS_ABT 8) WS_ABT_COUNT 1) slot x else abortSlot s slot 8
        | some input =>
          let n := 3 + stageNarg s i + (if stageFlag s i 1 then 2 else 0)
          if n + 2 ≤ roomOf s (dispatchQueue s i) then dispatchStage s slot x i input else weftSync s

/-! ### Results (R312, R313) -/

/-- Step 3 of a rewind, once nothing is outstanding (R319). -/
def rewindGo (s : State) (slot : Nat) : State :=
  match getW s slot with
  | none => s
  | some x =>
    if x.phase = .rewinding && !x.outstanding then
      let s := readCtx (resetWork s slot) slot
      let s := setCtxs s slot 8 (ctxArgs s slot 20 12)
      weftSync (putW s slot { x with phase := .waiting, next := ctxCkStage s slot, restored := true })
    else weftSync s

/-- The outstanding dispatch of a rewinding or aborting transaction has come back or timed out. -/
def dispatchBack (s : State) (slot : Nat) (x : WSlot) : State :=
  let s := handled (setW s slot (some { x with outstanding := false })) x.tid
  if x.phase = .aborting then abortGo s slot else rewindGo s slot

/-- An accepted result with code k and result words l (R308, R312, R313). -/
def acceptResult (s : State) (slot : Nat) (x : WSlot) (k : Nat) (l : List Word) : State :=
  let i := x.stage.toNat
  let s := setCtxs (handled s x.tid) slot 8 l
  let s := if stageQclass s i = startClass s && stageQclass s i != 0xFF
    then setCtx s slot 2 (ctxWord s slot 2 ||| BitVec.ofNat 32 (2 ^ 20)) else s
  let next := stageNext s i k
  let x := { x with result := BitVec.ofNat 2 k, phase := .waiting, next := next, outstanding := false }
  let s := putW s slot x
  if next = 0xFF then (if x.committed then freeSlot s slot x else weftSync s)
  else if x.committed && !stageFlag s next.toNat 2 then freeSlot (incSat s (WS_ABT 6) WS_ABT_COUNT 1) slot x
  else if !x.committed && stageFlag s next.toNat 2 then abortSlot s slot 6
  else weftSync s

/-- A result packet that names a slot's outstanding dispatch. -/
def resultMatches (x : WSlot) (slot : Nat) (tid lo : Word) : Bool :=
  x.outstanding && x.tid == tid && bitsOf lo.toNat 31 24 == x.stage.toNat && bitsOf lo.toNat 19 16 == x.outEpoch.toNat &&
    bitsOf lo.toNat 15 0 == slot

/-- The sequencer pops one result (R312). -/
def stageResult (s : State) (u : QueueUpset) : State :=
  if !weftRuns s || !pktReady s (masterRouter 33) 0xFF010 then s
  else
    let (p, s) := popPacket s (masterRouter 33) 0xFF010 u
    if p.words.isEmpty then s
    else if p.words.length < 2 || 14 < p.words.length || p.bad then incSat s WS_RESDISC WS_RESDISC_MALFORMED 1
    else
      let tid := p.words.getD 0 0
      let lo := p.words.getD 1 0
      let slot := bitsOf lo.toNat 15 0
      match getW s slot with
      | none => incSat s WS_RESDISC WS_RESDISC_STALE 1
      | some x =>
        if !resultMatches x slot tid lo then incSat s WS_RESDISC WS_RESDISC_STALE 1
        else if x.phase = .dispatched then acceptResult s slot x (bitsOf lo.toNat 23 22) (p.words.drop 2)
        else dispatchBack (incSat s WS_RESDISC WS_RESDISC_STALE 1) slot x

/-- The stage timer of a slot fires (R314). -/
def stageTimeout (s : State) (slot : Nat) : State :=
  match getW s slot with
  | none => s
  | some x =>
    if !weftRuns s || !x.outstanding then s
    else if x.phase = .dispatched then
      let s := handled (setW s slot (some { x with outstanding := false })) x.tid
      if x.committed then freeSlot (incSat s WS_POSTEND WS_POSTEND_COUNT 1) slot x else abortSlot s slot 2
    else dispatchBack s slot x

/-- Step 3 of an abort: the intake packet is popped and discarded, in its turn (R316). -/
def intakeDiscard (s : State) (slot : Nat) (u : QueueUpset) : State :=
  match getW s slot with
  | none => s
  | some x =>
    if !domOn s 3 || !qeReady s || !qeRoute s (masterRouter 33) || x.phase != .aborting || ctxConsumed s slot || !intakeTurn s slot x then s
    else
      let (_, s) := popPacket s (masterRouter 33) (ctxQid s slot) u
      abortGo (setCtx s slot 2 (ctxWord s slot 2 ||| BitVec.ofNat 32 (2 ^ 20))) slot

/-! ### Reports (R318, R319) -/

/-- Steps 1 and 2 of a rewind that abort `root`, if one, has caused; a rewind that is under way, up to the dispatch of the
checkpoint stage, takes in the new report, and starts step 3 no second time. -/
def rewindSlot (s : State) (slot : Nat) (x : WSlot) (root : Option Word) : State :=
  let merged := x.phase == .rewinding || x.restored
  let s := if merged then s else incSat s WS_REWIND WS_REWIND_COUNT 1
  let x := { x with result := 0, epoch := x.epoch + 1, rewound := true, phase := if x.restored then x.phase else .rewinding }
  rewindGo (sendMsg (putW s slot x) (.rewind slot x.tid x.epoch root)) slot

/-- The sequencer takes the oldest report of the tally engine. -/
def readerReport (s : State) : State :=
  match s.tly.reports with
  | [] => s
  | r :: rest =>
    if !domOn s 3 || safeHalt s then s
    else
      let s := { s with tly := { s.tly with reports := rest } }
      match getW s r.slot with
      | none => s
      | some x =>
        if x.tid != r.tid || x.committed || x.phase = .aborting then s
        else if !ctxCkValid s r.slot || ctxCkStage s r.slot != r.stage then abortSlot s r.slot 7
        else rewindSlot s r.slot x r.root

/-! ### Register views (R325, R326) -/

/-- WS_SLOTST of a slot. -/
def slotState (s : State) (slot : Nat) : Nat :=
  match getW s slot with
  | none => 0
  | some x =>
    match x.phase with
    | .waiting => 2
    | .dispatched => if x.committed then 4 else 1
    | .rewinding => 3
    | .aborting => 5

/-- A read of WS_SLOTST: it latches the token of the selected slot. -/
def slotStRead (s : State) : Word × State :=
  let slot := getF s WS_SLOTSEL WS_SLOTSEL_SLOT
  let st := slotState s slot
  let ck := if st = 0 then 0 else (ctxCkStage s slot).toNat
  let tok := match getW s slot with
    | some x => BitVec.ofNat 64 ((tokenLow x slot).toNat + x.tid.toNat * 2 ^ 32)
    | none => 0
  let s := if st = 0 then s else readCtx s slot
  (BitVec.ofNat 32 (ck * 256 + st), setWeft s { s.weft with tokLatch := tok })

/-- A read of WS_SEQLO: it latches WS_SEQHI. -/
def seqLoRead (s : State) : Word × State :=
  (BitVec.ofNat 32 s.led.next, setWeft s { s.weft with seqLatch := BitVec.ofNat 32 (s.led.next / 2 ^ 32) })

end Sys2Proof.Machine
end

