-- ==== Sys2Proof/Machine/Recovery.lean ====
section
/-!
DEFINITION. Divergence and recovery of triads, voter and engine copies, the recovery supervisors, safe halt, scrubbing
(spec chapter 08), the execution digest's fold (R597), and bursts that a master's reset cuts (R252).
-/

namespace Sys2Proof.Machine

/-! ### Torn bursts (R252) -/

/-- What a burst of master m that its reset cuts leaves behind, with source 19 (R408). -/
def tornBurst (s : State) (m : Nat) : Torn → State
  | .none | .other => s
  | .bank a ws beats =>
    if regionOf a.toNat = .common && burstOk a.toNat ws.length then bankTorn s m a.toNat beats.toNat ws else s
  | .qe => srcEvent (incSat s QE_TORN QE_TORN_COUNT 1) 19
  | .tally => srcEvent (incSat s TLY_TORN TLY_TORN_COUNT 1) 19
  | .ledger => srcEvent (incSat s LED_TORN LED_TORN_COUNT 1) 19

/-! ### Positions -/

def posOf (x : Triad) (p : Nat) : Position :=
  match p with
  | 0 => x.pos0
  | 1 => x.pos1
  | _ => x.pos2

def setPos (x : Triad) (p : Nat) (v : Position) : Triad :=
  match p with
  | 0 => { x with pos0 := v }
  | 1 => { x with pos1 := v }
  | _ => { x with pos2 := v }

/-- Positions that are neither masked nor being rebuilt (R206). -/
def livePositions (s : State) (t : Nat) : List Nat := (List.range 3).filter (fun p => !(posOf (getT s t) p).masked)

/-- The field of SUP_TRIADt that names the core at position p. -/
def posFld : Nat → Fld
  | 0 => SUP_TRIAD_P0
  | 1 => SUP_TRIAD_P1
  | _ => SUP_TRIAD_P2

/-- A bit of a field of CLV_STATUS follows. -/
def clvBit (s : State) (n : Nat) (f : Fld) (i : Nat) (b : Bool) : State :=
  setF s (CLV_STATUS n) f (bitsPut (getF s (CLV_STATUS n) f) i i (b2n b))

/-- MODE of a triad and its DUPLEX bit. -/
def setMode (s : State) (t m : Nat) : State :=
  clvBit (setF s (SUP_TRIAD t) SUP_TRIAD_MODE m) (clusterOf t) CLV_STATUS_DUPLEX (t % 4) (m == 2)

def setPaused (s : State) (t : Nat) (b : Bool) : State :=
  clvBit (setFlag s (SUP_TRIAD t) SUP_TRIAD_PAUSED b) (clusterOf t) CLV_STATUS_PAUSED (t % 4) b

/-- The voter drops what it held of position p (R203). -/
def dropStream (v : Voter) (p : Nat) : Voter :=
  { v with waiting := tset (fun _ => []) v.waiting p [], owed := v.owed.filter (fun o => o.pos != p),
           late := if v.late = some p then none else v.late }

/-- Mask position p of triad t, or readmit it. -/
def setMasked (s : State) (t p : Nat) (b : Bool) : State :=
  let x := getT s t
  let x := setPos x p { posOf x p with masked := b, behind := 0 }
  clvBit (setT s t { x with voter := dropStream x.voter p }) (clusterOf t) CLV_STATUS_MASKED (posCore s t p) b

/-! ### Stop (R219) and duplex (R213) -/

/-- A triad stops: its entry, its cores, and its transaction; what the voter held of it is discarded. -/
def stopNow (s : State) (t : Nat) : State :=
  let s := stopCores (logFault s .triadStop noElem t 0) t
  abortOfTriad (setT s t { getT s t with voter := {} }) t

/-- The diverging core `core` of triad t cannot be replaced: duplex, or stop (R213). -/
def duplexNow (s : State) (t core : Nat) : State :=
  if flag s (SUP_TRIAD t) SUP_TRIAD_DUPLEXOK then
    setMode (setPaused (logFault (setT s t { getT s t with rebuild := none }) .duplex core t 0) t false) t 2
  else stopNow s t

/-! ### Rebuilds take turns (R213 to R215) -/

/-- A swap is possible (R213). -/
def swapPossible (s : State) (n : Nat) : Bool :=
  flag s (SUP_CLUSTER n) SUP_CLUSTER_RSVEN && flag s (SUP_CLUSTER n) SUP_CLUSTER_RSVAVAIL

/-- The reserve takes position p; the core there is fenced (R15, R212, step 2 of the rebuild). -/
def mapReserve (s : State) (t p : Nat) : State :=
  let n := clusterOf t
  let old := posCore s t p
  let s := clvBit (clvBit s n CLV_STATUS_MASKED old false) n CLV_STATUS_MASKED 12 true
  let s := setF s (SUP_CLUSTER n) SUP_CLUSTER_LOST (getF s (SUP_CLUSTER n) SUP_CLUSTER_LOST ||| 2 ^ old)
  let s := setF s (SUP_CLUSTER n) SUP_CLUSTER_RSVJ (t % 4)
  let s := setFlag (setFlag s (SUP_CLUSTER n) SUP_CLUSTER_RSVUSED true) (SUP_CLUSTER n) SUP_CLUSTER_RSVAVAIL false
  setF s (SUP_TRIAD t) (posFld p) 12

/-- The better source of a rebuild: the higher retirement count, then the lower position number (R214). -/
def betterSource (x : Triad) (best : Option Nat) (p : Nat) : Option Nat :=
  match best with
  | none => some p
  | some b => if (posOf x p).behind < (posOf x b).behind then some p else some b

/-- The source of a rebuild of triad t (R214). -/
def sourceOf (s : State) (t : Nat) : Nat := ((livePositions s t).foldl (betterSource (getT s t)) none).getD 0

/-- The source stops: a long micro-routine suspends between steps, and resumes under R166 (step 3); an interrupt entry under
way comes first (R217). -/
def pauseMoves (x : Triad) : Triad :=
  if x.point.isSome || x.run.isNone then x else { suspend x with rtiCheck := true }

/-- The turn of live triad t's rebuild has come: a swap maps the reserve, the source is chosen, the triad pauses (R214, R215). -/
def startRebuild (s : State) (t : Nat) : State :=
  match (getT s t).rebuild with
  | none => s
  | some r =>
    if !triadLive s t then s
    else if r.swap && !swapPossible s (clusterOf t) then duplexNow s t r.core
    else
      let s := if r.swap then mapReserve s t r.pos else s
      let x := { pauseMoves (getT s t) with rebuild := some { r with source := sourceOf s t } }
      setPaused (setT s t x) t true

/-- Whether a rebuild is under way in cluster n. -/
def clusterPaused (s : State) (n : Nat) : Bool := (List.range 4).any (fun j => flag s (SUP_TRIAD (4 * n + j)) SUP_TRIAD_PAUSED)

/-- The next rebuild of a cluster that waits for its turn begins (R215). -/
def nextRebuild (s : State) (n : Nat) : State :=
  (List.range 4).foldl (fun s j => if clusterPaused s n then s else startRebuild s (4 * n + j)) s

/-- A triad stops (R218, R219), and the next rebuild of its cluster has its turn. -/
def stopTriad (s : State) (t : Nat) : State :=
  if triadLive s t then nextRebuild (stopNow s t) (clusterOf t) else s

/-- The four triads of cluster n stop. -/
def stopCluster (s : State) (n : Nat) : State :=
  stopTriad (stopTriad (stopTriad (stopTriad s (4 * n)) (4 * n + 1)) (4 * n + 2)) (4 * n + 3)

/-- No swap is possible: duplex, or stop (R213). -/
def duplexOrStop (s : State) (t core : Nat) : State := nextRebuild (duplexNow s t core) (clusterOf t)

/-- The rebuild of position p is chosen: a swap, or a resync (R212); it waits for its turn in the cluster (R215). -/
def chooseRebuild (s : State) (t p : Nat) (swap : Bool) : State :=
  if swap && !swapPossible s (clusterOf t) then duplexOrStop s t (coreAt s t p)
  else
    nextRebuild (setT s t { getT s t with rebuild := some { pos := p, swap := swap, core := coreAt s t p } }) (clusterOf t)

/-! ### Safe halt (R225) -/

/-- FATAL reaches the host bridge, but for a failed route, and the audit controller, which reports it on AUD_DO (R250, R255,
R517, R594). -/
def fatalCommand (s : State) : State :=
  let s := if flag s MOD_STATUS MOD_STATUS_FATAL then s else emit s (.audDo false)
  let s := setFlag s MOD_STATUS MOD_STATUS_FATAL true
  if routeFailed s (masterRouter 39) (masterRouter 36) then s else msixCause s 0

/-- One message of the sequencer's private link, performed by the tally engine. -/
def tallyMessage (s : State) : TMsg → State
  | .begin slot x => tallyBegin s slot x
  | .head x => tallyHead s x
  | .commit slot x => tallyCommit s slot x
  | .abort slot x => tallyAbort s slot x
  | .rewind slot x e root => tallyRewind s slot x e root
  | .fin slot x => tallyEnd s slot x

/-- The oldest message on the private link, when it is of the given kind, is performed (R331). -/
def tallyTake (s : State) (kind : TMsg → Bool) : State :=
  match s.weft.msgs with
  | [] => s
  | m :: _ => if kind m && domOn s 3 then tallyDone (tallyMessage (takeMsg s) m) else s

def isBegin : TMsg → Bool
  | .begin _ _ => true
  | _ => false

def isHead : TMsg → Bool
  | .head _ => true
  | _ => false

def isCommit : TMsg → Bool
  | .commit _ _ => true
  | _ => false

def isAbort : TMsg → Bool
  | .abort _ _ => true
  | _ => false

def isRewind : TMsg → Bool
  | .rewind _ _ _ _ => true
  | _ => false

def isEnd : TMsg → Bool
  | .fin _ _ => true
  | _ => false

/-- The tally engine performs every message that has been sent. -/
def tallyDrain (s : State) : State :=
  let l := s.weft.msgs
  tallyDone (l.foldl tallyMessage { s with weft := { s.weft with msgs := [] } })

/-- Every live triad stops; no entry names these stops. -/
def stopAll (s : State) : State :=
  (List.range 32).foldl (fun s t => if triadLive s t then stopCores s t else s) s

/-- The safe halt with its cause. -/
def enterSafeHalt (s : State) (cause : Nat) : State :=
  if safeHalt s then s
  else
    let s := logFault s .safeHalt noElem noElem 0
    let s := setF s SUP_STATUS SUP_STATUS_HALTCAUSE cause
    let s := setStop (setFlag s MOD_STATUS MOD_STATUS_SAFEHALT true) 1 true
    let s := fatalCommand s
    let s := tallyDrain (abortAll (setFlag s WS_STATUS WS_STATUS_STOPPED true) 5)
    let s := finishNumbers s
    let s := setLed s { s.led with queued := [] }
    setFlag (stopAll s) SUP_STATUS SUP_STATUS_SAFEHALT true

/-! ### Supervisors (R223, R224) -/

def supFld : Nat → Fld
  | 0 => SUP_STATUS_SUP0
  | 1 => SUP_STATUS_SUP1
  | _ => SUP_STATUS_SUP2

def supState (s : State) (i : Nat) : Nat := getF s SUP_STATUS (supFld i)

/-- Fence supervisor i; two fenced at once begin a safe halt. -/
def fenceSup (s : State) (i : Nat) : State :=
  if supState s i != 0 then s
  else
    let s := logFault (setF s SUP_STATUS (supFld i) 1) .supFence (0x70 + i) noElem 0
    if 2 ≤ ((List.range 3).filter (fun k => supState s k != 0)).length then enterSafeHalt s 3 else s

/-- Whether an action on position p of triad t can be carried out: a triad, or a duplex that p has left and in which no
rebuild is under way. -/
def actsOn (s : State) (t p : Nat) : Bool :=
  p < 3 && (triadMode s t == 1 ||
    (triadMode s t == 2 && (posOf (getT s t) p).masked && !flag s (SUP_TRIAD t) SUP_TRIAD_PAUSED))

/-- A recovery action that the supervisors' vote has passed. -/
def supCarryOut (s : State) : SupAct → State
  | .resync t p => if actsOn s t.toNat p.toNat then
      chooseRebuild (setMode (setMasked s t.toNat p.toNat true) t.toNat 2) t.toNat p.toNat false else s
  | .swap t p => if actsOn s t.toNat p.toNat then
      chooseRebuild (setMode (setMasked s t.toNat p.toNat true) t.toNat 2) t.toNat p.toNat true else s
  | .duplex t p => if actsOn s t.toNat p.toNat then
      duplexOrStop (setMasked s t.toNat p.toNat true) t.toNat (coreAt s t.toNat p.toNat) else s
  | .stop t => stopTriad s t.toNat

/-- The three supervisors present actions; a fenced one is ignored (R223, R225). -/
def supVote (s : State) (pres : Nat → Option SupAct) : State :=
  if safeHalt s then s
  else
    let l := (List.range 3).filterMap (fun i => if supState s i = 0 then (pres i).map (fun a => (i, a)) else none)
    match l.find? (fun p => 2 ≤ (l.filter (fun q => q.2 == p.2)).length) with
    | some (_, a) =>
      let s := supCarryOut s a
      l.foldl (fun s q => if q.2 == a then s else fenceSup s q.1) s
    | none =>
      match l.length with
      | 0 | 1 => s
      | 2 => enterSafeHalt s 1
      | _ => enterSafeHalt s 2

/-- The 2 µs have passed: supervisor i presented none, or no two agreed (R223, R225). -/
def supTimeout (s : State) (late : Option (BitVec 2)) : State :=
  if safeHalt s then s
  else
    match late with
    | some i => if i.toNat < 3 then fenceSup s i.toNat else s
    | none => enterSafeHalt s 2

/-- The rebuild of a fenced supervisor ends (R224). -/
def supRebuilt (s : State) (i : Nat) (ok : Bool) (torn : Torn) : State :=
  if 3 ≤ i || supState s i = 0 || supState s i = 3 then s
  else
    let s := tornBurst s 39 torn
    if ok then logFault (setF s SUP_STATUS (supFld i) 0) .supRebuilt (0x70 + i) noElem 0
    else setF s SUP_STATUS (supFld i) 3

/-! ### Divergence (R212, R213, R218) -/

/-- The diverging core ended a resync less than SUP_REPEAT ms ago (R212). -/
def repeats (s : State) (t p : Nat) : Bool :=
  match (posOf (getT s t) p).resyncEnd with
  | none => false
  | some e => (s.slck - e) * 1000 < getF s SUP_REPEAT SUP_REPEAT_MS * 32768

/-- The action that every supervisor derives for a divergence of position p (R212). -/
def recoveryAction (s : State) (t p : Nat) : SupAct :=
  let t' := BitVec.ofNat 5 t
  let p' := BitVec.ofNat 2 p
  if repeats s t p then .swap t' p' else .resync t' p'

/-- Position p of triad t diverges, found as DETAIL says: the voter masks it, and the supervisors vote the action that each
of them derives (R212, R218, R223, R233). -/
def diverge (s : State) (t p detail : Nat) : State :=
  if !triadLive s t || (posOf (getT s t) p).masked || 3 ≤ p then s
  else
    let s := logFault s .diverge (coreAt s t p) t detail
    let s := incSat s (CLV_DIV (clusterOf t) (t % 4)) CLV_DIV_DIVERGE 1
    if triadMode s t = 2 || (livePositions s t).length < 3 then stopTriad s t
    else
      let a := recoveryAction s t p
      supVote (setMode (setMasked s t p true) t 2) (fun _ => some a)

/-- Two positions in duplex disagree, or three positions all differ: no position can be named, and the triad stops
(R218). -/
def disagree (s : State) (t detail : Nat) : State :=
  if !triadLive s t then s
  else
    let s := logFault s .diverge noElem t detail
    stopTriad (incSat s (CLV_DIV (clusterOf t) (t % 4)) CLV_DIV_DIVERGE 1) t

/-! ### The end of a rebuild (R212, R214, R215) -/

/-- Position p owes what the source owes: it goes on at the source's place in the stream. -/
def oweAs (v : Voter) (p source : Nat) : Voter :=
  { v with owed := v.owed ++ (v.owed.filter (fun o => o.pos == source)).map (fun o => { o with pos := p }) }

/-- The issued reads of discarded moves that `back` selects are presented again by every position of `ps` (R204). -/
def oweAgain (v : Voter) (ps : List Nat) (back : Taken → Bool) : Voter :=
  let again := v.taken.filter back
  { v with owed := v.owed ++ ps.flatMap (fun p => again.map (fun k => { pos := p, item := .rd k.req, res := some k.res }))
           taken := v.taken.filter (fun k => !back k) }

/-- Step 7: the target is readmitted at the source's place and count. -/
def readmit (s : State) (t : Nat) (r : Rebuild) : State :=
  let s := setMasked s t r.pos false
  let x := getT s t
  let e : Option Nat := if r.swap then none else some s.slck
  let v := oweAgain (oweAs x.voter r.pos r.source) (livePositions s t) (fun k => k.pc.isNone)
  let s := setT s t { setPos x r.pos { behind := (posOf x r.source).behind, resyncEnd := e } with rebuild := none, voter := v }
  let s := incSat s (CLV_DIV (clusterOf t) (t % 4)) CLV_DIV_RESYNC 1
  let s := logFault (setMode (setPaused s t false) t 1) (if r.swap then .swap else .resync) r.core t 0
  nextRebuild (privEvent s t 20) (clusterOf t)

/-- A copy that fails: a resync leads to a swap, a swap to R213 (R212, R217). -/
def rebuildFailed (s : State) (t : Nat) (r : Rebuild) : State :=
  let s := setPaused s t false
  if r.swap then duplexOrStop s t r.core else chooseRebuild s t r.pos true

/-- The other healthy position of a rebuild. -/
def otherSource (s : State) (t source : Nat) : Nat := ((livePositions s t).find? (fun p => p != source)).getD source

/-- The copy of the rebuild that is under way in triad t ends (R212, R215); an interrupt entry under way comes first (R217).
A double-bit error at the source restarts the copy once from the other healthy position. -/
def rebuildDone (s : State) (t : Nat) (e : RebuildEnd) : State :=
  if !flag s (SUP_TRIAD t) SUP_TRIAD_PAUSED || (getT s t).point.isSome then s
  else
    match (getT s t).rebuild with
    | none => s
    | some r =>
      match e with
      | .ok => readmit s t r
      | .mismatch => rebuildFailed s t r
      | .sourceError =>
        let s := logFault s .recoverFail r.core t 0
        if r.again then rebuildFailed s t r
        else setT s t { getT s t with rebuild := some { r with source := otherSource s t r.source, again := true } }

/-! ### Retirement check and digest (R209, R597) -/

def getDigest (s : State) (t : Nat) : Digest := tget (fun _ => {}) s.aud.digests t

def setDigest (s : State) (t : Nat) (d : Digest) : State :=
  { s with aud := { s.aud with digests := tset (fun _ => {}) s.aud.digests t d } }

/-- The fold of R597. -/
def foldDigest (s : State) (t : Nat) (n c : BitVec 64) : State :=
  let d := getDigest s t
  let x := sha256 (beBytes 32 d.xd.toNat ++ leBytes 8 n.toNat ++ leBytes 8 c.toNat)
  setDigest s t { d with n := n, xd := BitVec.ofNat 256 (beNat x) }

/-- The digest at a start of the triad (R597). -/
def startDigest (s : State) (t : Nat) : State :=
  let d := getDigest s t
  setDigest s t { epoch := d.epoch + 1 }

/-- The voted check of triad t at its count: the registers, and the digest at each multiple of 65,536, once for a count. -/
def votedCheck (s : State) (t : Nat) (c : BitVec 64) : State :=
  let n := (getT s t).rcount
  let cl := clusterOf t
  let j := t % 4
  let s := setReg (setReg s (CLV_RCNTLO cl j) (n.setWidth 32)) (CLV_RCNTHI cl j) ((n >>> 32).setWidth 32)
  let s := setReg (setReg s (CLV_CHKLO cl j) (c.setWidth 32)) (CLV_CHKHI cl j) ((c >>> 32).setWidth 32)
  if n.toNat % 65536 = 0 && (getDigest s t).n != n then foldDigest s t n c else s

/-- The voter compares the checks of the live positions; `err p` is how position p's check differs from the triad's
(R209, R218). -/
def compareChecks (s : State) (t : Nat) (err : Nat → BitVec 64) : State :=
  let x := getT s t
  let n := x.rcount.toNat
  if !triadLive s t || n = 0 || n % 64 != 0 then s
  else
    let v (p : Nat) : BitVec 64 := x.rcheck ^^^ err p
    match livePositions s t with
    | [a, b, c] =>
      if v a = v b then
        let s := votedCheck s t (v a)
        if v c = v a then s else diverge s t c 3
      else if v a = v c then diverge (votedCheck s t (v a)) t b 3
      else if v b = v c then diverge (votedCheck s t (v b)) t a 3
      else disagree s t 5
    | [a, b] => if v a = v b then votedCheck s t (v a) else disagree s t 3
    | _ => s

/-- Whether position p trails: it has fewer retirements than another, or a copy of it that another has presented is missing
(R200). -/
def trails (s : State) (t p : Nat) : Bool :=
  let x := getT s t
  let n (q : Nat) : Nat := (tget (fun _ => []) x.voter.waiting q).length
  0 < (posOf x p).behind || x.voter.owed.any (fun o => o.pos == p) || (livePositions s t).any (fun q => n p < n q)

/-- The lag timeout of position p (R200), while another position leads it; in duplex the leader's moves are not yet the
triad's. It does not run while the triad is halted or waits (R419, R603). -/
def lagTimeout (s : State) (t p : Nat) : State :=
  if (getT s t).halted || (getT s t).waiting || !domOn s (4 + clusterOf t) then s
  else if triadMode s t = 2 || trails s t p then diverge s t p 4
  else s

/-! ### Copies and duplicated logic (R220, R221, R231) -/

/-- Copy v of cluster n's voter is masked and reloaded (R220). -/
def voterCopy (s : State) (n v : Nat) : State :=
  if v < 3 then logFault s .voterCopy (0x80 + 3 * n + v) noElem 0 else s

/-- A copy of the control logic of an engine, 0 QE, 1 weft, 2 tally, 3 ledger, is masked and reloaded (R221, R252); the two
halves of a crypto engine, 8 + n for cluster n, are compared, and a mismatch is a detected fault (R222, R231). The
numbers 4 to 7 name no engine. -/
def engineCopy (s : State) (e : Nat) (torn : Torn) : State :=
  if e < 4 then tornBurst (logFault s .engMask (0xA0 + e) noElem 0) (32 + e) torn
  else if e < 8 then s
  else logFault s .detect (0xA0 + e) noElem 0

/-- The halves of cluster n's ingress comparator disagree (R220). -/
def comparatorSplit (s : State) (n : Nat) : State := stopCluster (logFault s .detect noElem noElem 0) n

/-! ### Scrubbing (R229, R230, R247, R488) -/

/-- The store that a spot belongs to: 0 common store, 1 local stores, 2 descriptor and link memories, 3 MRAM. -/
def scrubStore : ScrubSpot → Nat
  | .common _ _ => 0
  | .local _ _ => 1
  | .desc _ | .link _ => 2
  | .mram _ => 3

/-- The domain whose store it is. -/
def scrubDomain : ScrubSpot → Nat
  | .common _ _ => 1
  | .local c _ => 4 + c.toNat / 13
  | .desc _ | .link _ => 2
  | .mram _ => 3

/-- The triad and position that a core serves. -/
def coreServes (s : State) (c : Nat) : Option (Nat × Nat) :=
  let n := c / 13
  ((List.range 12).map (fun i => (4 * n + i / 3, i % 3))).find? (fun q =>
    flag s (SUP_TRIAD q.1) SUP_TRIAD_EN && posCore s q.1 q.2 == c % 13)

/-- A double-bit error in a core's local store: a divergence of the position it serves; an idle reserve becomes
unavailable (R229, R230). -/
def scrubCore (s : State) (c : Nat) : State :=
  match coreServes s c with
  | some (t, p) => diverge s t p 0
  | none =>
    if c % 13 = 12 && flag s (SUP_CLUSTER (c / 13)) SUP_CLUSTER_RSVAVAIL then
      logFault (setFlag s (SUP_CLUSTER (c / 13)) SUP_CLUSTER_RSVAVAIL false) .rsvLost c noElem 0
    else s

/-- The field of SUP_SCRUBDBL of a store. -/
def scrubFld : Nat → Fld
  | 0 => SUP_SCRUBDBL_COMMON
  | 1 => SUP_SCRUBDBL_LOCAL
  | 2 => SUP_SCRUBDBL_DESC
  | _ => SUP_SCRUBDBL_MRAM

/-- What the scrubber does in store i with a word in which it finds u: a single-bit error is corrected, counted and logged, a
double-bit error is counted, logged and left to `bad` (R229, R232, R247). DESIGN CHOICE: the spec names the ELEM of no SCRUBDBL
entry; it is 0xFF for every store, a core's local store among them (log entry 94). -/
def scrubWord (s : State) (i : Nat) (u : Upset) (bad : State → State) : State :=
  match u with
  | .none => s
  | .single => maskedFault (incSat s (SUP_SCRUBST i) SUP_SCRUBST_CORR 1) noElem
  | .double => bad (logFault (incSat s SUP_SCRUBDBL (scrubFld i) 1) .scrubDbl noElem noElem 0)

/-- The words of a row from address a on. -/
def scrubWords : Nat → Nat → List Upset → State → State
  | 0, _, _, s => s
  | n + 1, a, us, s => scrubWords n (a + 4) us.tail (scrubWord s 0 (us.headD .none) (fun s => setPoison s a true))

/-- Bank b scrubs its next row as one operation (R247). -/
def scrubRow (s : State) (b : Nat) (us : List Upset) : State :=
  let n := rowsDone s b
  let ends := passEnds s b n
  let s := scrubWords 8 (scrubRowAt b (n % bankRows)) us s
  let s := { s with lat := { s.lat with rows := tset (fun _ => 0) s.lat.rows b (n + 1) } }
  if ends then incWrap s (SUP_SCRUBST 0) SUP_SCRUBST_PASSES 1 else s

/-- What a double-bit error leaves in the word. -/
def scrubPoison (s : State) : ScrubSpot → State
  | .common _ _ => s
  | .mram a => if 0x30000000 ≤ a.toNat && a.toNat < 0x34000000 then setPoison s a.toNat true else s
  | .local c _ => scrubCore s c.toNat
  | .desc q => { s with qe := { s.qe with badDescs := tset (fun _ => false) s.qe.badDescs q.toNat true } }
  | .link c => { s with qe := { s.qe with badLinks := tset (fun _ => false) s.qe.badLinks c.toNat true } }

/-- One operation of the scrubber: a row of a bank, or a word of another store, `last` when it completes the pass over that
store. -/
def scrubOne (s : State) (w : ScrubSpot) (u : Upset) (last : Bool) : State :=
  if !flag s SUP_SCRUBCTL SUP_SCRUBCTL_EN || !domOn s (scrubDomain w) then s
  else
    match w with
    | .common b us => scrubRow s b.toNat us
    | _ =>
      let i := scrubStore w
      let s := scrubWord s i u (fun s => scrubPoison s w)
      if last then incWrap s (SUP_SCRUBST i) SUP_SCRUBST_PASSES 1 else s

end Sys2Proof.Machine
end

