-- ==== Sys2Proof/Machine/Events.lean ====
section
/-!
DEFINITION. Event fabric, real-time clock and health converter (spec chapter 17).
-/

namespace Sys2Proof.Machine

/-- The event fabric sits at router L03. -/
def fabricRouter : Nat := 12

def setEvf (s : State) (e : Evf) : State := { s with evf := e }

/-! ### EV pins (R437, R466) -/

/-- MODE of EVOk: 0 input, 1 pulse, 2 toggle, 3 drive low. -/
def evoMode (s : State) (k : Nat) : Nat := getF s (EVF_EVOCTL k) EVF_EVOCTL_MODE

def setBit8 (b : BitVec 8) (k : Nat) (v : Bool) : BitVec 8 :=
  if v then b ||| BitVec.ofNat 8 (2 ^ k) else b &&& ~~~ BitVec.ofNat 8 (2 ^ k)

/-- The level that the inputs see on pin k: what it drives, or what is applied to it; 0 while AUXIO is not ON. -/
def pinLevel (s : State) (k : Nat) : Bool :=
  if !domOn s 17 then false
  else if evoMode s k = 0 then s.evf.pinIn.getLsbD k
  else s.evf.pinOut.getLsbD k

/-- A qualified edge of pin k to level b, which lasts n PCLK periods (R437): a rising edge is event 144 + k and a kernel edge of
the channels that count it; the capture inputs whose filter accepts it take the level. A clock that stands still sees none. -/
def pinEdge (s : State) (k : Nat) (b : Bool) (n : Nat) (restart : BitVec 72) : State :=
  if !clocked s 17 then s
  else
    let s := if b then pinKernel (produce s (144 + k)) k restart else s
    pinCapture s k b (acceptIn s n)

/-- PCLK periods of a level that stays: more than 16 samples of any kernel clock. -/
def steady : Nat := 0x80000

/-- EVOk drives its pin to level b for n PCLK periods; a level shorter than two makes no edge (R437). -/
def drivePin (s : State) (k n : Nat) (b : Bool) : State :=
  if s.evf.pinOut.getLsbD k = b then s
  else
    let s := setEvf s { s.evf with pinOut := setBit8 s.evf.pinOut k b }
    if n < 2 then s else pinEdge s k b n 0

/-- A consumer input is marked busy, or no longer so. -/
def setBusy (s : State) (i : Nat) (b : Bool) : State :=
  setEvf s { s.evf with busy := tset (fun _ => false) s.evf.busy i b }

def markedBusy (s : State) (i : Nat) : Bool := tget (fun _ => false) s.evf.busy i

/-- A pulse of some EVO is high (R461). -/
def pulsing (s : State) : Bool := (List.range 8).any (fun k => markedBusy s (68 + k))

/-- The high time of a pulse of EVOk in PCLK periods. -/
def pulseWidth (s : State) (k : Nat) : Nat := getF s (EVF_EVOCTL k) EVF_EVOCTL_WIDTH + 1

/-- One event at EVOk (R461, R466). -/
def evoEvent (s : State) (k : Nat) : State :=
  match evoMode s k with
  | 1 => setBusy (drivePin s k (pulseWidth s k) true) (68 + k) true
  | 2 => drivePin s k steady (!s.evf.pinOut.getLsbD k)
  | _ => s

/-- The pulse of EVOk ends: its pin falls. -/
def pulseEnd (s : State) (k : Nat) : State :=
  if markedBusy s (68 + k) then setBusy (drivePin s k (if pulseWidth s k < 2 then 0 else steady) false) (68 + k) false
  else s

/-- Time passes, and every pulse that is high has ended, while AUXIO is clocked (log entry 32). -/
def pulsesEnd (s : State) : State := if clocked s 17 then (List.range 8).foldl pulseEnd s else s

/-- Time passes after an answer on the serial line: its driver is released (R552 step 4, log entry 32). -/
def lineRelease (s : State) : State := { s with net := { s.net with driving := false } }

/-- A write of EVF_EVOCTLk: a mode that drives low, or a change between driving and not, may move the pin and ends a pulse. -/
def evoWrite (s : State) (k : Nat) (w : Word) : State :=
  let old := pinLevel s k
  let was := evoMode s k
  let s := plainWrite s (EVF_EVOCTL k) w
  let mode := evoMode s k
  let s := if mode = 1 && was = 1 then s
    else
      let s := if markedBusy s (68 + k) then setBusy s (68 + k) false else s
      if mode = 2 then s else setEvf s { s.evf with pinOut := setBit8 s.evf.pinOut k false }
  let new := pinLevel s k
  if old = new then s else pinEdge s k new steady 0

/-- Level b is applied to pin k for n PCLK periods, after a level that lasted two (R437): one shorter than two makes no edge, and
a capture input takes it where its filter accepts it (R447). A pin that drives, or whose domain is not ON or not clocked, does
not see it; of a level that the pin has already, only the capture inputs that have not accepted it take note. `restart` is that
of pinKernel. -/
def pinApplied (s : State) (k : Nat) (b : Bool) (n : Nat) (restart : BitVec 72) : State :=
  if n < 2 then s
  else
    let old := s.evf.pinIn.getLsbD k
    let s := setEvf s { s.evf with pinIn := setBit8 s.evf.pinIn k b }
    if evoMode s k != 0 || !clocked s 17 then s
    else if old = b then pinCapture s k b (acceptIn s n)
    else pinEdge s k b n restart

/-! ### Health converter (R472 to R474) -/

def setMon (s : State) (m : Mon) : State := { s with mon := m }

def monBusy (s : State) : Bool := flag s MON_STATUS MON_STATUS_BUSY

/-- The sequence has ended: MONDONE; a continuous sequence that waits starts next. -/
def monEnd (s : State) : State :=
  let s := setFlag s MON_STATUS MON_STATUS_BUSY false
  produce (srcEvent s 86) 154

/-- A sequence starts; with no channel named it ends at once. -/
def monBegin (s : State) : State :=
  let left := (List.range 24).filter (fun c => (reg s MON_SEQ).getLsbD c)
  let s := incWrap s MON_STATUS MON_STATUS_SEQCNT 1
  let s := setMon s { left := left, vclsel := getF s MON_CTL MON_CTL_VCLSEL, waiting := false, started := true }
  if left.isEmpty then monEnd s else setFlag s MON_STATUS MON_STATUS_BUSY true

/-- A start by a write of START (R473); while MON is not ON or its clock is stopped there is none. -/
def monStart (s : State) : State :=
  if !clocked s 16 then s
  else if monBusy s then setFlag s MON_STATUS MON_STATUS_LOSTSTART true else monBegin s

/-- A write of MON_CTL. -/
def monCtlWrite (s : State) (w : Word) : State :=
  let s := plainWrite s MON_CTL w
  if w.getLsbD 0 then monStart s else s

/-- The interval timer of continuous sequences expires (R473). -/
def monInterval (s : State) : State :=
  if !clocked s 16 || !flag s MON_CTL MON_CTL_CONT || !s.mon.started then s
  else if monBusy s then setMon s { s.mon with waiting := true }
  else monBegin s

/-- The check of a result against the limits of its channel (R474). -/
def monLimit (s : State) (c code : Nat) : State :=
  let a := MON_LIM c
  if flag s a MON_LIM_EN && (code < getF s a MON_LIM_LO || getF s a MON_LIM_HI < code) &&
      !(reg s MON_LIMF).getLsbD c then
    let s := setReg s MON_LIMF (reg s MON_LIMF ||| BitVec.ofNat 32 (2 ^ c))
    produce (srcEvent s 85) 155
  else s

/-- The conversion of the next channel ends with `code` (R474). -/
def monConvert (s : State) (code : Nat) : State :=
  match s.mon.left with
  | [] => s
  | c :: r =>
    if !clocked s 16 then s
    else
      let seq := getF s MON_STATUS MON_STATUS_SEQCNT
      let s := setReg s (MON_RES c) (BitVec.ofNat 32 (2 ^ 31 + seq * 2 ^ 16 + code % 4096))
      let s := monLimit (setMon s { s.mon with left := r }) c (code % 4096)
      if r.isEmpty then
        let wait := s.mon.waiting
        let s := monEnd s
        if wait then monBegin s else s
      else s

/-! ### Real-time clock (R467 to R471) -/

def setRtc (s : State) (r : Rtc) : State := { s with rtc := r }

/-- RTC_TRIM as a signed number. -/
def trimValue (t : BitVec 12) : Int := t.toInt

/-- A correction falls on period `win` of the window: floor(j * 2^23 / |TRIM|) for some j (R470). -/
def correctionAt (win : Nat) (t : Int) : Bool :=
  let n := t.natAbs
  if n = 0 then false
  else
    let j := (win * n + 2 ^ 23 - 1) / 2 ^ 23
    j < n && j * 2 ^ 23 / n == win

/-- The trim that acts in the period now beginning: a new window takes RTC_TRIM. -/
def trimNow (s : State) : BitVec 12 := if s.rtc.win = 0 then BitVec.ofNat 12 (reg s RTC_TRIM).toNat else s.rtc.trim

/-- How far the sub-second count advances at the next SLCK edge. -/
def rtcAdvance (s : State) : Nat :=
  let t := trimValue (trimNow s)
  if correctionAt s.rtc.win t then (if 0 < t then 2 else 0) else 1

/-- The alarm is compared when the seconds have become what they are (R471). -/
def alarm (s : State) : State :=
  if flag s RTC_CTL RTC_CTL_ALEN &&
      s.rtc.sec.toNat = (reg s RTC_ALMLO).toNat + 2 ^ 32 * getF s RTC_ALMHI RTC_ALMHI_SEC then
    produce (srcEvent (setFlag s RTC_STATUS RTC_STATUS_ALMF true) 84) 153
  else s

/-- A normal advance by n. -/
def rtcStep (s : State) (n : Nat) : State :=
  let v := s.rtc.sub.toNat + n
  if v < 32768 then setRtc s { s.rtc with sub := BitVec.ofNat 15 v }
  else
    let s := setRtc s { s.rtc with sub := BitVec.ofNat 15 (v - 32768), sec := s.rtc.sec + 1 }
    alarm (produce s 152)

/-- The staged value replaces the count; the load clears RTCINV, and the alarm is compared (R468, R469, R471). -/
def rtcLoadNow (s : State) : State :=
  let sec := BitVec.ofNat 48 ((reg s RTC_LDSECLO).toNat + 2 ^ 32 * getF s RTC_LDSECHI RTC_LDSECHI_SEC)
  let s := setRtc s { s.rtc with sec := sec, sub := BitVec.ofNat 15 (getF s RTC_LDSUB RTC_LDSUB_SUB) }
  let s := setFlag s RTC_CTL RTC_CTL_PEND false
  let s := setFlag s TMP_STATUS TMP_STATUS_RTCINV false
  let s := setFlag s MOD_STATUS MOD_STATUS_RTCINV false
  alarm s

/-- The AON has a supply. -/
def islandUp (s : State) : Bool := !s.islandOff

/-- The PCLK copy of the bridge follows the count while SYS is clocked (R467). -/
def rtcCopy (s : State) : State :=
  if clocked s 1 then setRtc s { s.rtc with copySec := s.rtc.sec, copySub := s.rtc.sub } else s

/-- One SLCK edge (R467, R468, R470). -/
def slckEdge (s : State) : State :=
  let s := lineRelease (pulsesEnd s)
  if !islandUp s then s
  else
    let n := rtcAdvance s
    let t := trimNow s
    let s := { s with slck := s.slck + 1 }
    let s := setRtc s { s.rtc with win := (s.rtc.win + 1) % 2 ^ 23, trim := t }
    rtcCopy (if flag s RTC_CTL RTC_CTL_PEND then rtcLoadNow s else rtcStep s n)

/-- The next SLCK edge rolls the second over. -/
def secondDue (s : State) : Bool := !flag s RTC_CTL RTC_CTL_PEND && 32768 ≤ s.rtc.sub.toNat + rtcAdvance s

/-- The next SLCK edge is one of the corrections of the trim. -/
def correctionDue (s : State) : Bool := !flag s RTC_CTL RTC_CTL_PEND && rtcAdvance s != 1

/-- A read of RTC_SUB (R467). -/
def rtcSubRead (s : State) : Word × State :=
  (s.rtc.copySub.setWidth 32, setRtc s { s.rtc with snap := s.rtc.copySec })

/-- A write of RTC_CTL (R468, R469). -/
def rtcCtlWrite (s : State) (w : Word) : State :=
  let pend := flag s RTC_CTL RTC_CTL_PEND
  let s := plainWrite s RTC_CTL w
  if w.getLsbD 0 then setFlag s RTC_CTL (if pend then RTC_CTL_WERR else RTC_CTL_PEND) true else s

/-- A write of a staging register (R469). -/
def rtcStageWrite (s : State) (a : Nat) (w : Word) : State :=
  if flag s RTC_CTL RTC_CTL_PEND then setFlag s RTC_CTL RTC_CTL_WERR true else plainWrite s a w

/-- A write of RTC_TRIM saturates at ±1,065 (R470). -/
def rtcTrimWrite (s : State) (w : Word) : State :=
  let t := (BitVec.ofNat 12 w.toNat).toInt
  let c := if 1065 < t then 1065 else if t < -1065 then -1065 else t
  setReg s RTC_TRIM ((BitVec.ofInt 12 c).setWidth 32)

/-- A write to a register of the RTC at offset o. -/
def rtcWrite (s : State) (o : Nat) (w : Word) : State :=
  if o = 0x14 || o = 0x18 || o = 0x1C then rtcStageWrite s (RTC_SUB + o) w
  else if o = 0x20 then rtcCtlWrite s w
  else if o = 0x24 then rtcTrimWrite s w
  else plainWrite s (RTC_SUB + o) w

/-- A read of a register of the RTC at offset o. -/
def rtcRead (s : State) (o : Nat) : Word × State :=
  match o with
  | 0x00 => rtcSubRead s
  | 0x04 => (s.rtc.snap.setWidth 32, s)
  | 0x08 => ((s.rtc.snap >>> 32).setWidth 32, s)
  | 0x0C => (s.rtc.copySec.setWidth 32, s)
  | 0x10 => ((s.rtc.copySec >>> 32).setWidth 32, s)
  | 0x30 =>
    (BitVec.ofNat 32 (b2n (flag s RTC_STATUS RTC_STATUS_ALMF) * 2 + b2n (flag s TMP_STATUS TMP_STATUS_RTCINV)), s)
  | _ => plainRead s (RTC_SUB + o)

/-! ### Event fabric (R460 to R464) -/

/-- A push through input 78 + x (R463): counted, then one word with EOP. In safe halt the QE performs none (R225), and the input
stays busy with it. -/
def evfPush (s : State) (x : Nat) : State :=
  let a := if x = 0 then EVF_QPUSHA else EVF_QPUSHB
  if !flag s a EVF_QPUSHA_EN then s
  else
    let n := (if x = 0 then s.evf.pushA else s.evf.pushB) + 1
    let s := setEvf s (if x = 0 then { s.evf with pushA := n } else { s.evf with pushB := n })
    let w := n.toNat * 65536 + getF s (EVF_SEL (78 + x)) EVF_SEL_SEL
    if safeHalt s then setBusy s (78 + x) true
    else enginePush s fabricRouter (getF s a EVF_QPUSHA_QID) [(BitVec.ofNat 32 w, true)]

/-- The GO of input 77 reaches the ledger engine through its domain (R483). -/
def evfDrain (s : State) : State :=
  if domState s 3 = 2 then refusedAccess s else drainGo (heldAccess s 3)

/-- The previous push of input 78 + x has not been performed; while EN = 0 an event there is discarded without overrun. -/
def pushBusy (s : State) (x : Nat) : Bool :=
  flag s (if x = 0 then EVF_QPUSHA else EVF_QPUSHB) EVF_QPUSHA_EN && markedBusy s (78 + x)

/-- Consumer input i is busy (R461, R466, R507). -/
def inputBusy (s : State) (i : Nat) : Bool :=
  if 32 ≤ i && i < 68 then xtBusy s ((i - 32) / 4) ((i - 32) % 4)
  else if 68 ≤ i && i < 76 then !clocked s 17 || markedBusy s i
  else if i = 76 then !clocked s 16 || monBusy s
  else if i = 77 then flag s LED_DMACTL LED_DMACTL_BUSY
  else if 78 ≤ i && i < 80 then pushBusy s (i - 78)
  else false

/-- The action of one event at input i (R461). -/
def inputAct (s : State) (i : Nat) : State :=
  if i < 32 then srcEvent s (256 + i)
  else if i < 68 then xtEvent s ((i - 32) / 4) ((i - 32) % 4)
  else if i < 76 then evoEvent s (i - 68)
  else if i = 76 then monBegin s
  else if i = 77 then evfDrain s
  else if i = 78 then evfPush s 0
  else if i = 79 then evfPush s 1
  else s

/-- An event that reaches the busy input i is lost and flagged (R462). -/
def overrun (s : State) (i : Nat) : State :=
  setReg s (EVF_OVR (i / 32)) (reg s (EVF_OVR (i / 32)) ||| BitVec.ofNat 32 (2 ^ (i % 32)))

/-- An event reaches input i. -/
def inputEvent (s : State) (i : Nat) : State := if inputBusy s i then overrun s i else inputAct s i

/-- Input i selects producer n. -/
def inputSelects (s : State) (n i : Nat) : Bool := getF s (EVF_SEL i) EVF_SEL_SEL == n

/-- The event of producer n at the inputs XT0 to XT3 of group g that select it: it reaches the link bus through all of them
together (R451, R453, R461). -/
def xtTogether (n : Nat) (s : State) (g : Nat) : State :=
  let hit := (List.range 4).filter (fun x => inputSelects s n (32 + 4 * g + x))
  let free := hit.filter (fun x => !xtBusy s g x)
  let s := (hit.filter (fun x => xtBusy s g x)).foldl (fun s x => overrun s (32 + 4 * g + x)) s
  busAll (s, free.map (fun x => .bus g (16 + x)))

/-- The event of producer n at the input i, if it selects it. -/
def inputTakes (n : Nat) (s : State) (i : Nat) : State := if inputSelects s n i then inputEvent s i else s

/-- The event of producer n goes to every input that selects it. -/
def routeEvent (s : State) (n : Nat) : State :=
  let s := (List.range 32).foldl (inputTakes n) s
  let s := (List.range 9).foldl (xtTogether n) s
  ((List.range 12).map (68 + ·)).foldl (inputTakes n) s

/-- Deliver the events produced, in order, until none is left; at most n. -/
def runEvents : Nat → State → State
  | 0, s => s
  | n + 1, s =>
    match s.evq with
    | [] => s
    | e :: r => runEvents n (routeEvent { s with evq := r } e)

/-- A write of EVF_SWTRIG (R460): its events, in the order of the bits. -/
def swTrigger (s : State) (w : Word) : State :=
  (List.range 16).foldl (fun s i => if w.getLsbD i then produce s (176 + i) else s) s

/-- A write of EVF_SELi (R464, R53). -/
def selWrite (s : State) (i : Nat) (w : Word) : State :=
  if flag s (EVF_SEL i) EVF_SEL_LOCK && weaveLocked s then s
  else setF s (EVF_SEL i) EVF_SEL_SEL (w.toNat % 256)

/-- A write to the event fabric's block at offset o. -/
def evfWrite (s : State) (o : Nat) (w : Word) : State :=
  if o = 0 then swTrigger s w
  else if 0x40 ≤ o && o < 0x60 then evoWrite s ((o - 0x40) / 4) w
  else if 0x100 ≤ o && o < 0x280 then selWrite s ((o - 0x100) / 4) w
  else plainWrite s (EVF_SWTRIG + o) w

end Sys2Proof.Machine
end

