-- ==== Sys2Proof/Machine/Tamper.lean ====
section
/-!
DEFINITION. The always-on island (spec chapter 23): supplies and charger, tamper triggers, zeroisation, tamper log.
-/

namespace Sys2Proof.Machine

/-- MOD_STATUS mirrors KEYLOST and RTCINV, and INTAKE follows (R26). -/
def mirrorSync (s : State) : State :=
  let s := setFlag s MOD_STATUS MOD_STATUS_KEYLOST (flag s TMP_STATUS TMP_STATUS_KEYLOST)
  let s := setFlag s MOD_STATUS MOD_STATUS_RTCINV (flag s TMP_STATUS TMP_STATUS_RTCINV)
  intakeUpdate s

/-! ### Supplies (R575 to R580) -/

/-- The charger runs only on AUX3V3, with CHGOFF = 0 and BATGONE = 0 (R577); with VBAT out of range it stops at once and sets
BATGONE (R578). DEDUCED (log entry 76): so it is also when it starts. -/
def chargerSync (s : State) : State :=
  let runs := islandUp s && !flag s TMP_STATUS TMP_STATUS_SRC && !flag s TMP_CTL TMP_CTL_CHGOFF &&
    !flag s TMP_STATUS TMP_STATUS_BATGONE
  let s := if runs && !s.vbatIn then setFlag s TMP_STATUS TMP_STATUS_BATGONE true else s
  setFlag s TMP_STATUS TMP_STATUS_CHARGING (runs && s.vbatIn)

/-- The power path switches to AUX3V3 or to the cell (R575). -/
def supplySwitch (s : State) (cell : Bool) : State :=
  if islandUp s then chargerSync (setFlag s TMP_STATUS TMP_STATUS_SRC cell) else s

/-- VBAT leaves its range, which the charger sees while it runs (R578). -/
def batteryGone (s : State) : State := chargerSync { s with vbatIn := false }

/-- A write of TMP_STATUS: AONFAULT clears; BATGONE clears only with VBAT in range (R579). -/
def tmpStatusWrite (s : State) (w : Word) : State :=
  let s := if w.getLsbD 9 then setFlag s TMP_STATUS TMP_STATUS_AONFAULT false else s
  if w.getLsbD 4 && s.vbatIn then chargerSync (setFlag s TMP_STATUS TMP_STATUS_BATGONE false) else s

/-- The island loses both sources (R580). -/
def islandLost (s : State) : State :=
  let s := { s with islandOff := true, keys := [], tlog := [], tlogLatch := 0, tacted := [], rtc := {} }
  let s := resetRegs s TMP_STATUS (TMP_STATUS + 0x100)
  let s := setReg s RTC_TRIM (regRst RTC_TRIM)
  drawSync (mirrorSync s)

/-- The island regains a supply (R580). -/
def islandBack (s : State) (cell : Bool) : State :=
  if islandUp s then s
  else
    let s := { s with islandOff := false, vbatIn := cell || s.vbatIn }
    let s := setFlag (setFlag s TMP_STATUS TMP_STATUS_RTCINV true) TMP_STATUS TMP_STATUS_KEYLOST true
    mirrorSync (chargerSync (setFlag s TMP_STATUS TMP_STATUS_SRC cell))

/-! ### Response (R585 to R588) -/

/-- Write a tamper log entry (R588). -/
def tamperLog (s : State) (cause reading : Nat) : State :=
  let c := (reg s TMP_LOGCNT).toNat
  let w1 := reading % 65536 * 65536 + b2n (flag s TMP_STATUS TMP_STATUS_RTCINV) * 256 + cause
  let sec := s.rtc.sec.toNat
  let e := c + w1 * 2 ^ 32 + sec % 2 ^ 32 * 2 ^ 64 + (sec / 2 ^ 32 * 65536 + s.rtc.sub.toNat) * 2 ^ 96
  let s := { s with tlog := tset (fun _ => 0) s.tlog (c % 16) (BitVec.ofNat 128 e) }
  incSat s TMP_LOGCNT TMP_LOGCNT_COUNT 1

/-- Zeroisation (R585): the key store is cleared, the draw instances with it, and the event is logged. -/
def zeroise (s : State) (cause reading : Nat) : State :=
  let s := (List.range 4).foldl clearKey { s with keys := [] }
  let s := setFlag s TMP_STATUS TMP_STATUS_KEYLOST true
  let s := clearInstances s
  mirrorSync (srcEvent (tamperLog s cause reading) 82)

def tamperActed (s : State) (i : Nat) : Bool := tget (fun _ => false) s.tacted i

def setActed (s : State) (i : Nat) (b : Bool) : State := { s with tacted := tset (fun _ => false) s.tacted i b }

/-- Trigger i acts once for each excursion (R582). -/
def trigger (s : State) (i cause reading : Nat) : State :=
  if tamperActed s i then s else zeroise (setActed s i true) cause reading

/-- The loop trigger, when it is armed and the loop is open (R581, R583). -/
def loopTrigger (s : State) : State :=
  if flag s TMP_CTL TMP_CTL_LOOPEN && flag s TMP_STATUS TMP_STATUS_LOOPOPEN then
    trigger s 0 1 (getF s TMP_SENSE TMP_SENSE_LOOP)
  else s

/-- The loop reads above its threshold for 2 µs; the threshold lies from 400 Ω to 600 Ω (R581). -/
def coverOpen (s : State) (ohms : Nat) : State :=
  if islandUp s && 400 < ohms then
    let s := setF s TMP_SENSE TMP_SENSE_LOOP (min ohms 0xFFF)
    loopTrigger (setFlag s TMP_STATUS TMP_STATUS_LOOPOPEN true)
  else s

/-- The loop has read 500 Ω or less for 1 ms (R582). -/
def coverClosed (s : State) (ohms : Nat) : State :=
  if islandUp s && ohms ≤ 500 then
    let s := setF s TMP_SENSE TMP_SENSE_LOOP ohms
    setActed (setFlag s TMP_STATUS TMP_STATUS_LOOPOPEN false) 0 false
  else s

/-- A temperature code n / 16 - 64 °C in the window of the trigger, -30 °C to 95 °C (R581). -/
def tempInside (code : Nat) : Bool := 544 ≤ code && code ≤ 2544

/-- Two samples in succession outside the window (R581). -/
def temperatureOut (s : State) (code : Nat) : State :=
  if !islandUp s || tempInside code then s
  else
    let s := setF s TMP_SENSE TMP_SENSE_TEMP code
    let s := setFlag s TMP_STATUS TMP_STATUS_TEMPOUT true
    trigger s 1 (if code < 544 then 2 else 3) code

/-- The sensor reads inside the window again; from -25 °C to 90 °C the trigger may act again (R582). -/
def temperatureBack (s : State) (code : Nat) : State :=
  if !islandUp s || !tempInside code then s
  else
    let s := setFlag (setF s TMP_SENSE TMP_SENSE_TEMP code) TMP_STATUS TMP_STATUS_TEMPOUT false
    if 624 ≤ code && code ≤ 2464 then setActed s 1 false else s

/-- A VAON excursion to `mv` for 20 ns or longer; `merged`: less than 1 ms after the one before (R582). -/
def vaonGlitch (s : State) (mv : Nat) (merged : Bool) : State :=
  if !islandUp s || (1050 ≤ mv && mv ≤ 1400) then s
  else if merged && tamperActed s 2 then s
  else zeroise (setActed s 2 true) 4 mv

/-- A write of TMP_CTL: LOOPEN arms for good (R583), CHGOFF holds the charger off. -/
def tmpCtlWrite (s : State) (w : Word) : State := loopTrigger (chargerSync (plainWrite s TMP_CTL w))

/-- A tamper condition persists (R587). -/
def tamperPersists (s : State) : Bool :=
  flag s TMP_STATUS TMP_STATUS_ZEROING || flag s TMP_STATUS TMP_STATUS_TEMPOUT ||
    (flag s TMP_STATUS TMP_STATUS_LOOPOPEN && flag s TMP_CTL TMP_CTL_LOOPEN)

/-- The copies of the duplicated AON logic disagree (R584). -/
def aonFault (s : State) : State :=
  if islandUp s then logFault (setFlag s TMP_STATUS TMP_STATUS_AONFAULT true) .detect noElem noElem 0 else s

/-! ### Tamper log reads (R590) -/

/-- Entry at the selected index; zero where none is held. -/
def tamperEntry (s : State) : BitVec 128 := tget (fun _ => 0) s.tlog (getF s TMP_LOGSEL TMP_LOGSEL_INDEX)

def tmpLogRead (s : State) : Word × State :=
  let e := tamperEntry s
  (e.setWidth 32, { s with tlogLatch := e })

/-- A write to the tamper block at offset o. -/
def tmpWrite (s : State) (o : Nat) (w : Word) : State :=
  if !islandUp s then s
  else if o = 0 then tmpStatusWrite s w
  else if o = 4 then tmpCtlWrite s w
  else plainWrite s (TMP_STATUS + o) w

/-- A read of the tamper block at offset o. -/
def tmpRead (s : State) (o : Nat) : Word × State :=
  match o with
  | 0x40 => tmpLogRead s
  | 0x44 | 0x48 | 0x4C => ((s.tlogLatch >>> (8 * (o - 0x40))).setWidth 32, s)
  | _ => plainRead s (TMP_STATUS + o)

end Sys2Proof.Machine
end

