-- ==== Sys2Proof/Machine/Weave.lean ====
section
/-!
DEFINITION. The weave image (spec chapter 02): its layout, the checks of R50 in their order, and the loading of the
warp, the weft and the tally limits (R53). An image is the list of its bytes. The key table and the signatures of both
kinds of image (R37, R558) stand here too.
-/

namespace Sys2Proof.Machine

/-! ### Keys and signatures (R37, R558) -/

def allZero (l : List Byte) : Bool := l.all (· == 0)

/-- `n` bytes of an image from offset `off`. -/
def span (b : List Byte) (off n : Nat) : List Byte := (b.drop off).take n

/-- The public key in entry e of the key table, if it is present (R558). -/
def tableKey (s : State) (e : Nat) : Option (Nat × Nat) :=
  let k := getBytes s (0x33110000 + 128 * e) 128
  let x := beNat (span k 17 48)
  let y := beNat (span k 65 48)
  if k.getD 0 0 = 0xA5 && k.getD 16 0 = 4 && onCurve x y then some (x, y) else none

/-- Vendor key i and operator key i, which exist for i from 0 to 3. -/
def vendorKey (s : State) (i : Nat) : Option (Nat × Nat) := if i < 4 then tableKey s i else none

def operatorKey (s : State) (i : Nat) : Option (Nat × Nat) := if i < 4 then tableKey s (4 + i) else none

/-- One signature over a SHA-384 digest. -/
def signatureOk (key : Nat × Nat) (digest sig : List Byte) : Bool :=
  ecdsaVerify key.1 key.2 digest (beNat (sig.take 48)) (beNat (sig.drop 48))

/-- The image without its signature block. -/
def signedPart (b : List Byte) : List Byte := b.take (b.length - 192)

/-- Checks 5 to 7 of R50 and R564. -/
def keyChecks (s : State) (b : List Byte) : Option Nat :=
  match vendorKey s (leAt b 0x14 1), operatorKey s (leAt b 0x15 1) with
  | some vk, some ok =>
    let d := sha384 (signedPart b)
    let n := b.length
    if !signatureOk vk d (span b (n - 192) 96) then some 6
    else if !signatureOk ok d (span b (n - 96) 96) then some 7
    else none
  | _, _ => some 5

/-- Checks 1 to 4 of R50 and R564 on a header; the bounds of IMGLEN are those of the kind of image. -/
def headerChecks (s : State) (h magic : List Byte) (lo hi : Nat) : Option Nat :=
  let len := leAt h 8 4
  if h.take 4 != magic then some 1
  else if leAt h 4 2 != 1 || leAt h 6 2 != 0x80 then some 2
  else if leAt h 0x10 2 != 0x7264 || (reg s MOD_REV).toNat % 65536 < leAt h 0x12 2 then some 3
  else if len % 16 != 0 || len < lo || hi < len then some 4
  else none

/-! ### The directory (R34, R35, R628) -/

/-- One directory entry. -/
structure Sect where
  type : Nat
  off : Nat
  len : Nat
deriving DecidableEq, Repr

def sectOf (b : List Byte) (i : Nat) : Sect :=
  let e := 0x80 + 16 * i
  { type := leAt b e 2, off := leAt b (e + 4) 4, len := leAt b (e + 8) 4 }

def sectCount (b : List Byte) : Nat := leAt b 0x0C 2

def sects (b : List Byte) : List Sect := (List.range (sectCount b)).map (sectOf b)

def weaveTypes : List Nat := [1, 2, 3, 4, 5, 6, 7, 8, 9, 0x10, 0x11]

/-- A length of n entries of z bytes, n from lo to hi. -/
def entriesOk (len z lo hi : Nat) : Bool := len % z == 0 && lo ≤ len / z && len / z ≤ hi

/-- LENGTH as R35 sets it; NSTAGE is the WEFT section's own. -/
def lengthOk (b : List Byte) (e : Sect) : Bool :=
  match e.type with
  | 0x01 => e.len == 168
  | 0x02 => e.len == 1536
  | 0x03 => e.len == 136
  | 0x04 => e.len == 192
  | 0x05 => entriesOk e.len 24 1 64
  | 0x06 => e.len == 128
  | 0x07 => e.len == 16
  | 0x08 => e.len == 1152
  | 0x09 => entriesOk e.len 12 0 256
  | 0x10 => e.len == 16 + 16 * leAt b e.off 2
  | 0x11 => entriesOk e.len 24 1 1024
  | _ => false

/-- Entries i onwards, in directory order, after the end `pos` of what came before (R628, part 2): the index of the first
that fails, or the end of the last section. -/
def checkEntries (b : List Byte) : List Sect → Nat → Nat → List Nat → Except Nat Nat
  | [], _, pos, _ => .ok pos
  | e :: r, i, pos, seen =>
    let a := 0x80 + 16 * i
    if leAt b (a + 2) 2 != 1 || leAt b (a + 12) 4 != 0 || !weaveTypes.contains e.type || seen.contains e.type ||
        !lengthOk b e || e.off % 16 != 0 || e.off < pos || b.length - 192 < e.off + e.len ||
        !allZero (span b pos (e.off - pos)) then .error i
    else checkEntries b r (i + 1) (e.off + e.len) (e.type :: seen)

/-- Check 8: ERRSECT of the failure. -/
def checkDirectory (b : List Byte) : Option Nat :=
  let n := sectCount b
  if !allZero (span b 0x0E 2) || !allZero (span b 0x16 2) || !allZero (span b 0x40 64) then some 0xFF
  else if n != 10 && n != 11 then some 0xFF
  else
    match checkEntries b (sects b) 0 (0x80 + 16 * n) [] with
    | .error i => some i
    | .ok pos =>
      if !allZero (span b pos (b.length - 192 - pos)) then some 0xFF
      else if (weaveTypes.take 10).all (fun t => (sects b).any (fun e => e.type == t)) then none
      else some 0xFF

/-- The bytes of the section of a type; none of an absent one. -/
def sect? (b : List Byte) (t : Nat) : Option (List Byte) :=
  ((sects b).find? (fun e => e.type == t)).map (fun e => span b e.off e.len)

def sectBytes (b : List Byte) (t : Nat) : List Byte := (sect? b t).getD []

/-- Index of the section of a type in the directory. -/
def sectIndex (b : List Byte) (t : Nat) : Nat := ((sects b).map (·.type)).idxOf t

/-! ### Field ranges (check 9) -/

/-- Half-open lists of numbers: every value of f over 0 to n - 1 passes. -/
def allBelow (n : Nat) (f : Nat → Bool) : Bool := (List.range n).all f

/-- Ranges of which no two overlap. -/
def disjoint : List (Nat × Nat) → Bool
  | [] => true
  | p :: r => r.all (fun q => p.2 < q.1 || q.2 < p.1) && disjoint r

/-- TRIADMAP (R38). -/
def triadmapOk (x : List Byte) : Bool :=
  allBelow 32 (fun t => leAt x (4 * t) 4 &&& 0xFFFFF008 == 0) &&
    allBelow 8 (fun n => let w := leAt x (0x80 + 4 * n) 4; w &&& 0xFFFF00FE == 0 && bitsOf w 15 8 ≤ 40) &&
    (let r := leAt x 0xA0 4; 1 ≤ r && r ≤ 60000) && leAt x 0xA4 4 ≤ 1

/-- The two MRAM windows are regions of their own; the device blocks count as one (R40). -/
def segRegion (a : Nat) : Nat :=
  match regionOf a with
  | .localStore => 1
  | .common => 2
  | .mram => if a < 0x33000000 then 3 else 4
  | .device => 5
  | .hole => 0

/-- One segment with LIMIT ≠ 0 (R40). -/
def segmentOk (k base limit attr : Nat) : Bool :=
  let r := segRegion base
  let isD := attr.testBit 5
  r != 0 && base + limit ≤ 2 ^ 32 && segRegion (base + limit - 1) == r &&
    !(isD && attr.testBit 4) && (isD == (r == 5)) &&
    !((r == 3 || r == 4) && attr.testBit 1) && (k != 2 || attr % 4 == 3)

/-- SEGMENTS (R39, R40). -/
def segmentsOk (x : List Byte) : Bool :=
  allBelow 128 (fun i =>
    let limit := leAt x (12 * i + 4) 4
    let attr := leAt x (12 * i + 8) 2
    attr < 64 && leAt x (12 * i + 10) 2 < 2 && (limit == 0 || segmentOk (i % 8) (leAt x (12 * i) 4) limit attr))

/-- DOMAINS (R41). -/
def domainsOk (x : List Byte) : Bool :=
  let watch := ((List.range 32).map (fun i => leAt x (0x48 + 2 * i) 2)).filter (· != 0xFFFF)
  allBelow 18 (fun d =>
    let w := leAt x (4 * d) 4
    w < 16 && w % 4 != 3 && (1 < d || w % 4 == 0) && (!([0, 1, 2, 3, 12].contains d) || w.testBit 3)) &&
    watch.all (· ≤ 511) && decide watch.Nodup

/-- EVENTS (R42). -/
def eventsOk (x : List Byte) : Bool :=
  allBelow 96 (fun i => let w := leAt x (2 * i) 2; w < 0x200 && (w % 256 ≤ 191 || w % 256 == 255))

/-- FIRST and LAST of the classes (R43). -/
def classRanges (x : List Byte) : List (Nat × Nat) :=
  (List.range (x.length / 24)).map (fun i => (leAt x (24 * i) 4, leAt x (24 * i + 4) 4))

/-- QCLASSES (R43). -/
def qclassesOk (x : List Byte) : Bool :=
  (classRanges x).all (fun p => p.1 ≤ p.2 && p.2 < 0xFF000) && disjoint (classRanges x) &&
    allBelow (x.length / 24) (fun i =>
      let quota := leAt x (24 * i + 8) 4
      let owner := leAt x (24 * i + 16) 1
      1 ≤ quota && quota ≤ 3932160 && leAt x (24 * i + 12) 4 ≤ 16000000 && (owner < 32 || owner == 255) &&
        leAt x (24 * i + 18) 2 == 0 && leAt x (24 * i + 20) 4 == 0)

/-- One Ethernet block of INTERFACES (R44). -/
def portOk (p : List Byte) : Bool :=
  let gen := leAt p 0 1
  let netf := leAt p 1 1
  gen ≤ 5 && netf < 8 && leAt p 2 2 < 4096 && allZero (span p 0x0A 2) && allZero (span p 0x28 8) &&
    (gen == 0 || (netf / 2 != 0 && !allZero (span p 0x20 8)))

/-- INTERFACES (R44). -/
def interfacesOk (x : List Byte) : Bool :=
  let en := leAt x 0x60 1
  let bps := leAt x 0x64 4
  portOk (span x 0 0x30) && portOk (span x 0x30 0x30) && en ≤ 1 && allZero (span x 0x62 2) &&
    ((9600 ≤ bps && bps ≤ 2000000) || (en == 0 && bps == 0)) &&
    (let g := leAt x 0x68 1; 1 ≤ g && g ≤ 5) && [1, 2, 4, 8].contains (leAt x 0x69 1) && allZero (span x 0x6A 22)

/-- CLOCKS (R45). -/
def clocksOk (x : List Byte) : Bool :=
  leAt x 0 1 ≤ 1 && allZero (span x 1 3) && leAt x 4 4 < 2 ^ 18 && allZero (span x 8 8)

/-- IRQROUTE (R46). -/
def irqrouteOk (x : List Byte) : Bool :=
  allBelow 512 (fun n => leAt x (2 * n) 2 &&& 0x60E0 == 0) &&
    allBelow 32 (fun m => leAt x (0x400 + 4 * m) 4 / 256 ≤ 65535)

/-- CLASSIFIER (R47). -/
def classifierOk (x : List Byte) : Bool :=
  let l := (List.range (x.length / 12)).map (fun i => (leAt x (12 * i) 4, leAt x (12 * i + 4) 4))
  allBelow (x.length / 12) (fun i =>
    let a := leAt x (12 * i) 4
    let z := leAt x (12 * i + 4) 4
    let q := leAt x (12 * i + 8) 4
    a ≤ z && z < 2 ^ 20 && q < 2 ^ 20 && q + (z - a) < 2 ^ 20) && disjoint l

/-- Highest HARG of a handler kind (R305). -/
def hargMax : Nat → Nat
  | 0 => 15
  | 1 | 2 => 7
  | 5 => 2
  | _ => 0

/-- One stage entry (R304, R306). -/
def stageOk (e : List Byte) (nstage : Nat) (start : Bool) : Bool :=
  let kind := leAt e 0 1
  let qc := leAt e 2 1
  let fl := leAt e 3 1
  let tmo := leAt e 8 2
  let oarg := leAt e 11 1
  let spec := fl.testBit 0
  let commit := fl.testBit 1
  let post := fl.testBit 2
  let ckpt := fl.testBit 3
  kind ≤ 6 && leAt e 1 1 ≤ hargMax kind && fl < 16 && (qc < 64 || qc == 255) &&
    allBelow 4 (fun k => let n := leAt e (4 + k) 1; n < nstage || n == 255) &&
    (commit == (kind == 4 || kind == 6)) && !(commit && (spec || post)) && (kind != 5 || post) &&
    !(ckpt && (qc != 255 || post || commit)) && tmo / 2 ^ 14 != 3 && tmo % 2 ^ 14 != 0 && leAt e 10 1 ≤ 12 &&
    (if kind == 1 || kind == 2 then oarg < 64 || oarg == 255 else oarg == 0) && allZero (span e 12 4) &&
    !(start && (post || qc == 255))

/-- WEFT (R48). -/
def weftOk (x : List Byte) : Bool :=
  let n := leAt x 0 2
  let start := leAt x 2 1
  let fly := leAt x 4 4
  let cairn := leAt x 8 4
  let hi := leAt x 12 4
  1 ≤ n && n ≤ 256 && start < n && leAt x 3 1 == 0 && 1 ≤ fly && fly ≤ 65536 && 256 ≤ cairn && cairn ≤ 65536 &&
    1024 ≤ hi && hi ≤ 391168 && allBelow n (fun i => stageOk (span x (16 + 16 * i) 16) n (i == start))

/-- TALLY (R49). DESIGN CHOICE: a range whose FIRST is above its LAST, for which R49 states no rule, rejects the section with
CONTENT (log entry 93). -/
def tallyOk (x : List Byte) : Bool :=
  let l := (List.range (x.length / 24)).map (fun i => (leAt x (24 * i) 2, leAt x (24 * i + 2) 2))
  l.all (fun p => p.1 ≤ p.2) && disjoint l &&
    allBelow (x.length / 24) (fun i =>
      leAt x (24 * i + 4) 4 == 0 && (span x (24 * i + 8) 16).all (fun d => d.toNat / 16 ≤ 9 && d.toNat % 16 ≤ 9))

/-- The field ranges of one section. -/
def contentOk (t : Nat) (x : List Byte) : Bool :=
  match t with
  | 0x01 => triadmapOk x
  | 0x02 => segmentsOk x
  | 0x03 => domainsOk x
  | 0x04 => eventsOk x
  | 0x05 => qclassesOk x
  | 0x06 => interfacesOk x
  | 0x07 => clocksOk x
  | 0x08 => irqrouteOk x
  | 0x09 => classifierOk x
  | 0x10 => weftOk x
  | _ => tallyOk x

/-- Check 9: ERRSECT of the first section that fails, in directory order. -/
def checkContent (b : List Byte) : Option Nat :=
  (List.range (sectCount b)).find? (fun i => let e := sectOf b i; !contentOk e.type (span b e.off e.len))

/-! ### Cross-section rules (check 10) -/

/-- EN and GROUP of triad t in TRIADMAP. -/
def mapEnabled (tm : List Byte) (t : Nat) : Bool := (leAt tm (4 * t) 4).testBit 0

def mapGroup (tm : List Byte) (t : Nat) : Nat := bitsOf (leAt tm (4 * t) 4) 7 4

def classHolds (l : List (Nat × Nat)) (q : Nat) : Bool := l.any (fun p => p.1 ≤ q && q ≤ p.2)

/-- Every queue from lo to hi lies in a class: walk from range to range; fuel: the number of ranges. -/
def covered (l : List (Nat × Nat)) : Nat → Nat → Nat → Bool
  | 0, lo, hi => hi < lo
  | n + 1, lo, hi =>
    if hi < lo then true
    else
      match l.find? (fun p => p.1 ≤ lo && lo ≤ p.2) with
      | none => false
      | some p => covered l n (p.2 + 1) hi

/-- A weft stage names a weave class that does not exist. -/
def stageClassBad (n : Nat) (e : List Byte) : Bool :=
  let bad (c : Nat) : Bool := c != 255 && n ≤ c
  bad (leAt e 2 1) || ((leAt e 0 1 == 1 || leAt e 0 1 == 2) && bad (leAt e 11 1))

/-- Check 10: ERRSECT, the later of the two sections of the first rule that fails. DESIGN CHOICE (log entry 61): the rules are
taken in the order in which R50 lists them. -/
def checkCross (b : List Byte) : Option Nat :=
  let tm := sectBytes b 1
  let qc := sectBytes b 5
  let ir := sectBytes b 8
  let cl := sectBytes b 9
  let wf := sectBytes b 0x10
  let stages := (List.range (leAt wf 0 2)).map (fun i => span wf (16 + 16 * i) 16)
  let ranges := classRanges qc
  let later (x y : Nat) : Option Nat := some (max (sectIndex b x) (sectIndex b y))
  if stages.any (fun e => leAt e 0 1 == 0 &&
      !(List.range 32).any (fun t => mapEnabled tm t && mapGroup tm t == leAt e 1 1)) then later 0x10 1
  else if !allBelow (qc.length / 24) (fun i => let o := leAt qc (24 * i + 16) 1; o == 255 || mapEnabled tm o) then later 5 1
  else if !allBelow 512 (fun n => let w := leAt ir (2 * n) 2; !w.testBit 15 || mapEnabled tm (w % 32)) then later 8 1
  else if !allBelow (cl.length / 12) (fun i =>
      let q := leAt cl (12 * i + 8) 4
      covered ranges (ranges.length + 1) q (q + (leAt cl (12 * i + 4) 4 - leAt cl (12 * i) 4))) then later 9 5
  else if stages.any (stageClassBad ranges.length) then later 0x10 5
  else none

/-! ### The whole check (R50) -/

/-- The outcome of a check: ERROR (0: the image passes), ERRSECT, the image. -/
structure WvCheck where
  error : Nat
  sect : Nat := 0xFF
  img : List Byte := []
deriving DecidableEq, Repr

def weaveMagic : List Byte := [0x53, 0x42, 0x57, 0x56]

def firmwareMagic : List Byte := [0x53, 0x42, 0x46, 0x57]

/-- FWHASH of a weave. -/
def fwHashOf (b : List Byte) : List Byte := span b 0x20 32

/-- Checks 8 to 10. -/
def structureChecks (b : List Byte) : WvCheck :=
  match checkDirectory b with
  | some e => ⟨8, e, b⟩
  | none =>
    match checkContent b with
    | some e => ⟨9, e, b⟩
    | none =>
      match checkCross b with
      | some e => ⟨10, e, b⟩
      | none => ⟨0, 0xFF, b⟩

/-- Checks 1 to 10 of the image at an address. -/
def weaveCheck10 (s : State) (addr : Nat) : WvCheck :=
  let h := getBytes s addr 128
  match headerChecks s h weaveMagic 0x200 0x40000 with
  | some e => ⟨e, 0xFF, []⟩
  | none =>
    let b := getBytes s addr (leAt h 8 4)
    match keyChecks s b with
    | some e => ⟨e, 0xFF, b⟩
    | none => structureChecks b

/-- All checks; `fw` is the hash of the active firmware image, if it passed its own (R50, check 11). -/
def weaveCheck (s : State) (addr : Nat) (fw : Option (List Byte)) : WvCheck :=
  let r := weaveCheck10 s addr
  if r.error = 0 && !allZero (fwHashOf r.img) && fw != some (fwHashOf r.img) then { r with error := 11, sect := 0xFF }
  else r

/-- The nibble of WV_SLOTSTAT without ACTIVE: PRESENT, SIGOK, OK (R56). -/
def slotNibble (e : Nat) : Nat := b2n (e == 0 || 3 ≤ e) + 2 * b2n (e == 0 || 8 ≤ e) + 4 * b2n (e == 0)

/-! ### Loading (R53) -/

/-- Store n registers, register i at f i with value v i. -/
def loadRegs (n : Nat) (f : Nat → Nat) (v : Nat → Nat) (s : State) : State :=
  (List.range n).foldl (fun s i => setReg s (f i) (BitVec.ofNat 32 (v i))) s

def loadTriadmap (x : List Byte) (s : State) : State :=
  let s := (List.range 32).foldl (fun s t =>
    setReg s (SUP_TRIAD t) (BitVec.ofNat 32 (bitsPut (reg s (SUP_TRIAD t)).toNat 11 0 (leAt x (4 * t) 4)))) s
  let s := (List.range 8).foldl (fun s n =>
    let w := leAt x (0x80 + 4 * n) 4
    setF (setF s (SUP_CLUSTER n) SUP_CLUSTER_RSVEN w) (PD_VCL n) PD_VCL_VCL (bitsOf w 15 8)) s
  let s := setF s SUP_REPEAT SUP_REPEAT_MS (leAt x 0xA0 4)
  setF s SUP_SCRUBCTL SUP_SCRUBCTL_EN (leAt x 0xA4 4)

def loadDomains (x : List Byte) (s : State) : State :=
  let s := loadRegs 18 PD_TARGET (fun d => leAt x (4 * d) 4) s
  loadRegs 32 PIC_WATCH (fun i => leAt x (0x48 + 2 * i) 2) s

def loadEvents (x : List Byte) (s : State) : State := loadRegs 96 EVF_SEL (fun i => leAt x (2 * i) 2) s

def loadClasses (x : List Byte) (s : State) : State :=
  let n := x.length / 24
  let s := loadRegs n QE_CFIRST (fun i => leAt x (24 * i) 4) s
  let s := loadRegs n QE_CLAST (fun i => leAt x (24 * i + 4) 4) s
  let s := loadRegs n QE_CQUOTA (fun i => leAt x (24 * i + 8) 4) s
  let s := loadRegs n QE_CSTALE (fun i => leAt x (24 * i + 12) 4 + 2 ^ 24 * wheelLevel (leAt x (24 * i + 12) 4)) s
  loadRegs n QE_COWN (fun i => 2 ^ 31 + leAt x (24 * i + 17) 1 * 256 + leAt x (24 * i + 16) 1) s

/-- RATESEL1:RATESEL0 of a generation (R532). -/
def rateSel (gen : Nat) : Nat := if gen < 2 then 0 else 3

/-- The registers of port p (R44). -/
def loadPort (p : Nat) (x : List Byte) (s : State) : State :=
  let s := setReg s (ETH_CFG p) (BitVec.ofNat 32 (leAt x 0 1 * 2 ^ 24 + leAt x 1 1 * 2 ^ 16 + leAt x 2 2))
  let s := setReg s (ETH_MACLO p) (BitVec.ofNat 32 (leAt x 4 4))
  let s := setReg s (ETH_MACHI p) (BitVec.ofNat 32 (leAt x 8 2))
  let s := setReg s (ETH_IPV4 p) (BitVec.ofNat 32 (leAt x 0x0C 4))
  let s := loadRegs 4 (ETH_IPV6_ p) (fun i => leAt x (0x10 + 4 * i) 4) s
  loadRegs 2 (ETH_UDPP p) (fun i => leAt x (0x20 + 4 * i) 4) s

def loadSerial (x : List Byte) (s : State) : State :=
  setReg s SER_CFG (BitVec.ofNat 32 (leAt x 0x60 1 * 2 ^ 31 + leAt x 0x64 4 * 256 + leAt x 0x61 1))

/-- PCIEGEN and PCIEW become the limits of the next link training (R44, R513). -/
def loadPcie (x : List Byte) (s : State) : State :=
  let g := BitVec.ofNat 4 (leAt x 0x68 1)
  { s with hostFn := { s.hostFn with maxSpeed := g, maxWidth := BitVec.ofNat 6 (leAt x 0x69 1), target := g } }

/-- CLOCKS: enables, and AUTO of every domain but PCIE (R497, R500). -/
def loadClocks (x : List Byte) (s : State) : State :=
  let auto := leAt x 0 1
  let s := setF s CLK_CTL CLK_CTL_PLLSW auto
  let en := leAt x 4 4
  let s := setF (setF s CLK_EN CLK_EN_EN (en / 16)) CLK_EN CLK_EN_ENSYS (en / 2)
  ([1, 4, 5, 6, 7, 8, 9, 10, 11, 13, 14, 15, 16, 17] : List Nat).foldl (fun s d => setF s (CLK_SRC d) CLK_SRC_AUTO auto) s

def loadIrq (x : List Byte) (s : State) : State :=
  let s := loadRegs 512 PIC_ROUTE (fun n => leAt x (2 * n) 2 &&& 0x1F1F) s
  let en := (List.range 512).foldl (fun e n => e + b2n ((leAt x (2 * n) 2).testBit 15) * 2 ^ n) 0
  let s := { s with pic := { s.pic with en := BitVec.ofNat 512 en } }
  loadRegs 32 PIC_MOD (fun m => leAt x (0x400 + 4 * m) 4) s

def loadClassifier (x : List Byte) (s : State) : State :=
  let n := x.length / 12
  let s := loadRegs n CLS_FIRST (fun i => leAt x (12 * i) 4) s
  let s := loadRegs n CLS_LAST (fun i => leAt x (12 * i + 4) 4) s
  loadRegs n CLS_QBASE (fun i => leAt x (12 * i + 8) 4) s

def loadStages (x : List Byte) (s : State) : State :=
  let n := leAt x 0 2
  let s := loadRegs n WS_STGW0 (fun i => leAt x (16 + 16 * i) 4) s
  let s := loadRegs n WS_STGW1 (fun i => leAt x (20 + 16 * i) 4) s
  let s := loadRegs n WS_STGW2 (fun i => leAt x (24 + 16 * i) 4) s
  let s := setReg s WS_GEOM (BitVec.ofNat 32 (leAt x 2 1 * 2 ^ 24 + n))
  let s := setF s WS_MAXFLIGHT WS_MAXFLIGHT_MAX (leAt x 4 4)
  let s := setF s LED_CAIRNINT LED_CAIRNINT_CAIRN (leAt x 8 4)
  setF s LED_HIWATER LED_HIWATER_SLOTS (leAt x 12 4)

/-- A packed BCD limit, most significant digit first (R49). -/
def bcdBytes (l : List Byte) : Nat := l.foldl (fun n d => 100 * n + 10 * (d.toNat / 16) + d.toNat % 16) 0

/-- The tally store as boot step 3 leaves it: limits and enables set, every C zero (R49, R346). -/
def loadTallies (x : List Byte) (s : State) : State :=
  let one (e : List Byte) : Tab Tally :=
    let a := leAt e 0 2
    (List.range (leAt e 2 2 + 1 - a)).map (fun k => (a + k, { en := true, limit := bcdBytes (span e 8 16) }))
  let l := (List.range (x.length / 24)).flatMap (fun i => one (span x (24 * i) 24))
  setTly s { tallies := l.foldl (fun t p => tset (fun _ => {}) t p.1 p.2) [] }

/-- Everything that the weave sets in registers at boot step 3 (R52, R53). -/
def loadWeave (b : List Byte) (s : State) : State :=
  let i := sectBytes b 6
  let s := loadTriadmap (sectBytes b 1) s
  let s := loadDomains (sectBytes b 3) s
  let s := loadEvents (sectBytes b 4) s
  let s := loadClasses (sectBytes b 5) s
  let s := loadPort 0 (span i 0 0x30) s
  let s := loadPort 1 (span i 0x30 0x30) s
  let s := loadSerial i s
  let s := loadPcie i s
  let s := loadClocks (sectBytes b 7) s
  let s := loadIrq (sectBytes b 8) s
  let s := loadClassifier (sectBytes b 9) s
  let s := loadStages (sectBytes b 0x10) s
  loadTallies (sectBytes b 0x11) s

end Sys2Proof.Machine
end

