-- ==== Sys2Proof/Machine/Boot.lean ====
section
/-!
DEFINITION. Reset and boot (spec chapter 22): the boot control block, firmware images and their check, the choice of the
firmware slot, the start of triads, the boot records, and the boot sequence of R556.
-/

namespace Sys2Proof.Machine

/-! ### Boot control block (R559, R560) -/

def bcbWord (s : State) (off : Nat) : Nat := leNat (getBytes s (0x33100000 + off) 8)

def putBcb (s : State) (off v : Nat) : State := putMram s (0x33100000 + off) (leBytes 8 v)

/-- BOOTCTL: PINSEL and NEXTPROF. -/
def bootctlOf (pinsel nextprof : Nat) : Nat := pinsel % 2 + nextprof % 4 * 16

/-- FWSEL (R560). -/
structure FwSel where
  act : Nat
  unconf : Bool
  tries : Nat
  rprof : Nat
deriving DecidableEq, Repr

def readFwsel (s : State) : FwSel :=
  let w := bcbWord s 8
  { act := w % 2, unconf := w.testBit 1, tries := bitsOf w 4 2, rprof := bitsOf w 9 8 }

def fwselWord (f : FwSel) : Nat := f.act % 2 + 2 * b2n f.unconf + 4 * (f.tries % 8) + 256 * (f.rprof % 4)

def writeFwsel (s : State) (f : FwSel) : State := putBcb s 8 (fwselWord f)

/-! ### Firmware images (R561 to R564) -/

/-- Entry i of the entry table: PC, VBASE, KSP, SP. -/
structure FwEntry where
  pc : Nat
  vbase : Nat
  ksp : Nat
  sp : Nat
deriving DecidableEq, Repr

def fwEntry (b : List Byte) (i : Nat) : FwEntry :=
  let a := 0x80 + 16 * i
  { pc := leAt b a 4, vbase := leAt b (a + 4) 4, ksp := leAt b (a + 8) 4, sp := leAt b (a + 12) 4 }

def fwEntryOk (e : FwEntry) : Bool := e.pc % 2 == 0 && e.vbase % 2048 == 0 && e.ksp % 4 == 0 && e.sp % 4 == 0

/-- One load directory entry. -/
structure FwLoad where
  kind : Nat
  zero : Nat
  off : Nat
  len : Nat
  dest : Nat
deriving DecidableEq, Repr

def fwLoads (b : List Byte) : List FwLoad :=
  (List.range (leAt b 0x0C 2)).map (fun i =>
    let a := 0x180 + 16 * i
    { kind := leAt b a 1, zero := leAt b (a + 1) 3, off := leAt b (a + 4) 4, len := leAt b (a + 8) 4, dest := leAt b (a + 12) 4 })

/-- A destination range lies wholly inside the local store or the common store. -/
def destOk (l : FwLoad) : Bool :=
  if l.kind = 1 then l.len ≤ 0x20000 && l.dest + l.len ≤ 0x20000
  else l.kind == 2 && 0x10000000 ≤ l.dest && l.dest + l.len ≤ 0x12800000

def fwLoadOk (b : List Byte) (n : Nat) (l : FwLoad) : Bool :=
  destOk l && l.zero == 0 && l.off % 16 == 0 && 1 ≤ l.len && l.dest % 4 == 0 && 0x180 + 16 * n ≤ l.off &&
    l.off + l.len ≤ b.length - 192

/-- Ranges in rising order of their start. -/
def insertRange (p : Nat × Nat) : List (Nat × Nat) → List (Nat × Nat)
  | [] => [p]
  | q :: r => if p.1 ≤ q.1 then p :: q :: r else q :: insertRange p r

def sortRanges (l : List (Nat × Nat)) : List (Nat × Nat) := l.foldr insertRange []

/-- Every byte from `pos` to `stop` that no range covers is zero. -/
def gapsZero (b : List Byte) (stop : Nat) : List (Nat × Nat) → Nat → Bool
  | [], pos => allZero (span b pos (stop - pos))
  | p :: r, pos => allZero (span b pos (p.1 - pos)) && gapsZero b stop r (p.2 + 1)

/-- Check 8 of R564. -/
def fwDirOk (b : List Byte) : Bool :=
  let n := leAt b 0x0C 2
  let l := fwLoads b
  let data := l.map (fun e => (e.off, e.off + e.len - 1))
  allZero (span b 0x0E 2) && allZero (span b 0x16 2) && allZero (span b 0x20 96) && 1 ≤ n && n ≤ 16 &&
    (List.range 16).all (fun i => fwEntryOk (fwEntry b i)) && l.all (fwLoadOk b n) &&
    disjoint (l.map (fun e => (e.dest, e.dest + e.len - 1))) && disjoint data &&
    gapsZero b (b.length - 192) (sortRanges data) (0x180 + 16 * n)

/-- The outcome of a firmware check: the code (0: the image passes) and the image. -/
structure FwCheck where
  error : Nat
  img : List Byte := []
deriving DecidableEq, Repr

/-- The check of R564 on the image at an address; `len` is the length given in UPD_BEGIN for an update. -/
def fwCheck (s : State) (addr : Nat) (len : Option Nat) : FwCheck :=
  let h := getBytes s addr 128
  match headerChecks s h firmwareMagic 0x400 0x400000 with
  | some e => ⟨e, []⟩
  | none =>
    if len.isSome && len != some (leAt h 8 4) then ⟨4, []⟩
    else
      let b := getBytes s addr (leAt h 8 4)
      match keyChecks s b with
      | some e => ⟨e, b⟩
      | none => if fwDirOk b then ⟨0, b⟩ else ⟨8, b⟩

/-- SHA-256 over an image without its signature block (R36, R563). -/
def imageHash (b : List Byte) : List Byte := sha256 (signedPart b)

/-- Firmware slot i. -/
def fwSlotAddr (i : Nat) : Nat := 0x33400000 + 0x400000 * i

/-- Weave profile slot n (R54). -/
def wvSlotAddr (n : Nat) : Nat := 0x33000000 + 0x40000 * n

def stagingAddr : Nat := 0x33C00000

/-! ### Records of the boot and update engine (R352, R572, R589) -/

def bootSource : BitVec 16 := 0xE003

/-- The UPDATE record. -/
def updateBody (event target detail tries len : Nat) (hash : List Byte) (slot : Nat) : Body :=
  { type := 0x800A, source := bootSource, flags := BitVec.ofNat 16 (slot % 2),
    payload := [BitVec.ofNat 8 event, BitVec.ofNat 8 target, BitVec.ofNat 8 detail, BitVec.ofNat 8 tries] ++
      leBytes 4 len ++ padTo 32 hash }

/-- The TAMPER record of tamper log entry c. -/
def tamperBody (s : State) (c lost : Nat) : Body :=
  let e := (tget (fun _ => (0 : BitVec 128)) s.tlog (c % 16)).toNat
  let sec := bitsOf e 95 64 + 2 ^ 32 * bitsOf e 127 112
  { type := 0x800B, source := 0xE005, flags := BitVec.ofNat 16 (bitsOf e 40 40),
    payload := leBytes 4 c ++ [BitVec.ofNat 8 (bitsOf e 39 32), 0] ++ leBytes 2 (bitsOf e 63 48) ++
      leBytes 8 (sec * 2 ^ 16 + 2 * bitsOf e 110 96) ++ leBytes 4 lost ++ [0, 0, 0, 0] }

/-- The TAMPER records of this boot, oldest first (R589). -/
def tamperRecords (s : State) : State :=
  let cnt := (reg s TMP_LOGCNT).toNat
  let copied := if cnt < bcbWord s 16 then 0 else bcbWord s 16
  let s := if cnt < bcbWord s 16 then putBcb s 16 0 else s
  let first := max copied (cnt - 16)
  let lost := cnt - 16 - copied
  (List.range (cnt - first)).foldl (fun s i =>
    acceptRecord s (tamperBody s (first + i) (if i = 0 then lost else 0)) (.tamper (first + i + 1))) s

/-- The BOOT record. -/
def bootBody (s : State) : Body :=
  let rejected := getF s WV_STATUS WV_STATUS_STATE == 3
  let fl := getF s WV_STATUS WV_STATUS_PROFILE + 4 * getF s WV_STATUS WV_STATUS_BYPIN +
    8 * getF s WV_STATUS WV_STATUS_UNBOUND + 16 * getF s BOOT_STATUS BOOT_STATUS_FWSLOT + 32 * b2n rejected
  { type := 0x8002, source := bootSource, flags := BitVec.ofNat 16 fl, payload := hashRegs s FW_HASH ++ hashRegs s WV_HASH }

/-- The WEAVEREJECT record. -/
def rejectBody (s : State) : Body :=
  { type := 0x8003, source := bootSource,
    payload := [BitVec.ofNat 8 (getF s WV_STATUS WV_STATUS_PROFILE), BitVec.ofNat 8 (getF s WV_STATUS WV_STATUS_ERROR),
                BitVec.ofNat 8 (getF s WV_STATUS WV_STATUS_ERRSECT)] }

/-! ### Choosing the firmware slot (R565) -/

/-- What R565 made of this boot: nothing, a trial, or a revert to a restored NEXTPROF. -/
inductive SlotChoice where
  | plain | trial (tries : Nat) | revert (prof : Nat)
deriving DecidableEq, Repr

/-- Read FWSEL and act on it: the boot control block's writes, BOOT_STATUS, and what was chosen. -/
def chooseSlot (s : State) : SlotChoice × State :=
  let f := readFwsel s
  let (c, s) :=
    if !f.unconf then (SlotChoice.plain, s)
    else if 0 < f.tries then (.trial (f.tries - 1), writeFwsel s { f with tries := f.tries - 1 })
    else
      let s := putBcb s 0 (bootctlOf (bcbWord s 0) f.rprof)
      (.revert f.rprof, writeFwsel s { act := 1 - f.act, unconf := false, tries := 0, rprof := 0 })
  let g := readFwsel s
  let s := setF (setFlag s BOOT_STATUS BOOT_STATUS_UNCONF g.unconf) BOOT_STATUS BOOT_STATUS_TRIES g.tries
  let s := setF s BOOT_STATUS BOOT_STATUS_FWSLOT g.act
  let reverted := match c with | .revert _ => true | _ => false
  (c, setFlag s BOOT_STATUS BOOT_STATUS_REVERTED reverted)

/-- BOOT_CTL shows the boot control block. -/
def loadBootCtl (s : State) : State :=
  let w := bcbWord s 0
  setF (setF s BOOT_CTL BOOT_CTL_PINSEL (w % 2)) BOOT_CTL BOOT_CTL_NEXTPROF (bitsOf w 5 4)

/-! ### Step 2: checks -/

/-- Eight registers that show 32 bytes, byte 4i in [31:24]. -/
def setHash (s : State) (f : Nat → Nat) (h : List Byte) : State :=
  (List.range 8).foldl (fun s i => setReg s (f i) (BitVec.ofNat 32 (beAt h (4 * i) 4))) s

/-- The booted slot and the registers that show the firmware: the image when it passes. -/
def checkFirmware (s : State) : Option (List Byte) × State :=
  let slot := getF s BOOT_STATUS BOOT_STATUS_FWSLOT
  let a := fwCheck s (fwSlotAddr 0) none
  let b := fwCheck s (fwSlotAddr 1) none
  let sig (c : FwCheck) : Bool := c.error == 0 || c.error == 8
  let s := setFlag (setFlag s FW_STATUS FW_STATUS_OKA (a.error == 0)) FW_STATUS FW_STATUS_SIGOKA (sig a)
  let s := setFlag (setFlag s FW_STATUS FW_STATUS_OKB (b.error == 0)) FW_STATUS FW_STATUS_SIGOKB (sig b)
  let c := if slot = 0 then a else b
  let s := setF s FW_STATUS FW_STATUS_ERROR c.error
  if c.error != 0 then (none, s)
  else
    let s := setHash (setFlag s BOOT_STATUS BOOT_STATUS_FWOK true) FW_HASH (imageHash c.img)
    let s := setReg s FW_VERSION0 (BitVec.ofNat 32 (leAt c.img 0x18 4))
    (some c.img, setReg s FW_VERSION1 (BitVec.ofNat 32 (leAt c.img 0x1C 4)))

/-- All four profile slots are checked and reported (R56); the outcome of the selected one. -/
def checkWeaves (s : State) (prof : Nat) (fw : Option (List Byte)) : WvCheck × State :=
  let hash := fw.map imageHash
  let l := (List.range 4).map (fun n => weaveCheck s (wvSlotAddr n) hash)
  let stat := (l.zipIdx.map (fun p => (slotNibble p.1.error + 8 * b2n (p.1.error == 0 && p.2 == prof)) * 16 ^ p.2)).sum
  (l.getD prof ⟨1, 0xFF, []⟩, setReg s WV_SLOTSTAT (BitVec.ofNat 32 stat))

/-! ### Step 3: loading, or rejection -/

/-- The weave is loaded or rejected, the lock is set, and the MACs load their stop bits (R51, R52, R257). -/
def loadOrReject (s : State) (c : WvCheck) : State :=
  let s := [0, 1, 2].foldl macLoad (setF s WV_STATUS WV_STATUS_ERROR c.error)
  let s :=
    if c.error = 0 then
      let s := setF (loadWeave c.img s) WV_STATUS WV_STATUS_STATE 2
      let s := setFlag s QE_STATUS QE_STATUS_LOADED true
      let s := setFlag s WV_STATUS WV_STATUS_UNBOUND (allZero (fwHashOf c.img))
      let s := setHash s WV_HASH (imageHash c.img)
      let s := setReg s WV_BUILD0 (BitVec.ofNat 32 (leAt c.img 0x18 4))
      setReg s WV_BUILD1 (BitVec.ofNat 32 (leAt c.img 0x1C 4))
    else setF (setF s WV_STATUS WV_STATUS_STATE 3) WV_STATUS WV_STATUS_ERRSECT c.sect
  setFlag s WV_STATUS WV_STATUS_LOCK true

/-- The booted firmware image and the loaded weave image, as their slots hold them; no bytes where there is none. -/
def bootedFw (s : State) : List Byte :=
  let a := fwSlotAddr (getF s BOOT_STATUS BOOT_STATUS_FWSLOT)
  if flag s BOOT_STATUS BOOT_STATUS_FWOK then getBytes s a (leNat (getBytes s (a + 8) 4)) else []

def loadedWv (s : State) : List Byte :=
  let a := wvSlotAddr (getF s WV_STATUS WV_STATUS_PROFILE)
  if getF s WV_STATUS WV_STATUS_STATE = 2 then getBytes s a (leNat (getBytes s (a + 8) 4)) else []

/-! ### Steps 4 and 5: stores, load images, triads -/

/-- The KIND 0x01 images, in the local store of triad t's cores. -/
def loadLocal (b : List Byte) (s : State) (t : Nat) : State :=
  (fwLoads b).foldl (fun s l => if l.kind = 1 then putBytes s (lsKey t l.dest) (span b l.off l.len) else s) s

/-- The KIND 0x02 images, in the common store. -/
def loadCommon (b : List Byte) (s : State) : State :=
  (fwLoads b).foldl (fun s l => if l.kind = 2 then putBytes s l.dest (span b l.off l.len) else s) s

/-- The segment descriptors of handler group g (R39): sb, sl, and sa with LOCK. -/
def loadSegments (wv : List Byte) (g : Nat) (x : Triad) : Triad :=
  let seg := sectBytes wv 2
  (List.range 8).foldl (fun x k =>
    let o := 96 * g + 12 * k
    let x := setPort x (0xC0 + k) (BitVec.ofNat 32 (leAt seg o 4))
    let x := setPort x (0xC8 + k) (BitVec.ofNat 32 (leAt seg (o + 4) 4))
    setPort x (0xD0 + k) (BitVec.ofNat 32 (leAt seg (o + 8) 2 + 256 * (leAt seg (o + 10) 2 % 2)))) x

/-- The state of a starting triad (R66, R566). -/
def startState (fw wv : List Byte) (group entry : Nat) (det : Bool) (x : Triad) : Triad :=
  let e := fwEntry fw entry
  let y : Triad := { pos0 := x.pos0, pos1 := x.pos1, pos2 := x.pos2 }
  let y := loadSegments wv group y
  let y := setPort y 0xD8 (BitVec.ofNat 32 e.vbase)
  let y := setPort y 0xD9 (BitVec.ofNat 32 e.ksp)
  let y := setPort y 0x1F (BitVec.ofNat 32 e.sp)
  let y := setPort y 0xDA (BitVec.ofNat 32 (1 + 2 * b2n det))
  { y with pc := BitVec.ofNat 32 e.pc }

/-- Triad t starts (R566): its state, its digest, its trace. MODE becomes 1 unless the triad runs in duplex. -/
def startTriad (fw wv : List Byte) (s : State) (t : Nat) : State :=
  let a := SUP_TRIAD t
  let s := setT s t (startState fw wv (getF s a SUP_TRIAD_GROUP) (getF s a SUP_TRIAD_ENTRY) (flag s a SUP_TRIAD_DET) (getT s t))
  let s := if triadMode s t = 0 then setMode s t 1 else s
  let s := startDigest s t
  if traced s t then setFlag s AUD_TRCST AUD_TRCST_FULLRUN true else s

/-- A core that fails its self-test is fenced (R556); cores by 13 x cluster + core, the reserve 12. -/
def fenceCore (s : State) (core : Nat) : State :=
  let a := SUP_CLUSTER (core / 13)
  if core < 104 then setF s a SUP_CLUSTER_LOST (getF s a SUP_CLUSTER_LOST ||| 2 ^ (core % 13)) else s

/-- The core at position p of triad t has failed its self-test before the triad starts (R556): the reserve takes its position, or
the triad runs in duplex, or it is stopped. -/
def bootFence (s : State) (t p : Nat) : State :=
  let n := clusterOf t
  let core := coreAt s t p
  if triadMode s t = 2 then stopTriad s t
  else if triadMode s t != 1 then s
  else if swapPossible s n then logFault (clvBit (mapReserve s t p) n CLV_STATUS_MASKED 12 false) .swap core t 0
  else duplexOrStop (setMasked s t p true) t core

/-- A reserve core after its self-test (R230). -/
def testReserve (s : State) (n : Nat) (ok : Bool) : State :=
  if flag s (SUP_CLUSTER n) SUP_CLUSTER_RSVUSED then s
  else if ok then setFlag s (SUP_CLUSTER n) SUP_CLUSTER_RSVAVAIL true
  else logFault (setFlag s (SUP_CLUSTER n) SUP_CLUSTER_RSVAVAIL false) .rsvLost (13 * n + 12) noElem 0

def coreFails (st : SelfTest) (core : Nat) : Bool := st.cores.any (fun c => c.toNat == core)

/-- Start triad t at boot, with the cores that failed their self-test replaced first. -/
def bootTriad (fw wv : List Byte) (st : SelfTest) (s : State) (t : Nat) : State :=
  if !flag s (SUP_TRIAD t) SUP_TRIAD_EN then s
  else
    let s := setMode s t 1
    let bad := (List.range 3).filter (fun p => coreFails st (coreAt s t p))
    let s := bad.foldl (fun s p => bootFence s t p) s
    if triadLive s t then startTriad fw wv s t else s

/-- Step 5. -/
def bootTriads (fw wv : List Byte) (st : SelfTest) (s : State) : State :=
  let s := (List.range 32).foldl (bootTriad fw wv st) s
  let all := (List.range 32).all (fun t => !flag s (SUP_TRIAD t) SUP_TRIAD_EN || triadLive s t)
  setFlag s MOD_STATUS MOD_STATUS_TRIADS all

/-- The shared stores are cleared and tested, the reserves tested, the load images written (step 4); a boot ROM copy that failed is
logged (R231, R232). -/
def bootStores (fw : Option (List Byte)) (st : SelfTest) (s : State) : State :=
  let s := wipe (wipe s 0x10000000 0x12800000) (2 ^ 32) (2 ^ 32 * 34)
  let s := { s with qe := {}, triads := [] }
  let s := if st.rom then maskedFault s noElem else s
  let s := if st.store then logFault (setFlag s BOOT_STATUS BOOT_STATUS_SELFTEST true) .detect noElem noElem 0 else s
  let s := st.cores.foldl (fun s c => fenceCore s c.toNat) s
  let s := (List.range 8).foldl (fun s n => testReserve s n (!coreFails st (13 * n + 12))) s
  match fw with
  | none => s
  | some b => (List.range 32).foldl (loadLocal b) (loadCommon b s)

/-- The boot records, in their order (R567). -/
def bootRecords (s : State) (c : SlotChoice) (fw : Option (List Byte)) : State :=
  let s := tamperRecords s
  let s := acceptRecord s (bootBody s) .none
  let slot := getF s BOOT_STATUS BOOT_STATUS_FWSLOT
  let b := fw.getD []
  let h := if fw.isSome then imageHash b else []
  let s := match c with
    | .plain => s
    | .trial n => acceptRecord s (updateBody 5 0 0 n b.length h slot) .none
    | .revert p => acceptRecord s (updateBody 7 0 p 0 b.length h slot) .none
  if getF s WV_STATUS WV_STATUS_STATE = 3 then acceptRecord s (rejectBody s) .none else s

/-- The votes at the end of boot (R480), and the rails. -/
def bootVotes (s : State) : State :=
  let s := (List.range 18).foldl (fun s d =>
    let held := 4 ≤ d && d < 12 && (List.range 4).any (fun j => flag s (SUP_TRIAD (4 * (d - 4) + j)) SUP_TRIAD_EN)
    setFlag s (PD_VOTEB d) PD_VOTEB_BOOT (flag s (PD_TARGET d) PD_TARGET_BOOTON || held)) s
  (List.range 8).foldl (fun s n => setFlag s (PD_VCL n) PD_VCL_RDY true) s

/-- Step 6. -/
def bootEnd (s : State) : State :=
  let s := finishLedger s
  let s := setFlag (bootVotes s) MOD_STATUS MOD_STATUS_READY true
  let s := setF s BOOT_STATUS BOOT_STATUS_STEP 7
  let s := setF s UPD_STATUS UPD_STATUS_STAGE (if flag s BOOT_STATUS BOOT_STATUS_UNCONF then 4 else 0)
  if flag s MOD_STOP MOD_STOP_SCANLOCK then intakeUpdate s else setStop s 2 false

/-- The ledger's scan at step 1; without an anchor the card enters safe halt (R376). -/
def bootScan (s : State) : State :=
  let (s, ok) := ledgerScan s
  if ok then s else enterSafeHalt (logFault s .detect noElem noElem 0) 4

/-- The profile: the one a restart names, or by R55. -/
def bootProfile (s : State) (named : Option Nat) : State :=
  let pins := flag s BOOT_CTL BOOT_CTL_PINSEL
  match named with
  | some n => setF (setFlag s WV_STATUS WV_STATUS_BYPIN false) WV_STATUS WV_STATUS_PROFILE n
  | none =>
    let p := if pins then getF s WV_PSEL WV_PSEL_SAMPLED else getF s BOOT_CTL BOOT_CTL_NEXTPROF
    setF (setFlag s WV_STATUS WV_STATUS_BYPIN pins) WV_STATUS WV_STATUS_PROFILE p

/-- The boot sequence up to step 5 (R556). -/
def bootSteps (s : State) (named : Option Nat) (st : SelfTest) (noise : List Byte) : State :=
  let (c, s) := chooseSlot s
  let s := bootScan (bootProfile (loadBootCtl (pllLock s)) named)
  let (fw, s) := checkFirmware s
  let prof := getF s WV_STATUS WV_STATUS_PROFILE
  let (w, s) := checkWeaves s prof fw
  let s := clkAutoAll (drawBoot (loadOrReject s w) noise)
  let s := bootRecords (bootStores fw st s) c fw
  let s := match fw with
    | some b => if w.error = 0 && !st.store && !safeHalt s then bootTriads b w.img st s else s
    | none => s
  setF (mirrorSync s) BOOT_STATUS BOOT_STATUS_STEP 6

/-! ### Reset (R554, R555) -/

/-- Registers in [lo, hi) of one state, put into another. -/
def keepRegs (old new : State) (lo hi : Nat) : State :=
  { new with csr := (trange lo hi old.csr).foldl (fun t p => tset regRst t p.1 p.2) (tclear lo hi new.csr) }

/-- One register of one state, put into another. -/
def keepReg (old new : State) (a : Nat) : State := setReg new a (reg old a)

/-- What every reset of the card keeps: MRAM, the AON, the pins' levels, the fused values, and the model's own fields; FATAL
clears, so AUD_DO is high again (R594); the charger follows its conditions (R577). DEDUCED (log entry 76): AONFAULT and TMP_LOGSEL
are reset. -/
def keptState (s : State) : State :=
  let r : State :=
    { pending := s.pending, mem := trange 0x30000000 0x34000000 s.mem, poison := trange 0x30000000 0x34000000 s.poison,
      fresh := s.fresh, out := if flag s MOD_STATUS MOD_STATUS_FATAL then .audDo true :: s.out else s.out,
      rdata := s.rdata, slck := s.slck, pads := s.pads,
      rtc := { s.rtc with copySec := s.rtc.sec, copySub := s.rtc.sub, snap := s.rtc.sec },
      keys := s.keys, tlog := s.tlog, tacted := s.tacted, islandOff := s.islandOff, vbatIn := s.vbatIn,
      evf := { pinIn := s.evf.pinIn } }
  let r := keepRegs s r TMP_STATUS (TMP_STATUS + 0x100)
  let r := setReg (setFlag r TMP_STATUS TMP_STATUS_AONFAULT false) TMP_LOGSEL 0
  let r := keepReg s r RTC_TRIM
  let r := keepReg s (keepReg s (keepReg s r MOD_ID) MOD_SERIAL0) MOD_SERIAL1
  let r := setFlag r MOD_STATUS MOD_STATUS_SEALED (flag s MOD_STATUS MOD_STATUS_SEALED)
  let r := [0, 1].foldl (fun r p =>
    [ETH_STATUS_MODABS, ETH_STATUS_LOS, ETH_STATUS_TXFAULT].foldl (fun r f => setF r (ETH_STATUS p) f (getF s (ETH_STATUS p) f)) r) r
  mirrorSync (chargerSync r)

/-- The state while the power-on reset is held; `cause` is RST_CAUSE.CAUSE (R555). -/
def powerOnReset (s : State) (cause : Nat) : State := setF (keptState s) RST_CAUSE RST_CAUSE_CAUSE cause

/-- The power path switches (R575); to a cell that has been taken out, it leaves the island without a source (R580). -/
def supplyChange (s : State) (cell : Bool) : State :=
  if cell && flag s TMP_STATUS TMP_STATUS_BATGONE && !s.vbatIn then powerOnReset (islandLost s) 0 else supplySwitch s cell

/-- The reset of a controlled restart (R58 step 6, R554): beside what every reset keeps, the PCIE domain, the host
interface, the fault log, the digests' EPOCH, the stop bits, failed links, routers and routes (R249, R250), PLLA's lock, the
sampled pins, and a FAILED entropy source (R390); votes start again (R480). -/
def restartReset (s : State) (cause : Nat) : State :=
  let r := keptState s
  let r := { r with hostFn := s.hostFn, mbx := { s.mbx with uart := [] }, flog := s.flog,
                    aud := { digests := s.aud.digests, tap := s.aud.tap }, nPfail := s.nPfail }
  let r := keepRegs s r HB_LINK (HB_LINK + 0x1000)
  let r := keepReg s r (PD_STATUS 12)
  let r := { r with lat := { r.lat with routes := s.lat.routes } }
  let r := keepReg s r LAT_RTRFAIL
  let r := countLinks ((List.range 24).foldl (fun r i => setF r (LAT_LINK i) LAT_LINK_STATE (getF s (LAT_LINK i) LAT_LINK_STATE)) r)
  let r := keepReg s (keepReg s r (CLK_SRC 12)) CLK_STATUS
  let r := keepReg s (keepReg s r SUP_FLOGCNT) WV_PSEL
  let r := keepReg s r MOD_STOP
  let r := if getF s DRW_STATUS DRW_STATUS_SOURCE = 3 then setF r DRW_STATUS DRW_STATUS_SOURCE 3 else r
  let r := setF r RST_CAUSE RST_CAUSE_RESTARTS (getF s RST_CAUSE RST_CAUSE_RESTARTS + 1)
  setF r RST_CAUSE RST_CAUSE_CAUSE cause

end Sys2Proof.Machine
end

