-- ==== Sys2Proof/Machine/Host.lean ====
section
/-!
DEFINITION. The host bridge and the command mailbox (spec chapter 20): resets of the bridge, link and configuration
space, MSI-X, frames, the commands of R526, image updates (R568 to R573), and the controlled restart (R58).
-/

namespace Sys2Proof.Machine

def setHf (s : State) (h : HostFn) : State := { s with hostFn := h }

def setMbx (s : State) (m : Mailbox) : State := { s with mbx := m }

/-! ### Link, resets, configuration (R512, R513, R519) -/

/-- Memory requests of the host reach the windows: the domain is ON, the link is up, Memory Space Enable is set, D0. -/
def hostReady (s : State) : Bool :=
  domOn s 12 && flag s HB_LINK HB_LINK_UP && s.hostFn.memEn && getF s HB_LINK HB_LINK_DSTATE == 0

/-- A PCIe link state change is shared source 99 (R408). -/
def pcieEvent (s : State) : State := srcEvent s 99

/-- The link goes down, to Detect. -/
def linkDown (s : State) : State :=
  let s := setHf s { s.hostFn with away := false }
  if !flag s HB_LINK HB_LINK_UP then s
  else
    let s := setHf s { s.hostFn with l1 := false }
    pcieEvent (setF (setF (setFlag s HB_LINK HB_LINK_UP false) HB_LINK HB_LINK_WIDTH 0) HB_LINK HB_LINK_SPEED 0)

/-- The bridge has the reference it needs to train (R496). -/
def pcieClocked (s : State) : Bool := clocked s 12 && flag s (CLK_SRC 12) CLK_SRC_CUR && pllLocked s

/-- A rate and a width that a link may have. -/
def linkShape (speed width : Nat) : Bool := 1 ≤ speed && speed ≤ 5 && [1, 2, 4, 8].contains width

/-- The link trains at most to the limits in force (R44, R513). -/
def linkTrain (s : State) (speed width : Nat) : State :=
  if !pcieClocked s || !linkShape speed width then s
  else
    let sp := min speed (min s.hostFn.maxSpeed.toNat s.hostFn.target.toNat)
    let w := min width s.hostFn.maxWidth.toNat
    let s := setHf s { s.hostFn with l1 := false, away := false }
    pcieEvent (setF (setF (setFlag s HB_LINK HB_LINK_UP true) HB_LINK HB_LINK_WIDTH w) HB_LINK HB_LINK_SPEED sp)

/-- The parts of the function that configuration space holds return to their reset values; the limits and AER's status,
which is sticky, stay (R519). -/
def configReset (h : HostFn) : HostFn :=
  { h with memEn := false, msixEn := false, funcMask := false, bars := [], table := [], pba := 0 }

/-- The PCIE domain is reset (R512, R554): link, configuration, MSI-X, the bridge's registers but FLRS, response FIFO,
frame assembler, the host's requests that are held; a running drain copy ends (R252). -/
def pcieReset (s : State) : State :=
  let flrs := getF s HB_LINK HB_LINK_FLRS
  let down := flag s HB_LINK HB_LINK_UP
  let s := setF (resetRegs s HB_LINK (HB_LINK + 0x1000)) HB_LINK HB_LINK_FLRS flrs
  let s := setHf s { maxSpeed := s.hostFn.maxSpeed, maxWidth := s.hostFn.maxWidth, target := s.hostFn.maxSpeed }
  let s := setMbx s { s.mbx with asm := [], rsp := [] }
  let s := drainStop { s with lat := { s.lat with held := [] } }
  if down then pcieEvent s else s

/-- PERST# or a hot reset (R554). -/
def perst (s : State) (t : Torn) : State := if domOn s 12 then pcieReset (tornBurst s 36 t) else s

/-- PERST# is deasserted (R512): the link trains; a sleeping domain is woken (R484). -/
def perstOff (s : State) (speed width : Nat) : State :=
  if !domOn s 12 then wakeRequest s 12 4
  else if !pcieClocked s || flag s HB_LINK HB_LINK_UP then s
  else linkTrain s speed width

/-- Function-level reset (R519). -/
def flr (s : State) (t : Torn) : State :=
  if !domOn s 12 || !flag s HB_LINK HB_LINK_UP then s
  else
    let s := tornBurst s 36 t
    let s := setHf s (configReset s.hostFn)
    let s := setFlag (setF s HB_LINK HB_LINK_DSTATE 0) HB_LINK HB_LINK_MSIXEN false
    let s := incWrap s HB_LINK HB_LINK_FLRS 1
    let s := setMbx s { s.mbx with asm := [], rsp := [] }
    srcEvent { s with lat := { s.lat with held := [] } } 98

/-- Send every message whose PBA bit is set and whose vector may be sent (R518). -/
def msixFlush (s : State) : State :=
  if !s.hostFn.msixEn || s.hostFn.funcMask || getF s HB_LINK HB_LINK_DSTATE = 3 then s
  else
    (List.range 64).foldl (fun s v =>
      if s.hostFn.pba.getLsbD v && !vectorMasked s v then msixSend (setPba s v false) v else s) s

/-- A write of word i of the MSI-X table. -/
def msixWrite (s : State) (i : Nat) (w : Word) : State :=
  let t := tset (fun i => if i % 4 = 3 then 1 else 0) s.hostFn.table i w
  msixFlush (setHf s { s.hostFn with table := t })

/-- Bits of a base address register that read as the register is made (R511, PRESUMED: the PCI form). -/
def barMask (i : Nat) : Word × Word :=
  match i with
  | 0 => (0xF0000000, 4)
  | 2 => (0xFFF00000, 4)
  | 4 => (0xFC000000, 0xC)
  | 1 | 3 | 5 => (0xFFFFFFFF, 0)
  | _ => (0, 0)

/-- A read of configuration space: R510, the BARs, Interrupt Pin 0 (R509); the rest is a value that the spec leaves open. -/
def configRead (s : State) (off : Nat) : Word × State :=
  if off / 4 = 0 ∨ off / 4 = 11 then (0x72641E6B, s)
  else if off / 4 = 2 then (0x120000B1, s)
  else if 4 ≤ off / 4 && off / 4 < 10 then
    let i := off / 4 - 4
    ((tget (fun _ => 0) s.hostFn.bars i &&& (barMask i).1) ||| (barMask i).2, s)
  else
    let (w, s) := drawFree s
    (if off / 4 = 15 then BitVec.ofNat 32 (bitsPut w.toNat 15 8 0) else w, s)

/-- A dword of a capability, where PCI Express places its fields (R509, R513, PRESUMED, log entry 90); the other fields are left
open. -/
def capRead (s : State) (c : CapWord) : Word × State :=
  let h := s.hostFn
  match c with
  | .serialLow => (reg s MOD_SERIAL0, s)
  | .serialHigh => (reg s MOD_SERIAL1, s)
  | .linkCap => let (w, s) := drawFree s; (BitVec.ofNat 32 (bitsPut w.toNat 9 0 (h.maxSpeed.toNat + 16 * h.maxWidth.toNat)), s)
  | .linkControl2 => let (w, s) := drawFree s; (BitVec.ofNat 32 (bitsPut w.toNat 3 0 h.target.toNat), s)
  | .uncorrectable => (h.uncorr, s)
  | .correctable => (h.corr, s)

/-- Ones written to error status clear it. -/
def capClear (h : HostFn) (c : CapWord) (v : Word) : HostFn :=
  match c with
  | .uncorrectable => { h with uncorr := h.uncorr &&& ~~~ v }
  | .correctable => { h with corr := h.corr &&& ~~~ v }
  | .serialLow | .serialHigh | .linkCap | .linkControl2 => h

/-- AER reports a Completer Abort: its uncorrectable status bit, and that of an advisory non-fatal error (R509, R515, PRESUMED, log
entry 90). -/
def aerAbort (s : State) : State :=
  setHf s { s.hostFn with uncorr := s.hostFn.uncorr ||| 0x8000, corr := s.hostFn.corr ||| 0x2000 }

/-- A configuration request (R512): one before the bridge's ROM check has ended gets retry status; another comes after it. -/
def configRequest (s : State) (r : CfgReq) : State :=
  if !domOn s 12 || !flag s HB_LINK HB_LINK_UP then s
  else if r = .early then (if s.hostFn.served then s else { s with rstat := 1 })
  else
    let s := setHf { s with rstat := 0 } { s.hostFn with served := true }
    let h := s.hostFn
    match r with
    | .early => s
    | .read off => let (w, s) := configRead s off.toNat; { s with rdata := w }
    | .capability c => let (w, s) := capRead s c; { s with rdata := w }
    | .clear c v => setHf s (capClear h c v)
    | .memory en => setHf s { h with memEn := en }
    | .msix en mask => msixFlush (setFlag (setHf s { h with msixEn := en, funcMask := mask }) HB_LINK HB_LINK_MSIXEN en)
    | .power d3 => msixFlush (setF s HB_LINK HB_LINK_DSTATE (if d3 then 3 else 0))
    | .bar i v => setHf s { h with bars := tset (fun _ => 0) h.bars i.toNat v }
    | .target v => setHf s { h with target := v }

/-- A change of the link's state (R513). -/
def linkChange (s : State) (c : LinkChange) : State :=
  let up := flag s HB_LINK HB_LINK_UP
  match c with
  | .train sp w => linkTrain s sp.toNat w.toNat
  | .recover sp w => if up then linkTrain s sp.toNat w.toNat else s
  | .enterL1 => if up && !s.hostFn.l1 then pcieEvent (setHf s { s.hostFn with l1 := true }) else s
  | .leaveL1 => if up && s.hostFn.l1 then pcieEvent (setHf s { s.hostFn with l1 := false }) else s
  | .down => linkDown s
  | .away => if pcieClocked s then let s := linkDown s; setHf s { s.hostFn with away := true } else s

/-- The PCIE bridge loses its reference: the link goes down (R496, R508). -/
def pcieLinkSync (s : State) : State := if pcieClocked s then s else linkDown s

/-! ### Messages and time (R517, R530, R531) -/

/-- A write of HB_MSIGEN. -/
def msiGen (s : State) (w : Word) : State :=
  let v := w.toNat % 64
  if v < 4 then hbErr s HB_ERR_MSIDROP else msixCause s v

/-- A PTM dialogue completes with the master time. -/
def ptmDialogue (s : State) (time : BitVec 64) : State :=
  if !domOn s 12 || !flag s HB_LINK HB_LINK_UP then s
  else emit (setHf s { s.hostFn with ptmTime := time, ptmSec := s.rtc.sec.setWidth 32, ptmSub := s.rtc.sub }) .ptm

/-- A read of HB_PTMLO latches the rest of the dialogue. -/
def ptmRead (s : State) : Word × State :=
  let h := s.hostFn
  let s := setReg s HB_PTMHI ((h.ptmTime >>> 32).setWidth 32)
  let s := setReg s HB_PTMSEC h.ptmSec
  (h.ptmTime.setWidth 32, setReg s HB_PTMSUB (h.ptmSub.setWidth 32))

/-! ### Doorbell (R520) and drain window (R516) -/

/-- A write of DOORBELL. -/
def doorbell (s : State) (w : Word) : State :=
  if w.toNat / 2 ^ 8 = 0x504400 && (w.toNat % 256 = 1 || w.toNat % 256 = 2) then
    srcEvent (if w.toNat % 256 = 1 then stopIntake s 0 else resumeIntake s 0) 97
  else hbErr s HB_ERR_DOORBELL

/-- What a read of DOORBELL returns: the stop bits. -/
def doorbellRead (s : State) : Word := reg s MOD_STOP &&& 7

/-! ### Frames (R521, R522, R524) -/

/-- CODEs of R526. -/
def commandCodes : List Nat := [0x01, 0x02, 0x03, 0x10, 0x11, 0x12, 0x20, 0x21, 0x22, 0x23, 0x24, 0x25]

/-- A CODE allowed in safe halt. -/
def haltAllowed (c : Nat) : Bool := [0x01, 0x02, 0x11, 0x12].contains c

/-- The checks of R525 before a command's own: HALTED, NOTREADY, BADCODE. -/
def commandCheck (s : State) (c : Nat) : Option Nat :=
  if safeHalt s && !haltAllowed c then some 4
  else if !flag s MOD_STATUS MOD_STATUS_READY && c != 1 && c != 2 then some 5
  else if !commandCodes.contains c then some 1
  else none

/-- The front frame is answered with a status and leaves the queue. -/
def answer (s : State) (status : Nat) (results : List Word) : State :=
  match s.mbx.queue with
  | [] => s
  | f :: r => respond (setMbx s { s.mbx with queue := r, owed := 0, results := [] }) f status results

/-- Frames whose CODE is none of the command set are answered as they reach the front; at most n. -/
def sweepFrames : Nat → State → State
  | 0, s => s
  | n + 1, s =>
    match s.mbx.queue with
    | [] => s
    | f :: _ =>
      if s.mbx.owed != 0 || commandCodes.contains f.code.toNat then s
      else sweepFrames n (answer s ((commandCheck s f.code.toNat).getD 1) [])

/-- A frame has passed its CRC. -/
def acceptFrame (s : State) (f : Frame) : State :=
  let s := srcEvent s 96
  if 8 ≤ s.mbx.queue.length then respond s f 8 [] else setMbx s { s.mbx with queue := s.mbx.queue ++ [f] }

/-- A whole frame: its CRC is checked. -/
def frameDone (s : State) (l : List Word) : State :=
  let n := l.length - 1
  let s := setMbx s { s.mbx with asm := [] }
  if crc32 (ofWords (l.take n)) = l.getD n 0 then
    let h := (l.getD 0 0).toNat
    acceptFrame s { code := BitVec.ofNat 8 (h / 256), tag := BitVec.ofNat 8 h, args := (l.take n).drop 2 }
  else incSat s HB_MBXCNT HB_MBXCNT_CRCERR 1

/-- A word reaches the frame assembler. -/
def frameWord (s : State) (w : Word) : State :=
  match s.mbx.asm with
  | [] => if w.toNat / 2 ^ 16 = 0x5342 then setMbx s { s.mbx with asm := [w] } else s
  | [h] =>
    if 256 < w.toNat then incSat (setMbx s { s.mbx with asm := [] }) HB_MBXCNT HB_MBXCNT_BADHDR 1
    else setMbx s { s.mbx with asm := [h, w] }
  | l =>
    let l := l ++ [w]
    if l.length = (l.getD 1 0).toNat + 3 then frameDone s l else setMbx s { s.mbx with asm := l }

/-- A write of MBX_CMD: four full bytes, or discarded and counted. -/
def mbxCmd (s : State) (w : Word) (be : BitVec 4) : State :=
  if be = 15 then frameWord s w else hbErr s HB_ERR_PARTIAL

/-- Bytes arrive at SVC_RX. -/
def uartBytes : List Byte → State → State
  | [], s => s
  | b :: r, s =>
    let l := s.mbx.uart ++ [b]
    if l.length = 4 then uartBytes r (frameWord (setMbx s { s.mbx with uart := [] }) (BitVec.ofNat 32 (leNat l)))
    else uartBytes r (setMbx s { s.mbx with uart := l })

/-- The gap of 100 ms: an incomplete frame and a part-received word are discarded. -/
def frameGap (s : State) : State :=
  let s := if s.mbx.asm.isEmpty then s else incSat s HB_MBXCNT HB_MBXCNT_ABANDON 1
  setMbx s { s.mbx with asm := [], uart := [] }

/-- A read of MBX_RSP. -/
def mbxRsp (s : State) : Word × State :=
  match s.mbx.rsp with
  | [] => (0, s)
  | w :: r => (w, setMbx s { s.mbx with rsp := r })

/-- MBX_STATUS. -/
def mbxStatus (s : State) : Word := BitVec.ofNat 32 (s.mbx.queue.length * 4096 + s.mbx.rsp.length)

/-- A write into the mailbox window (R511, R518, R520). DESIGN CHOICE (log entry 75): DOORBELL and the MSI-X table take whole
dwords alone, as MBX_CMD does. -/
def windowWrite (s : State) (off : Nat) (w : Word) (be : BitVec 4) : State :=
  let table := 0x80000 ≤ off && off < 0x80400
  if off = 0 then mbxCmd s w be
  else if off != 0x1000 && !table then s
  else if be != 15 then hbErr s HB_ERR_PARTIAL
  else if table then msixWrite s ((off - 0x80000) / 4) w
  else doorbell s w

/-- A read of the mailbox window. -/
def windowRead (s : State) (off : Nat) : Word × State :=
  if off = 4 then mbxRsp s
  else if off = 8 then (mbxStatus s, s)
  else if off = 0x1000 then (doorbellRead s, s)
  else if 0x80000 ≤ off && off < 0x80400 then (msixWord s ((off - 0x80000) / 4), s)
  else if off = 0x80800 then (s.hostFn.pba.setWidth 32, s)
  else if off = 0x80804 then ((s.hostFn.pba >>> 32).setWidth 32, s)
  else (0, s)

/-! ### Commands (R525, R526) -/

/-- Execute the frame at the front when it carries this CODE and nothing executes: the checks that come first, then the
command. -/
def onFront (s : State) (code : Nat) (k : State → List Word → State) : State :=
  match s.mbx.queue with
  | [] => s
  | f :: _ =>
    if f.code.toNat != code || s.mbx.owed != 0 then s
    else
      match commandCheck s code with
      | some e => answer s e []
      | none => k s f.args

/-- The front command waits for n records before it is answered with these results; with none it is answered now. -/
def awaitRecords (s : State) (n : Nat) (results : List Word) : State :=
  if n = 0 then answer s 0 results else setMbx s { s.mbx with owed := n, results := results }

def cmdNop (s : State) (a : List Word) : State := answer s 0 a

/-- The six registers of STATUS. -/
def statusWords (s : State) : List Word :=
  [reg s MOD_STATUS, reg s WV_STATUS, reg s SUP_STATUS, reg s LED_DURSEQLO, reg s LED_DURSEQHI, reg s WS_INFLIGHT]

def cmdStatus (s : State) (a : List Word) : State :=
  if a.isEmpty then answer s 0 (statusWords s) else answer s 2 []

/-! ### Keys (R384, R528, R586, R587) -/

/-- Bytes of the key in slot k. -/
def keyBytes (k : Nat) : Nat := if k = 0 || k = 3 then 48 else 32

/-- The check value of a key (R384). -/
def checkValue (k : Nat) (key : List Byte) : List Byte :=
  if k = 0 then sha256 (p384Public (beNat key)) else sha256 ([0x53, 0x42, 0x4B, 0x43] ++ key)

/-- The KEYLOAD record. -/
def keyloadBody (k : Nat) (version : Word) (check : List Byte) : Body :=
  { type := 0x8007, source := 0xE001,
    payload := [BitVec.ofNat 8 k, 0, 0, 0] ++ leBytes 4 version.toNat ++ padTo 32 check }

/-- KEYLOST clears when all four slots are present. -/
def keylostSync (s : State) : State :=
  if getF s TMP_KEYPRES TMP_KEYPRES_PRES = 15 then mirrorSync (setFlag s TMP_STATUS TMP_STATUS_KEYLOST false) else s

/-- Store a key. -/
def storeKey (s : State) (k : Nat) (version : Word) (key : List Byte) : State :=
  let s := setKey s k { key := key, crc := keyCrc key version }
  let s := if k = 3 then setDrw s { s.drw with due := true } else s
  drawSync (keylostSync (setReg (setKeyPresent s k true) (TMP_KEYVER k) version))

/-- The arguments of KEY_LOAD are in range. -/
def keyArgsOk (a : List Word) : Bool :=
  let k := (a.getD 0 0).toNat
  let key := ofWords (a.drop 2)
  k < 4 && a.length == 2 + keyBytes k / 4 && a.getD 1 0 != 0 && (k != 0 || (0 < beNat key && beNat key < p384N))

/-- Records can be written now. -/
def recordsGo (s : State) : Bool := ledgerAccepts s && domState s 3 != 2

def cmdKeyLoad (s : State) (a : List Word) : State :=
  let k := (a.getD 0 0).toNat
  let version := a.getD 1 0
  let key := ofWords (a.drop 2)
  if !keyArgsOk a then answer s 2 []
  else if keyPresent s k && version.toNat ≤ (keyVersion s k).toNat then answer s 7 []
  else if tamperPersists s || !islandUp s || !recordsGo s then answer s 3 []
  else
    let c := checkValue k key
    let s := awaitRecords (storeKey (heldAccess s 3) k version key) 1 (packLE c)
    acceptRecord s (keyloadBody k version c) .mailbox

/-- KEY_ZERO (R528): the named slots are cleared at once. DESIGN CHOICE (log entry 91): a ledger that takes no record gets none, and
the command is answered. -/
def cmdKeyZero (s : State) (a : List Word) : State :=
  let m := (a.getD 0 0).toNat
  let slots := (List.range 4).filter (fun k => m.testBit k)
  if a.length != 1 || 16 ≤ m then answer s 2 []
  else
    let s := drawSync (slots.foldl clearKey s)
    if safeHalt s || !recordsGo s then answer s 0 []
    else
      let s := awaitRecords (heldAccess s 3) slots.length []
      slots.foldl (fun s k => acceptRecord s (keyloadBody k 0 (List.replicate 32 0)) .mailbox) s

def cmdKeyInfo (s : State) (a : List Word) : State :=
  if !a.isEmpty then answer s 2 []
  else answer s 0 (BitVec.ofNat 32 (getF s TMP_KEYPRES TMP_KEYPRES_PRES) ::
    (List.range 4).map (fun k => if keyPresent s k then keyVersion s k else 0))

/-! ### Image updates (R568 to R573) -/

def updStage (s : State) : Nat := getF s UPD_STATUS UPD_STATUS_STAGE

def updTarget (s : State) : Nat := getF s UPD_STATUS UPD_STATUS_TARGET

/-- The stage changes: shared source 88. -/
def setStage (s : State) (n : Nat) : State :=
  if updStage s = n then s else srcEvent (setF s UPD_STATUS UPD_STATUS_STAGE n) 88

/-- The firmware slot that an update concerns: the one that is not ACT. -/
def updSlot (s : State) : Nat := if updTarget s = 0 then 1 - (readFwsel s).act else 0

/-- The UPDATE record of a transition; TRIES is 0 for a weave (R572). -/
def updRecord (s : State) (event detail tries : Nat) (hash : List Byte) (a : After) : State :=
  acceptRecord (heldAccess s 3)
    (updateBody event (updTarget s) detail (if updTarget s = 0 then tries else 0) (getF s UPD_LEN UPD_LEN_BYTES) hash (updSlot s)) a

def updLengthOk (target len : Nat) : Bool :=
  len % 16 == 0 && (if target = 0 then 0x400 ≤ len && len ≤ 0x400000 else 0x200 ≤ len && len ≤ 0x40000)

/-- TARGET names the profile that the card is running (R57). -/
def targetRuns (s : State) (target : Nat) : Bool :=
  4 ≤ target && getF s WV_STATUS WV_STATUS_STATE == 2 && target == 4 + getF s WV_STATUS WV_STATUS_PROFILE

def cmdUpdBegin (s : State) (a : List Word) : State :=
  let target := (a.getD 0 0).toNat
  let len := (a.getD 1 0).toNat
  if a.length != 2 || !([0, 4, 5, 6, 7].contains target) || !updLengthOk target len then answer s 2 []
  else if targetRuns s target then answer s 7 []
  else if updStage s != 0 then answer s 6 []
  else if !recordsGo s then answer s 3 []
  else
    let s := setF s UPD_STATUS UPD_STATUS_TARGET target
    let s := setF (setF s UPD_LEN UPD_LEN_BYTES len) UPD_RCVD UPD_RCVD_BYTES 0
    let s := { s with upd := { rprof := BitVec.ofNat 2 (getF s BOOT_CTL BOOT_CTL_NEXTPROF) } }
    answer (updRecord (setStage s 1) 1 0 (readFwsel s).tries [] .none) 0 []

def cmdUpdData (s : State) (a : List Word) : State :=
  let off := (a.getD 0 0).toNat
  let n := 4 * (a.length - 1)
  let got := getF s UPD_RCVD UPD_RCVD_BYTES
  if a.length < 2 || off != got || getF s UPD_LEN UPD_LEN_BYTES < got + n then answer s 2 []
  else if updStage s != 1 then answer s 6 []
  else if domState s 3 = 2 then answer s 3 []
  else
    let s := putMram (heldAccess s 3) (stagingAddr + off) (ofWords (a.drop 1))
    answer (setF s UPD_RCVD UPD_RCVD_BYTES (got + n)) 0 []

/-- The staging slot's check: its code and image (R568). -/
def checkStaging (s : State) : Nat × List Byte :=
  if updTarget s = 0 then
    let c := fwCheck s stagingAddr (some (getF s UPD_LEN UPD_LEN_BYTES))
    (c.error, c.img)
  else
    let c := weaveCheck10 s stagingAddr
    (c.error, c.img)

/-- UPD_VERIFY (R568, R570). DESIGN CHOICE (log entry 61): an image that fails sets UPD_STATUS.ERROR alone. -/
def cmdUpdVerify (s : State) (a : List Word) : State :=
  if !a.isEmpty then answer s 2 []
  else if updStage s != 1 || getF s UPD_RCVD UPD_RCVD_BYTES != getF s UPD_LEN UPD_LEN_BYTES then answer s 6 []
  else if !recordsGo s then answer s 3 []
  else
    let (e, img) := checkStaging s
    let s := setF s UPD_STATUS UPD_STATUS_ERROR e
    let tries := (readFwsel s).tries
    let s :=
      if e = 0 then
        let h := imageHash img
        updRecord (setStage { s with upd := { s.upd with hash := h } } 2) 2 0 tries h .none
      else updRecord (setStage s 0) 3 e tries [] .none
    answer s 0 [BitVec.ofNat 32 e]

/-- The booted image runs: triads start at step 5 of a boot as this one (R556). -/
def imageRuns (s : State) : Bool :=
  flag s BOOT_STATUS BOOT_STATUS_FWOK && getF s WV_STATUS WV_STATUS_STATE == 2 && !flag s BOOT_STATUS BOOT_STATUS_SELFTEST

/-- UPD_CONFIRM (R568), valid while the unconfirmed image runs. DESIGN CHOICE (log entry 75): BOOT_STATUS keeps what
FWSEL was after step 1. -/
def cmdUpdConfirm (s : State) (a : List Word) : State :=
  if !a.isEmpty then answer s 2 []
  else if updStage s != 4 || !imageRuns s then answer s 6 []
  else if !recordsGo s then answer s 3 []
  else
    let f := readFwsel s
    let s := writeFwsel (heldAccess s 3) { act := f.act, unconf := false, tries := 0, rprof := 0 }
    let b := bootedFw s
    let s := acceptRecord s (updateBody 6 0 0 0 b.length (hashRegs s FW_HASH) f.act) .none
    answer (setStage s 0) 0 []

def cmdUpdAbort (s : State) (a : List Word) : State :=
  if !a.isEmpty then answer s 2 []
  else if 3 ≤ updStage s then answer s 6 []
  else if updStage s = 0 then answer s 0 []
  else if !recordsGo s then answer s 3 []
  else answer (updRecord (setStage s 0) 8 0 (readFwsel s).tries [] .none) 0 []

/-! ### Boot control (R59) -/

/-- A write of BOOT_CTL; `writer` is 0 for the host and 1 for firmware. -/
def bootCtlWrite (s : State) (writer : Nat) (w : Word) : State :=
  let word (s : State) : Nat := bootctlOf (getF s BOOT_CTL BOOT_CTL_PINSEL) (getF s BOOT_CTL BOOT_CTL_NEXTPROF)
  let old := word s
  let s := setFlag (plainWrite s BOOT_CTL w) BOOT_CTL BOOT_CTL_PEND true
  acceptRecord (heldAccess s 3)
    { type := 0x8005, source := bootSource, payload := leBytes 4 old ++ leBytes 4 (word s) ++ [BitVec.ofNat 8 writer] } .none

/-- The boot control block holds the written value. -/
def bootCtlDurable (s : State) : State :=
  if !flag s BOOT_CTL BOOT_CTL_PEND then s
  else
    let s := putBcb s 0 (bootctlOf (getF s BOOT_CTL BOOT_CTL_PINSEL) (getF s BOOT_CTL BOOT_CTL_NEXTPROF))
    srcEvent (setFlag s BOOT_CTL BOOT_CTL_PEND false) 87

/-! ### Boot and controlled restart (R556, R58) -/

/-- What the host does while the card boots: READY is still 0 (R27, log entry 24). -/
def earlyReq (s : State) : EarlyReq → State
  | .perst speed width => perstOff s speed.toNat width.toNat
  | .config r => configRequest s r
  | .status => if hostReady s then { s with rdata := reg s MOD_STATUS, rstat := 0 } else s

/-- The boot sequence (R556). -/
def boot (s : State) (named : Option Nat) (st : SelfTest) (noise : List Byte) : State :=
  bootEnd (st.early.foldl earlyReq (bootSteps s named st noise))

/-- The release of the power-on reset (R55, R556); after a power-fail sequence the cause stays (R555). -/
def powerOnBoot (s : State) (psel : Nat) (st : SelfTest) (noise : List Byte) : State :=
  let cause := if getF s RST_CAUSE RST_CAUSE_CAUSE = 1 && getF s BOOT_STATUS BOOT_STATUS_STEP = 1 then 1 else 0
  let r := powerOnReset s cause
  let r := setF (setF r WV_PSEL WV_PSEL_SAMPLED psel) WV_PSEL WV_PSEL_LIVE psel
  boot { r with nPfail := true } none st noise

/-- The reset and the boot sequence of a controlled restart. -/
def restartBoot (s : State) (cause : Nat) (named : Option Nat) (st : SelfTest) (noise : List Byte) : State :=
  boot (restartReset s cause) named st noise

/-- Steps 1 to 4: intake stops, the uncommitted transactions abort, the records in progress are finished. -/
def restartQuiesce (s : State) : State :=
  let s := setStop s 2 true
  let s := tallyDrain (abortAll (setFlag s WS_STATUS WS_STATUS_STOPPED true) 4)
  finishNumbers s

/-- The argument of SWITCH_PROFILE is in range. -/
def switchArgsOk (a : List Word) : Bool :=
  let w := (a.getD 0 0).toNat
  a.length == 1 && w % 256 / 4 == 0 && w < 512

/-- The PROFILESWITCH record. -/
def switchBody (s : State) (n persist : Nat) : Body :=
  { type := 0x8004, source := bootSource,
    payload := [BitVec.ofNat 8 (getF s WV_STATUS WV_STATUS_PROFILE), BitVec.ofNat 8 n, BitVec.ofNat 8 persist] }

/-- Frames right behind the command that the engine reaches before READY falls: NOP and STATUS are executed, a second
SWITCH_PROFILE is refused with BUSY (R58, R526); at most n. -/
def earlyFrames : Nat → State → State
  | 0, s => s
  | n + 1, s =>
    match s.mbx.queue with
    | [] => s
    | f :: _ =>
      match f.code.toNat with
      | 1 => earlyFrames n (cmdNop s f.args)
      | 2 => earlyFrames n (cmdStatus s f.args)
      | 3 => earlyFrames n (answer s (if switchArgsOk f.args then 3 else 2) [])
      | _ => s

/-- Frames still queued when READY has fallen: only NOP and STATUS are executed (R527); at most n. -/
def drainFrames : Nat → State → State
  | 0, s => s
  | n + 1, s =>
    match s.mbx.queue with
    | [] => s
    | f :: _ =>
      let c := f.code.toNat
      drainFrames n (if c = 1 then cmdNop s f.args else if c = 2 then cmdStatus s f.args else answer s 5 [])

/-- Step 6 and the boot sequence, with the frames behind the command. -/
def restartFrom (s : State) (cause : Nat) (named : Option Nat) (st : SelfTest) (noise : List Byte) : State :=
  let s := earlyFrames s.mbx.queue.length (bootCtlDurable s)
  let s := setFlag s MOD_STATUS MOD_STATUS_READY false
  restartBoot (drainFrames s.mbx.queue.length (intakeUpdate s)) cause named st noise

/-- SWITCH_PROFILE's restart. -/
def switchProfile (s : State) (n : Nat) (persist : Bool) (st : SelfTest) (noise : List Byte) : State :=
  let s := restartQuiesce s
  let s := if updStage s = 1 || updStage s = 2 then updRecord (setStage s 0) 8 0 (readFwsel s).tries [] .none else s
  let s := bootCtlDurable (finishLedger (acceptRecord s (switchBody s n (b2n persist)) .none))
  let s := if persist then putBcb s 0 (bootctlOf (bcbWord s 0) n) else s
  restartFrom s 2 (some n) st noise

def cmdSwitchProfile (st : SelfTest) (noise : List Byte) (s : State) (a : List Word) : State :=
  let w := (a.getD 0 0).toNat
  if !switchArgsOk a then answer s 2 []
  else if 3 ≤ updStage s then answer s 3 []
  else switchProfile (answer s 0 []) (w % 4) (w.testBit 8) st noise

/-! ### Power failure (R374, R375, R555) -/

/-- The power-fail sequence, and the power-on reset that ends it. -/
def powerFail (s : State) : State :=
  if !s.nPfail then s else
  let s := runEvents 1000 (produce { s with nPfail := false } 161)
  let s := drainStop (setStop s 2 true)
  let s := takeCommits (qPkts s 0xFF300) s
  let s := drawPowerFail (qPkts s 0xFF400) s
  let s := bootCtlDurable (anchorDurable (finishLedger (voidRest s)))
  powerOnReset (setFlag s LED_STATUS LED_STATUS_PFAIL true) 1

/-! ### Activation (R570, R571, R574) -/

/-- The first n bytes of the staging slot, whole array words, are copied to an address. -/
def copyStaging (s : State) (dst n : Nat) : State := copyMem (setStage (heldAccess s 3) 3) stagingAddr dst (n / 8 * 8)

/-- UPD_ACTIVATE of a firmware image (R570). -/
def activateFw (s : State) (how : ActEnd) (st : SelfTest) (noise : List Byte) : State :=
  let f := readFwsel s
  let slot := 1 - f.act
  let dst := fwSlotAddr slot
  let copied := copyStaging s dst 0x400000
  let chosen := writeFwsel copied { act := slot, unconf := true, tries := 3, rprof := s.upd.rprof.toNat }
  let b := updateBody 4 0 0 3 (getF s UPD_LEN UPD_LEN_BYTES) s.upd.hash slot
  match how with
  | .failCopy n => powerFail (copyStaging s dst (min n.toNat 0x400000))
  | .differs => answer (updRecord (setStage copied 0) 3 4 f.tries [] .none) 0 []
  | .failLate record => powerFail (if record then acceptRecord (setStage chosen 4) b .none else chosen)
  | .good => restartFrom (answer (restartQuiesce (acceptRecord (setStage chosen 4) b .none)) 0 []) 3 none st noise

/-- UPD_ACTIVATE of a weave (R571). -/
def activateWv (s : State) (how : ActEnd) : State :=
  let dst := wvSlotAddr (updTarget s - 4)
  let copied := setStage (copyStaging s dst 0x40000) 0
  match how with
  | .failCopy n => powerFail (copyStaging s dst (min n.toNat 0x40000))
  | .differs => answer (updRecord copied 3 4 0 [] .none) 0 []
  | .failLate record => powerFail (if record then updRecord copied 4 0 0 s.upd.hash .none else copied)
  | .good => updRecord (awaitRecords copied 1 []) 4 0 0 s.upd.hash .mailbox

def cmdUpdActivate (how : ActEnd) (st : SelfTest) (noise : List Byte) (s : State) (a : List Word) : State :=
  if !a.isEmpty then answer s 2 []
  else if updStage s != 2 then answer s 6 []
  else if !recordsGo s then answer s 3 []
  else if updTarget s = 0 then activateFw s how st noise
  else activateWv s how

end Sys2Proof.Machine
end

