-- ==== Sys2Proof/Machine/Net.lean ====
section
/-!
DEFINITION. Network and serial intake (spec chapter 21): ports and modules, received frames (R536), the classifier's
pushes and peers, egress, the serial line.
-/

namespace Sys2Proof.Machine

/-- The router of the Ethernet DMA, master 37 (R236). -/
def ethRouter : Nat := masterRouter 37

def setNet (s : State) (n : Net) : State := { s with net := n }

/-! ### Ports (R532 to R535) -/

def ethGen (s : State) (p : Nat) : Nat := getF s (ETH_CFG p) ETH_CFG_GEN

/-- The domain of port p is ON, its clocks run and its SerDes have a reference (R533). -/
def portClocked (s : State) (p : Nat) : Bool :=
  clocked s (13 + p) && flag s (CLK_SRC (13 + p)) CLK_SRC_CUR && pllLocked s

/-- TX_DISABLE is driven high (R534). -/
def txDisabled (s : State) (p : Nat) : Bool :=
  ethGen s p == 0 || flag s (ETH_CTL p) ETH_CTL_TXOFF || flag s (ETH_STATUS p) ETH_STATUS_TXFAULT

/-- The link of port p is down, and nothing of it is locked (R533). -/
def portDown (s : State) (p : Nat) : State :=
  [ETH_STATUS_UP, ETH_STATUS_BLKLOCK, ETH_STATUS_FECLOCK].foldl (fun s f => setFlag s (ETH_STATUS p) f false) s

/-- Port p after a command: without a reference the link is down, and TX_DISABLE follows its conditions. -/
def portSync (s : State) (p : Nat) : State :=
  let s := if !portClocked s p || ethGen s p = 0 then portDown s p else s
  if domOn s (13 + p) then setFlag s (ETH_STATUS p) ETH_STATUS_TXDIS (txDisabled s p) else s

/-- The link of port p: lock of the PCS and of the FEC, and `ok` for auto-negotiation complete or hi_ber clear (R532). -/
def linkUpdate (s : State) (p : Nat) (blk fec ok los : Bool) : State :=
  if !domOn s (13 + p) then s
  else
    let g := ethGen s p
    let c := portClocked s p && g != 0
    let f := c && fec && (g == 3 || g == 4)
    let up := c && blk && (if g == 3 || g == 4 then fec else ok)
    let s := setFlag (setFlag s (ETH_STATUS p) ETH_STATUS_LOS los) (ETH_STATUS p) ETH_STATUS_BLKLOCK (c && blk)
    setFlag (setFlag s (ETH_STATUS p) ETH_STATUS_FECLOCK f) (ETH_STATUS p) ETH_STATUS_UP up

/-- TX_FAULT of the module takes a level. -/
def txFault (s : State) (p : Nat) (b : Bool) : State := setFlag s (ETH_STATUS p) ETH_STATUS_TXFAULT b

/-- MOD_ABS takes a level: a change is shared source 114 + 4p while the port is ON and clocked (R535, R491, R507). -/
def modAbs (s : State) (p : Nat) (b : Bool) : State :=
  if flag s (ETH_STATUS p) ETH_STATUS_MODABS = b then s
  else
    let s := setFlag s (ETH_STATUS p) ETH_STATUS_MODABS b
    if clocked s (13 + p) then srcEvent s (114 + 4 * p) else s

/-- A write of ETH_SFPCMD: GO starts a read of the bytes that COUNT names then. -/
def sfpWrite (s : State) (p : Nat) (w : Word) : State :=
  let s := plainWrite s (ETH_SFPCMD p) w
  if !w.getLsbD 31 || flag s (ETH_SFPCMD p) ETH_SFPCMD_BUSY then s
  else
    let s := setNet s { s.net with sfp := tset (fun _ => 0) s.net.sfp p (getF s (ETH_SFPCMD p) ETH_SFPCMD_COUNT + 1) }
    setFlag s (ETH_SFPCMD p) ETH_SFPCMD_BUSY true

/-- A module read ends with its bytes, or with none for a NAK; a port whose clock stands still ends none. -/
def sfpDone (s : State) (p : Nat) (data : Option Word) : State :=
  if !flag s (ETH_SFPCMD p) ETH_SFPCMD_BUSY || !clocked s (13 + p) then s
  else
    let s := setFlag s (ETH_SFPCMD p) ETH_SFPCMD_BUSY false
    match data, flag s (ETH_STATUS p) ETH_STATUS_MODABS with
    | some w, false =>
      setReg s (ETH_SFPDATA p) (BitVec.ofNat 32 (w.toNat % 2 ^ (8 * tget (fun _ => 0) s.net.sfp p)))
    | _, _ => setFlag (setReg s (ETH_SFPDATA p) 0) (ETH_SFPCMD p) ETH_SFPCMD_NAK true

/-! ### Bytes of addresses and checksums -/

/-- Station address, IPv4 and IPv6 address of port p, in transmission order. -/
def macBytes (s : State) (p : Nat) : List Byte := leBytes 4 (reg s (ETH_MACLO p)).toNat ++ leBytes 2 (reg s (ETH_MACHI p)).toNat

def ip4Bytes (s : State) (p : Nat) : List Byte := leBytes 4 (reg s (ETH_IPV4 p)).toNat

def ip6Bytes (s : State) (p : Nat) : List Byte := (List.range 4).flatMap (fun i => leBytes 4 (reg s (ETH_IPV6_ p i)).toNat)

/-- UDPP entry i of port p: its two bytes are in transmission order. -/
def udpPort (s : State) (p i : Nat) : Nat :=
  let w := (reg s (ETH_UDPP p (i / 2))).toNat
  if i % 2 = 0 then w % 65536 else w / 65536

def netf (s : State) (p i : Nat) : Bool := (getF s (ETH_CFG p) ETH_CFG_NETF).testBit i

/-- Sum of the 16-bit words of a byte string, the last one filled with zero. -/
def sum16 : List Byte → Nat
  | [] => 0
  | [a] => 256 * a.toNat
  | a :: b :: r => 256 * a.toNat + b.toNat + sum16 r

/-- The one's complement sum of 16-bit words. -/
def ones16 (l : List Byte) : Nat :=
  let fold (n : Nat) : Nat := n % 65536 + n / 65536
  fold (fold (fold (sum16 l)))

/-- The Internet checksum over bytes in which its own field is zero. -/
def inetSum (l : List Byte) : Nat := 65535 - ones16 l

/-- The checksum over bytes that hold it is correct. -/
def inetOk (l : List Byte) : Bool := ones16 l == 65535

/-- The pseudo-header of UDP. -/
def pseudo (src dst : List Byte) (len : Nat) : List Byte :=
  if src.length = 4 then src ++ dst ++ [0, 17] ++ beBytes 2 len
  else src ++ dst ++ beBytes 4 len ++ [0, 0, 0, 17]

/-! ### Received frames (R536) -/

/-- What R536 makes of a frame: a drop counted in a field of ETH_RXDROP0 or 1, a slow-path packet, a datagram. -/
inductive RxOut where
  | drop0 (f : Fld)
  | dgram (f : Fld)
  | slow (reason : Nat) (bytes : List Byte)
  | datagram (bytes src : List Byte) (sport lport : Nat)

/-- First index of the UDPP entry equal to a port. -/
def udppIndex (s : State) (p port : Nat) : Option Nat :=
  (List.range 4).find? (fun i => udpPort s p i == port && port != 0)

/-- Steps 7 and 8, on the payload of an IP packet from src to dst. -/
def rxUdp (s : State) (p : Nat) (src dst u : List Byte) : RxOut :=
  let len := beAt u 4 2
  match udppIndex s p (beAt u 2 2) with
  | none => .drop0 ETH_RXDROP0_UDP
  | some i =>
    if u.length < 8 || len < 8 || u.length < len || beAt u 6 2 = 0 || !inetOk (pseudo src dst len ++ u.take len) then
      .drop0 ETH_RXDROP0_UDP
    else
      let d := (u.take len).drop 8
      if datagramOk d then .datagram d src (beAt u 0 2) i else .dgram ETH_RXDROP1_DGRAM

/-- Step 5: an IPv4 packet `ip` that begins at offset `off` of the frame. -/
def rxIp4 (s : State) (p : Nat) (frame ip : List Byte) (off : Nat) : RxOut :=
  let total := beAt ip 2 2
  if ip.length < 20 || beAt ip 0 1 != 0x45 || !inetOk (ip.take 20) || total < 20 || ip.length < total ||
      beAt ip 6 2 % 0x4000 != 0 || span ip 16 4 != ip4Bytes s p then .drop0 ETH_RXDROP0_IP
  else
    let proto := beAt ip 9 1
    let body := (ip.take total).drop 20
    if proto = 1 && 1 ≤ body.length && beAt body 0 1 = 8 then .slow 2 (frame.take (off + total))
    else if proto = 17 then rxUdp s p (span ip 12 4) (span ip 16 4) body
    else .drop0 ETH_RXDROP0_IP

/-- Step 6. -/
def rxIp6 (s : State) (p : Nat) (frame ip : List Byte) (off : Nat) : RxOut :=
  let plen := beAt ip 4 2
  let own := ip6Bytes s p
  let dst := span ip 24 16
  let nodes : List Byte := [0xFF, 2] ++ List.replicate 13 0 ++ [1]
  let solicited : List Byte := [0xFF, 2] ++ List.replicate 9 0 ++ [1, 0xFF] ++ own.drop 13
  if ip.length < 40 || beAt ip 0 1 / 16 != 6 || ip.length < 40 + plen then .drop0 ETH_RXDROP0_IP
  else
    let body := (ip.take (40 + plen)).drop 40
    let t := beAt body 0 1
    if beAt ip 6 1 = 58 && 1 ≤ body.length && (t = 128 || (133 ≤ t && t ≤ 137)) &&
        (dst == own || dst == nodes || dst == solicited) then .slow 3 (frame.take (off + 40 + plen))
    else if beAt ip 6 1 = 17 && dst == own then rxUdp s p (span ip 8 16) dst body
    else .drop0 ETH_RXDROP0_IP

/-- The destination addresses that port p takes (step 2). -/
def dstOk (s : State) (p : Nat) (d : List Byte) : Bool :=
  d == macBytes s p || d == List.replicate 6 0xFF ||
    (netf s p 2 && (d == [0x33, 0x33, 0, 0, 0, 1] || d == [0x33, 0x33, 0xFF] ++ (ip6Bytes s p).drop 13))

/-- Steps 1 to 8 on a frame with its FCS. -/
def rxFrame (s : State) (p : Nat) (b : List Byte) : RxOut :=
  let n := b.length
  let f := b.take (n - 4)
  let tagged := beAt b 12 2 = 0x8100
  let off := if tagged then 18 else 14
  let et := beAt b (off - 2) 2
  let vid := beAt b 14 2 % 4096
  if n < 64 || (if tagged then 1522 else 1518) < n || (crc32 f).toNat != leNat (b.drop (n - 4)) then .drop0 ETH_RXDROP0_L2
  else if et = 0x8808 then .drop0 ETH_RXDROP0_L2
  else if !dstOk s p (b.take 6) then .drop0 ETH_RXDROP0_ADDR
  else if et = 0x8100 || (if netf s p 0 then !tagged || vid != getF s (ETH_CFG p) ETH_CFG_VID else tagged && vid != 0) then
    .drop0 ETH_RXDROP0_ADDR
  else if et = 0x0806 && netf s p 1 then .slow 1 (f.take (off + 28))
  else if et = 0x0800 && netf s p 1 then rxIp4 s p f (f.drop off) off
  else if et = 0x86DD && netf s p 2 then rxIp6 s p f (f.drop off) off
  else .drop0 ETH_RXDROP0_ADDR

/-! ### Pushes (R537, R540 to R543) -/

/-- A slow-path packet (R537). -/
def slowPacket (s : State) (p reason : Nat) (l : List Byte) : State :=
  pushPacket s ethRouter (0xFF500 + p) (BitVec.ofNat 32 (l.length + reason * 2 ^ 16) :: toWords (l.length / 4 + 1) l)

/-- The 100 µs window of this moment (log entry 18). -/
def windowNow (s : State) : Nat := s.slck * 625 / 2048

/-- Datagrams that port p has admitted in the window. -/
def admitted (s : State) (p : Nat) : Nat :=
  let (w, n) := tget (fun _ => (0, 0)) s.net.admitted p
  if w = windowNow s then n else 0

/-- RATE of port p; the serial port has no register for it. -/
def portRate (s : State) (p : Nat) : Nat := if p < 2 then getF s (ETH_THR p) ETH_THR_RATE else 0

/-- The gate of step 9. -/
inductive Gate where
  | open | stop | throttle
deriving DecidableEq, Repr

/-- Whether the gate admits a datagram, and the state that has counted it (R542). -/
def intakeGate (s : State) (p : Nat) : Gate × State :=
  if !intakeFit s || tget (fun _ => 0) s.net.stops p != 0 then (.stop, s)
  else if !s.lat.throttle then (.open, s)
  else if portRate s p ≤ admitted s p then (.throttle, s)
  else (.open, setNet s { s.net with admitted := tset (fun _ => (0, 0)) s.net.admitted p (windowNow s, admitted s p + 1) })

/-- A datagram of entry e is pushed whole into its session's queue (R541). -/
def pushDatagram (s : State) (e : Nat) (d : List Byte) : State :=
  pushPacket s ethRouter (sessionQueue s e (dgSession d)) (toWords (d.length / 4 + 1) d)

def recordPeer (s : State) (p e : Nat) (x : Peer) : State :=
  setNet s { s.net with peers := tset (fun _ => none) s.net.peers (256 * p + e) (some x) }

/-- The peer of a frame (R543). -/
def framePeer (b src : List Byte) (sport lport : Nat) : Peer :=
  { mac := BitVec.ofNat 48 (beAt b 6 6), v6 := src.length == 16, addr := BitVec.ofNat 128 (beNat src),
    rport := BitVec.ofNat 16 sport, lport := BitVec.ofNat 2 lport }

/-- Steps 9 to 11 for a datagram that port p received. -/
def ethDatagram (s : State) (p : Nat) (b d src : List Byte) (sport lport : Nat) : State :=
  match intakeGate s p with
  | (.stop, s) => incSat s (ETH_RXDROP1 p) ETH_RXDROP1_STOP 1
  | (.throttle, s) => incSat s (ETH_RXDROP1 p) ETH_RXDROP1_THROT 1
  | (.open, s) =>
    match classify s (dgSession d) with
    | none => incSat s (ETH_RXDROP1 p) ETH_RXDROP1_NOSESSION 1
    | some e =>
      let s := recordPeer (pushDatagram s e d) p e (framePeer b src sport lport)
      incSat s (ETH_RXOK p) ETH_RXOK_COUNT 1

/-- Port p receives a frame, its FCS included; `corr` and `uncorr` are what its FEC counted (R536). In safe
halt the MAC still receives, but the Ethernet DMA pushes nothing (R225). -/
def ethReceive (s : State) (p : Nat) (b : List Byte) (corr uncorr : Nat) : State :=
  if !flag s (ETH_STATUS p) ETH_STATUS_UP || !domOn s (13 + p) then s
  else
    let fec := ethGen s p = 3 || ethGen s p = 4
    let s := if fec then incSat (incSat s (ETH_FEC p) ETH_FEC_CORR corr) (ETH_FEC p) ETH_FEC_UNCORR uncorr else s
    match rxFrame s p b with
    | .drop0 f => incSat s (ETH_RXDROP0 p) f 1
    | .dgram f => incSat s (ETH_RXDROP1 p) f 1
    | .slow r l => if safeHalt s then s else incSat (slowPacket s p r l) (ETH_SLOW p) ETH_SLOW_PUSHED 1
    | .datagram d src sp lp => ethDatagram s p b d src sp lp

/-! ### Egress (R544 to R548) -/

/-- The Ethernet header to a peer, with the tag of R536 where the weave asks for one. -/
def ethHeader (s : State) (p : Nat) (dst : List Byte) (et : Nat) : List Byte :=
  dst ++ macBytes s p ++
    (if netf s p 0 then beBytes 2 0x8100 ++ beBytes 2 (getF s (ETH_CFG p) ETH_CFG_VID) else []) ++ beBytes 2 et

/-- The UDP packet of a datagram. -/
def udpPacket (src dst : List Byte) (sport dport : Nat) (d : List Byte) : List Byte :=
  let len := 8 + d.length
  let h := beBytes 2 sport ++ beBytes 2 dport ++ beBytes 2 len
  let c := inetSum (pseudo src dst len ++ h ++ [0, 0] ++ d)
  h ++ beBytes 2 (if c = 0 then 0xFFFF else c) ++ d

/-- The IPv4 packet that carries it. -/
def ip4Packet (id : Nat) (src dst u : List Byte) : List Byte :=
  let a := [0x45, 0] ++ beBytes 2 (20 + u.length) ++ beBytes 2 id ++ [0x40, 0, 64, 17]
  a ++ beBytes 2 (inetSum (a ++ [0, 0] ++ src ++ dst)) ++ src ++ dst ++ u

/-- The IPv6 packet that carries it. -/
def ip6Packet (src dst u : List Byte) : List Byte := [0x60, 0, 0, 0] ++ beBytes 2 u.length ++ [17, 64] ++ src ++ dst ++ u

/-- A frame filled to 60 bytes, with its FCS. -/
def withFcs (f : List Byte) : List Byte :=
  let f := f ++ List.replicate (60 - f.length) 0
  f ++ leBytes 4 (crc32 f).toNat

/-- Port p sends a datagram to a peer (R546). -/
def sendReceipt (s : State) (p : Nat) (x : Peer) (d : List Byte) : State :=
  let mac := beBytes 6 x.mac.toNat
  let sport := udpPort s p x.lport.toNat
  if x.v6 then
    let src := ip6Bytes s p
    let dst := beBytes 16 x.addr.toNat
    emit s (.ethFrame p (withFcs (ethHeader s p mac 0x86DD ++ ip6Packet src dst (udpPacket src dst sport x.rport.toNat d))))
  else
    let src := ip4Bytes s p
    let dst := beBytes 4 x.addr.toNat
    let id := tget (fun _ => 0) s.net.ids p
    let s := setNet s { s.net with ids := tset (fun _ => 0) s.net.ids p (id + 1) }
    emit s (.ethFrame p (withFcs (ethHeader s p mac 0x0800 ++ ip4Packet id.toNat src dst (udpPacket src dst sport x.rport.toNat d))))

/-- The serial port runs (R549). -/
def serRuns (s : State) : Bool :=
  flag s SER_CFG SER_CFG_EN && clocked s 15 && flag s (CLK_SRC 15) CLK_SRC_CUR && pllLocked s

/-- The LINKDOWN rule of R548. -/
def egressDown (s : State) (p : Nat) : Bool :=
  if p < 2 then !flag s (ETH_STATUS p) ETH_STATUS_UP || txDisabled s p else !serRuns s

/-- Count an outcome other than OK. -/
def egressErr (s : State) (p status : Nat) : State :=
  if 2 ≤ p then incSat s SER_DROP SER_DROP_TXBAD 1
  else
    match status with
    | 1 => incSat s (ETH_TXERR p) ETH_TXERR_NOPEER 1
    | 2 => incSat s (ETH_TXERR p) ETH_TXERR_NOSESSION 1
    | 3 => incSat s (ETH_TXERR p) ETH_TXERR_LINKDOWN 1
    | _ => incSat s (ETH_TXERR p) ETH_TXERR_BAD 1

/-- The result of a dispatch (R548). -/
def egressResult (s : State) (tid lo : Word) (status session : Nat) : State :=
  pushPacket s ethRouter 0xFF010
    [tid, withResult lo (if status = 0 then 0 else 2), BitVec.ofNat 32 (0x50000000 + status * 2 ^ 24 + session)]

/-- A dispatch ends with a status other than OK. -/
def egressFail (s : State) (p : Nat) (tid lo : Word) (status session : Nat) : State :=
  egressResult (egressErr s p status) tid lo status session

/-- The receipt packet meets check 3 of R545; the datagram's bytes. -/
def receiptOf (tid : Word) (k : Packet) : Option (List Byte) :=
  let b := ofWords (k.words.drop 1)
  if k.words.getD 0 0 = tid && headerOk 1 b && k.words.length = 1 + 8 + dgLength b / 4 + 4 then some b else none

/-- LINKDOWN, NOSESSION, NOPEER, or the frame is handed to the transmitter. -/
def egressSend (s : State) (p : Nat) (tid lo : Word) (d : List Byte) : State :=
  let v := dgSession d
  if egressDown s p then egressFail s p tid lo 3 v
  else
    match classify s v with
    | none => egressFail s p tid lo 2 v
    | some e =>
      if 2 ≤ p then egressResult (setNet s { s.net with sent := s.net.sent ++ [d] }) tid lo 0 v
      else
        match tget (fun _ => none) s.net.peers (256 * p + e) with
        | none => egressFail s p tid lo 1 v
        | some x => egressResult (incSat (sendReceipt s p x d) (ETH_TXOK p) ETH_TXOK_COUNT 1) tid lo 0 v

/-- Port p's egress may take a packet: its domain is ON, and the card is not in safe halt (R225). -/
def egressReady (s : State) (p : Nat) : Bool := p < 3 && domOn s (13 + p) && !safeHalt s && pktReady s ethRouter (0xFF510 + p)

/-- A packet whose frame finds the transmit buffer of SER full waits in its queue (R552). -/
def serRoom (old new : State) : State := if 16 < new.net.sent.length then old else new

/-- A packet of a length that is neither a dispatch nor a raw frame. -/
def oddLength (n : Nat) : Bool := n < 3 || 385 < n

/-- The packet at the front is discarded. -/
def egressDiscard (s : State) (p : Nat) (u : QueueUpset) : State := egressErr (popPacket s ethRouter (0xFF510 + p) u).2 p 5

/-- A dispatch packet that port p has popped; v is the upset that the pop of its receipt packet meets. -/
def egressTake (s : State) (p : Nat) (k : Packet) (v : QueueUpset) : State :=
  if k.words.isEmpty then s
  else if k.bad then egressErr s p 5
  else
    let tid := k.words.getD 0 0
    let lo := k.words.getD 1 0
    let w2 := (k.words.getD 2 0).toNat
    let (r, s) := if w2.testBit 20 then popPacket s ethRouter (w2 % 2 ^ 20) v else (packetOf [], s)
    if r.words.isEmpty then egressFail s p tid lo 4 0
    else if r.bad then egressFail s p tid lo 6 0
    else
      match receiptOf tid r with
      | none => egressFail s p tid lo 5 0
      | some d => egressSend s p tid lo d

/-- A weft dispatch (R544, R545); u and v are the upsets that its two pops meet. A pop that breaks the queue returns no packet. -/
def egressDispatch (s : State) (p : Nat) (u v : QueueUpset) : State :=
  if !egressReady s p then s
  else
    let n := peekLen s (0xFF510 + p)
    if oddLength n then egressDiscard s p u
    else if 15 < n then s
    else
      let (k, t) := popPacket s ethRouter (0xFF510 + p) u
      serRoom s (egressTake t p k v)

/-- A raw frame's bytes, when its count is in range (R547). -/
def rawBytes (p : Nat) (k : Packet) : Option (List Byte) :=
  let c := (k.words.getD 0 0).toNat
  let l := ofWords (k.words.drop 1)
  if k.bad || l.length < c || (if p < 2 then c < 60 || 1518 < c else 1072 < c) then none else some (l.take c)

/-- A raw frame packet that port p has popped. -/
def egressFrame (s : State) (p : Nat) (k : Packet) : State :=
  if k.words.isEmpty then s
  else
    match rawBytes p k with
    | none => egressErr s p 5
    | some b =>
      if egressDown s p then egressErr s p 3
      else if p < 2 then incSat (emit s (.ethFrame p (b ++ leBytes 4 (crc32 b).toNat))) (ETH_TXOK p) ETH_TXOK_COUNT 1
      else setNet s { s.net with sent := s.net.sent ++ [b] }

/-- A raw frame (R547). -/
def egressRaw (s : State) (p : Nat) (u : QueueUpset) : State :=
  if !egressReady s p then s
  else
    let n := peekLen s (0xFF510 + p)
    if oddLength n then egressDiscard s p u
    else if n < 16 then s
    else
      let (k, t) := popPacket s ethRouter (0xFF510 + p) u
      serRoom s (egressFrame t p k)

/-! ### The serial line (R549 to R552) -/

/-- The 16-bit FCS of ISO/IEC 13239. -/
def fcs16Bits : Nat → Nat → Nat
  | 0, c => c
  | n + 1, c => fcs16Bits n (if c % 2 = 1 then (c / 2) ^^^ 0x8408 else c / 2)

def fcs16 (l : List Byte) : Nat := (l.foldl (fun c b => fcs16Bits 8 (c ^^^ b.toNat)) 0xFFFF) ^^^ 0xFFFF

/-- The bits of bytes in their order on the line, least significant first. -/
def lineBits (l : List Byte) : List Bool := l.flatMap (fun b => (List.range 8).map (fun i => b.getLsbD i))

/-- The bits of bytes between flags: a 0 follows every five 1s; n counts the 1s before (R550). -/
def stuffed : Nat → List Bool → List Bool
  | _, [] => []
  | n, true :: r => if n = 4 then true :: false :: stuffed 0 r else true :: stuffed (n + 1) r
  | _, false :: r => false :: stuffed 0 r

/-- The flag 0x7E. -/
def lineFlag : List Bool := [false, true, true, true, true, true, true, false]

/-- The line's levels for bits, from the level before: a 0 is a transition (R549). -/
def nrziOut : Bool → List Bool → List Bool
  | _, [] => []
  | v, b :: r => (v == b) :: nrziOut (v == b) r

/-- The bits of the line's levels, from the level before. -/
def nrziIn : Bool → List Bool → List Bool
  | _, [] => []
  | v, b :: r => (v == b) :: nrziIn b r

/-- The line as the card drives it for frames, each between its flags; the idle line is a 1 (log entry 89). -/
def lineOf (l : List (List Byte)) : List Bool :=
  nrziOut true (l.flatMap (fun b => lineFlag ++ stuffed 0 (lineBits b) ++ lineFlag))

/-- What a receiver finds on the line: the bits of a frame between flags, 0s removed, or an aborted frame. -/
inductive LineItem where
  | frame (bits : List Bool)
  | abort
deriving DecidableEq, Repr

/-- The receiver: n 1s in succession, the bits since the last flag, newest first, none outside a frame. What the end of the
bits leaves open is aborted: the idle line is 1s. -/
def lineItems : Nat → Option (List Bool) → List Bool → List LineItem
  | n, cur, [] => if (cur.getD []).length ≤ n then [] else [.abort]
  | n, cur, true :: r =>
    if n = 6 then (if (cur.getD []).length ≤ 6 then [] else [.abort]) ++ lineItems 7 none r
    else lineItems (n + 1) (cur.map (true :: ·)) r
  | n, cur, false :: r =>
    if n = 6 then
      let b := (cur.getD []).drop 7
      (if b.isEmpty then [] else [.frame b.reverse]) ++ lineItems 0 (some []) r
    else if n = 5 then lineItems 0 cur r
    else lineItems 0 (cur.map (false :: ·)) r

/-- The bytes of bits, least significant first; at most n. -/
def lineBytes : Nat → List Bool → List Byte
  | 0, _ => []
  | _ + 1, [] => []
  | n + 1, l =>
    BitVec.ofNat 8 ((List.range 8).foldl (fun a i => a + b2n (l.getD i false) * 2 ^ i) 0) :: lineBytes n (l.drop 8)

/-- A frame that the card sends: TYPE, F, INFO. -/
def serFrameOf (s : State) (type : Nat) (f : Bool) (info : List Byte) : List Byte :=
  let b := [BitVec.ofNat 8 (getF s SER_CFG SER_CFG_ADR), BitVec.ofNat 8 (2 * type + b2n f)] ++ info
  b ++ leBytes 2 (fcs16 b)

/-- A poll is answered with BUSY: intake is stopped, as the port has it (R257), or throttled. -/
def serBusy (s : State) : Bool := !intakeFit s || tget (fun _ => 0) s.net.stops 2 != 0 || s.lat.throttle

/-- The frames for INFO fields of the transmit buffer, the last with F = 1. -/
def serFrames (s : State) : List (List Byte) → List (List Byte)
  | [] => []
  | [d] => [serFrameOf s 0 true d]
  | d :: r => serFrameOf s 0 false d :: serFrames s r

/-- The frames that answer a frame with P = 1 (R552). -/
def answerFrames (s : State) : List (List Byte) :=
  if s.net.sent.isEmpty then [serFrameOf s (if serBusy s then 2 else 1) true []] else serFrames s (s.net.sent.take 8)

/-- The answer to a frame with P = 1 (R552): the driver is enabled and the frames are sent; time that passes releases it. -/
def serAnswer (s : State) : State :=
  emit (setNet s { s.net with sent := s.net.sent.drop 8, driving := true }) (.serLine (lineOf (answerFrames s)))

/-- A DATA frame (R551). -/
def serData (s : State) (info : List Byte) : State :=
  if !datagramOk info then slowPacket s 2 4 info
  else
    match intakeGate s 2 with
    | (.stop, s) => incSat s SER_DROP SER_DROP_STOP 1
    | (.throttle, s) => incSat s SER_DROP SER_DROP_THROT 1
    | (.open, s) =>
      match classify s (dgSession info) with
      | none => incSat s SER_DROP SER_DROP_NOSESSION 1
      | some e => pushDatagram s e info

/-- A frame between two flags, from ADDR to its FCS (R550, R551). -/
def serFrameIn (s : State) (b : List Byte) : State :=
  let n := b.length
  let f := b.take (n - 2)
  let ctrl := beAt b 1 1
  let type := ctrl / 2 % 8
  if n < 4 || 1076 < n then srcEvent (incSat s SER_RX SER_RX_OTHER 1) 121
  else if fcs16 f != leNat (b.drop (n - 2)) then srcEvent (incSat s SER_RX SER_RX_FCSERR 1) 121
  else if 16 ≤ ctrl || 2 < type then incSat s SER_RX SER_RX_OTHER 1
  else if beAt b 0 1 != getF s SER_CFG SER_CFG_ADR then s
  else
    let s := incSat s SER_RX SER_RX_FRAMES 1
    let s := if type = 0 then serData s (f.drop 2) else s
    if ctrl % 2 = 1 then serAnswer s else s

/-- What the receiver finds on the line: an aborted frame, bits that are no whole bytes, which fail their FCS (log entry 89), or
a frame. -/
def serItem (s : State) (i : LineItem) : State :=
  match i with
  | .abort => srcEvent (incSat s SER_RX SER_RX_OTHER 1) 121
  | .frame l =>
    if l.length % 8 = 0 then serFrameIn s (lineBytes (l.length / 8) l) else srcEvent (incSat s SER_RX SER_RX_FCSERR 1) 121

/-- The line shows levels, while the card does not drive it (R549 to R551). In safe halt the Ethernet DMA pushes nothing (R225). -/
def serReceive (s : State) (line : List Bool) (before : Bool) : State :=
  if !serRuns s || safeHalt s then s else (lineItems 0 none (nrziIn before line)).foldl serItem (lineRelease s)

/-- SER_STATUS. -/
def serStatus (s : State) : Word :=
  BitVec.ofNat 32 (16 * min 15 s.net.sent.length + 8 * b2n (s.net.driving && serRuns s) + 4 * b2n (serBusy s) + b2n (serRuns s))

/-! ### Peer reads (R553) -/

/-- A word of bytes in transmission order, the lowest-offset byte in [7:0]. -/
def wireWord (l : List Byte) (i : Nat) : Word := BitVec.ofNat 32 (leAt l (4 * i) 4)

/-- A read of ETH_PEERST latches the selected entry. -/
def peerRead (s : State) (p : Nat) : Word × State :=
  match tget (fun _ => none) s.net.peers (256 * p + getF s (ETH_PEERSEL p) ETH_PEERSEL_ENTRY) with
  | none =>
    let s := setReg (setReg s (ETH_PEERMACLO p) 0) (ETH_PEERMACHI p) 0
    (0, (List.range 4).foldl (fun s i => setReg s (ETH_PEERIP p i) 0) s)
  | some x =>
    let mac := beBytes 6 x.mac.toNat
    let addr := if x.v6 then beBytes 16 x.addr.toNat else beBytes 4 x.addr.toNat
    let s := setReg (setReg s (ETH_PEERMACLO p) (wireWord mac 0)) (ETH_PEERMACHI p) (wireWord mac 1)
    let s := (List.range 4).foldl (fun s i => setReg s (ETH_PEERIP p i) (wireWord addr i)) s
    (BitVec.ofNat 32 (2 ^ 31 + b2n x.v6 * 2 ^ 30 + x.lport.toNat * 2 ^ 24 + x.rport.toNat), s)

end Sys2Proof.Machine
end

