-- ==== Sys2Proof/Machine/Pads.lean ====
section
/-!
DEFINITION. The low-speed pins of the card, as the boundary chain covers them (R605), and what the card drives on them: their
blocks' levels, the float of a domain that is not ON (R491), the 1149.1 instructions that take them over (R606).
Pins and cells by number (log entry 88): EV0 to EV7 0 to 7, with 8 to 15 the cells that enable their drivers; SVC_TX 16, SVC_RX 17;
the enable and the data of the SER driver 18 and 19; nPFAIL 20; PSEL0 and PSEL1 21 and 22; from 23 + 8p on TX_DISABLE, RATESEL0,
RATESEL1, SCL, SDA, MOD_ABS, LOS, TX_FAULT of cage p.
-/

namespace Sys2Proof.Machine

/-- The pins that the card may drive. -/
def outPads : List Nat := [0, 1, 2, 3, 4, 5, 6, 7, 16, 18, 20, 23, 24, 25, 26, 27, 31, 32, 33, 34, 35]

/-- The power domain of a pin (R476). -/
def padDomain (i : Nat) : Nat := if i < 18 then 17 else if i < 20 then 15 else if i < 23 then 0 else 13 + (i - 23) / 8

/-- The domain of a pin is ON: AON and SYS, and after the release of the power-on reset the others by their state. -/
def padOn (s : State) (i : Nat) : Bool :=
  padDomain i == 0 || (domOn s (padDomain i) && getF s BOOT_STATUS BOOT_STATUS_STEP != 1)

/-- What the block behind a pin drives (R466, R532, R534, R552, R618). SCL and SDA are driven only inside a module read. -/
def padBlock (s : State) (i : Nat) : Option Bool :=
  if i < 8 then (if evoMode s i = 0 then none else some (s.evf.pinOut.getLsbD i))
  else if i = 16 then some true
  else if i = 18 then (if s.net.driving && serRuns s then some true else none)
  else if i = 20 then some s.nPfail
  else if i < 23 then none
  else
    let p := (i - 23) / 8
    match (i - 23) % 8 with
    | 0 => some (txDisabled s p)
    | 1 => some ((rateSel (ethGen s p)).testBit 0)
    | 2 => some ((rateSel (ethGen s p)).testBit 1)
    | _ => none

/-- What the boundary register drives on a pin. -/
def padScan (b : BitVec 39) (i : Nat) : Option Bool :=
  let d := b.getLsbD i
  if i < 8 then (if b.getLsbD (8 + i) then some d else none)
  else if i = 18 then (if d then some (b.getLsbD 19) else none)
  else if 23 ≤ i && 3 ≤ (i - 23) % 8 then (if d then none else some false)
  else some d

/-- What the card drives on a pin: EXTEST and CLAMP drive it from the boundary register, HIGHZ floats it (R605, R606). -/
def padNow (s : State) (i : Nat) : Option Bool :=
  if !padOn s i then none
  else
    match s.aud.tap.ir.toNat with
    | 3 | 4 => padScan s.aud.tap.boundary i
    | 5 => none
    | _ => padBlock s i

/-- What a pin was put out at before anything changed it. -/
def padInit (i : Nat) : Option Bool := if i = 20 then some false else none

/-- A change of what the card drives on a pin shows. -/
def padSync (s : State) (i : Nat) : State :=
  let v := padNow s i
  if tget padInit s.pads i = v then s else emit { s with pads := tset padInit s.pads i v } (.pad i v)

/-- The pins follow their blocks when a command ends (log entry 88). -/
def padsSync (s : State) : State := outPads.foldl padSync s

/-- The level at the pin that a cell samples; `other` gives the cells of pins whose level the card does not hold (SVC_RX, the
data of SER, PSEL, SCL, SDA). -/
def cellNow (s : State) (other : BitVec 39) (i : Nat) : Bool :=
  if i < 8 then (if evoMode s i = 0 then s.evf.pinIn.getLsbD i else (padNow s i).getD (s.evf.pinIn.getLsbD i))
  else if i < 16 then evoMode s (i - 8) != 0
  else if i = 18 then s.net.driving && serRuns s
  else if 23 ≤ i && (i - 23) % 8 = 5 then flag s (ETH_STATUS ((i - 23) / 8)) ETH_STATUS_MODABS
  else if 23 ≤ i && (i - 23) % 8 = 6 then flag s (ETH_STATUS ((i - 23) / 8)) ETH_STATUS_LOS
  else if 23 ≤ i && (i - 23) % 8 = 7 then flag s (ETH_STATUS ((i - 23) / 8)) ETH_STATUS_TXFAULT
  else (padNow s i).getD (other.getLsbD i)

/-- What the boundary register captures. -/
def cellsNow (s : State) (other : BitVec 39) : BitVec 39 :=
  BitVec.ofNat 39 ((List.range 39).foldl (fun n i => n + b2n (cellNow s other i) * 2 ^ i) 0)

end Sys2Proof.Machine
end

