-- ==== Sys2Proof/Machine/Audit.lean ====
section
/-!
DEFINITION. The audit port, execution digests as it shows them, the trace FIFO, debug before sealing and the 1149.1 port
(spec chapter 24).
-/

namespace Sys2Proof.Machine

/-! ### The audit address map (R595, R598) -/

/-- Word i of 32-bit words in a 256-bit digest, the word with byte 0 first. -/
def xdWord (d : BitVec 256) (i : Nat) : Word := BitVec.ofNat 32 (d.toNat / 2 ^ (32 * (7 - i)))

/-- Word i of the digest block of triad t (R598). -/
def digestWord (s : State) (t i : Nat) : Word :=
  let d := getDigest s t
  if i = 0 then
    BitVec.ofNat 32 (d.epoch.toNat * 2 ^ 16 + b2n d.taint * 2 ^ 15 +
      b2n (traced s t && flag s AUD_TRCST AUD_TRCST_FULLRUN) * 2 ^ 14 + triadMode s t * 2 ^ 12)
  else if i = 1 then d.n.setWidth 32
  else if i = 2 then (d.n >>> 32).setWidth 32
  else if i < 11 then xdWord d.xd (i - 3)
  else if i = 11 then reg s (CLV_RCNTLO (clusterOf t) (t % 4))
  else if i = 12 then reg s (CLV_RCNTHI (clusterOf t) (t % 4))
  else if i = 13 then reg s (CLV_CHKLO (clusterOf t) (t % 4))
  else if i = 14 then reg s (CLV_CHKHI (clusterOf t) (t % 4))
  else 0

/-- The register at word i of the summary block (R595). -/
def summaryRegs : List Nat :=
  [ MOD_ID, MOD_REV, MOD_SERIAL0, MOD_SERIAL1, MOD_STATUS, SUP_STATUS, SUP_FLOGCNT, AUD_STATUS]

/-- The registers of the images block. -/
def imageRegs : List Nat :=
  (List.range 8).map WV_HASH ++ (List.range 8).map FW_HASH ++ [WV_STATUS, BOOT_STATUS] ++
    [WV_BUILD0, WV_BUILD1, FW_VERSION0, FW_VERSION1]

/-- The registers of the ledger head block. -/
def headRegs : List Nat := [LED_DURSEQLO, LED_DURSEQHI, LED_DURSLOT] ++ (List.range 8).map LED_HEADDIG

/-- The registers of the supervisor status block. -/
def supRegs : List Nat := (List.range 32).map SUP_TRIAD ++ (List.range 8).map SUP_CLUSTER

/-- The register that a list of them holds at word i; zero beyond its end. -/
def regOfList (s : State) (l : List Nat) (i : Nat) : Word :=
  match l[i]? with
  | some a => reg s a
  | none => 0

/-- The word at an audit address (R595); addresses that the map does not list read zero. -/
def auditWord (s : State) (a : Nat) : Word :=
  if a < 0x100 then regOfList s summaryRegs (a / 4)
  else if a < 0x200 then regOfList s imageRegs ((a - 0x100) / 4)
  else if a < 0x400 then regOfList s headRegs ((a - 0x200) / 4)
  else if a < 0x1000 then regOfList s supRegs ((a - 0x400) / 4)
  else if a < 0x1800 then digestWord s ((a - 0x1000) / 0x40) (a / 4 % 16)
  else if 0x10000 ≤ a && a < 0x14000 then
    BitVec.ofNat 32 ((tget (fun _ => 0) s.flog ((a - 0x10000) / 16)).toNat / 2 ^ (32 * (a / 4 % 4)))
  else 0

/-- `n` words from an audit address upwards. -/
def auditWords (s : State) : Nat → Nat → List Word
  | _, 0 => []
  | a, n + 1 => auditWord s (a % 2 ^ 24 / 4 * 4) :: auditWords s (a + 4) n

/-! ### Commands of the port (R592, R593, R600) -/

/-- The words that OPEN returns: the summary block, then zeros. -/
def openWords (s : State) (n : Nat) : List Word :=
  (auditWords s 0 8 ++ List.replicate n 0).take n

/-- OPEN, read for n words: it opens a session, and counts it, where none is open. -/
def auditOpen (s : State) (n : Nat) : State :=
  let s := if flag s AUD_STATUS AUD_STATUS_OPEN then s
    else setFlag (incWrap s AUD_STATUS AUD_STATUS_SESSIONS 1) AUD_STATUS AUD_STATUS_OPEN true
  emit s (.audit (openWords s n))

/-- The session ends: by CLOSE, or after 1 s without a rising edge of AUD_CS_N. -/
def auditEnd (s : State) : State := setFlag s AUD_STATUS AUD_STATUS_OPEN false

/-- READ of n words. -/
def auditRead (s : State) (a n : Nat) : State := emit s (.audit (auditWords s a n))

/-- A trace record as its sixteen bytes (R600). -/
def traceBytes (r : TraceRec) : List Byte :=
  leBytes 8 r.count.toNat ++ [r.kind, r.status, r.sub, 0] ++ leBytes 4 r.value.toNat

/-- A trace record as the four words that TRACE shifts out, byte 0 first. -/
def traceWords (r : TraceRec) : List Word :=
  (List.range 4).map (fun i => BitVec.ofNat 32 (beNat (((traceBytes r).drop (4 * i)).take 4)))

/-- An entry agreed for triad t that was held back may now be made: it is, when the command ends. -/
def releaseEntry (s : State) (t : Nat) : State := { s with aud := { s.aud with acc := true, release := some t } }

/-- The FIFO has room again: the traced triad's hold ends (R601). -/
def endHold (s : State) : State :=
  if flag s AUD_TRCST AUD_TRCST_HOLD then
    releaseEntry (setFlag s AUD_TRCST AUD_TRCST_HOLD false) (getF s AUD_TRCSEL AUD_TRCSEL_TRIAD)
  else s

/-- TRACE, read for n words: whole records leave the FIFO, zeros follow the last; the triad's hold ends with room. -/
def auditTrace (s : State) (n : Nat) : State :=
  let out := (s.aud.trace.flatMap traceWords ++ List.replicate n 0).take n
  let rest := s.aud.trace.drop (n / 4)
  let gone := rest.length < s.aud.trace.length
  let s := setF { s with aud := { s.aud with trace := rest } } AUD_TRCST AUD_TRCST_RECS rest.length
  emit (if gone then endHold s else s) (.audit out)

/-- A transfer on the port: the 32 bits of a command, its code above its argument, and n words read (R591, R592). -/
def auditCommand (s : State) (w : Word) (n : Nat) : State :=
  match w.toNat / 2 ^ 24 with
  | 1 => auditOpen s n
  | 2 => emit (auditEnd s) (.audit (List.replicate n 0))
  | 3 => auditRead s (w.toNat % 2 ^ 24) n
  | 4 => auditTrace s n
  | _ => emit s (.audit (List.replicate n 0))

/-- A write of AUD_TRCSEL (R601). -/
def trcselWrite (s : State) (v : Word) : State :=
  let was := flag s AUD_TRCSEL AUD_TRCSEL_EN
  let on := v.getLsbD 31
  let s := endHold s
  let s := setFlag s AUD_TRCSEL AUD_TRCSEL_EN on
  let s := if was then s else setF s AUD_TRCSEL AUD_TRCSEL_TRIAD (bitsOf v.toNat 4 0)
  if on then
    setFlag (setF { s with aud := { s.aud with trace := [] } } AUD_TRCST AUD_TRCST_RECS 0) AUD_TRCST
      AUD_TRCST_FULLRUN false
  else s

/-! ### Debug (R602 to R604) -/

/-- The debug functions act only before sealing. -/
def unsealed (s : State) : Bool := !flag s MOD_STATUS MOD_STATUS_SEALED

/-- HALT of triad t: the voter chooses the count after which it stops as it does for an interrupt, 64 past the highest, or
where the triad stands when it waits in ctl.wait (R189, R207, R603); during a rebuild the HALT waits for the end of it. -/
def debugHalt (s : State) (t : Nat) : State :=
  let x := getT s t
  if !triadLive s t || x.halted then s
  else if flag s (SUP_TRIAD t) SUP_TRIAD_PAUSED then setT s t { x with haltDue := true }
  else if x.waiting then haltTriad s t
  else setT s t { x with haltAt := some (x.haltAt.getD (x.rcount + 64)) }

/-- Halts that waited for the end of a rebuild. -/
def haltsDue (s : State) : State :=
  s.triads.foldl (fun s p =>
    if p.2.haltDue && unsealed s && !flag s (SUP_TRIAD p.1) SUP_TRIAD_PAUSED then
      debugHalt (setT s p.1 { getT s p.1 with haltDue := false }) p.1
    else s) s

/-- Release triad t, past the breakpoint if it stands at it; `one` for a single counted retirement. An entry whose count it stands
at is made when the command ends. -/
def debugRelease (s : State) (t : Nat) (one : Bool) : State :=
  let x := getT s t
  if x.halted then
    let s := setReg s DBG_STAT (reg s DBG_STAT &&& ~~~ BitVec.ofNat 32 (2 ^ t))
    releaseEntry (setT s t { x with halted := false, stepping := one,
                                    bptPass := getF s DBG_BPT DBG_BPT_PC * 2 == x.pc.toNat }) t
  else s

/-- A write of DBG_CTL. -/
def dbgCtlWrite (s : State) (v : Word) : State :=
  let t := bitsOf v.toNat 12 8
  let s := setF s DBG_CTL DBG_CTL_TRIAD t
  match bitsOf v.toNat 1 0 with
  | 1 => debugHalt s t
  | 2 => debugRelease s t true
  | 3 => debugRelease s t false
  | _ => s

/-- A write of DBG_BPT: EN written 1 arms it for the triad that DBG_CTL names. -/
def dbgBptWrite (s : State) (v : Word) : State :=
  let s := plainWrite s DBG_BPT v
  if v.getLsbD 0 then { s with aud := { s.aud with bptTriad := BitVec.ofNat 5 (getF s DBG_CTL DBG_CTL_TRIAD) } } else s

/-- A write of DBG_ACC: with GO it leaves the access to be made when the command ends (`acc`). -/
def dbgAccWrite (s : State) (v : Word) : State :=
  let s := plainWrite s DBG_ACC v
  if v.getLsbD 31 then setFlag { s with aud := { s.aud with acc := true, release := none } } DBG_ACC DBG_ACC_DONE false else s

/-- A write of a debug register; ignored on a sealed card. -/
def dbgWrite (s : State) (a : Nat) (v : Word) : State :=
  if !unsealed s then s
  else if a = DBG_CTL then dbgCtlWrite s v
  else if a = DBG_BPT then dbgBptWrite s v
  else if a = DBG_ACC then dbgAccWrite s v
  else plainWrite s a v

/-- A read of a debug register; zero on a sealed card. -/
def dbgRead (s : State) (a : Nat) : Word × State := if unsealed s then plainRead s a else (0, s)

/-- A write through DBG_ACC taints the triad's digest (R606). -/
def taintDigest (s : State) (t : Nat) : State := setDigest s t { getDigest s t with taint := true }

/-! ### The 1149.1 port (R605 to R607) -/

def setIr (s : State) (ir : Nat) : State :=
  { s with aud := { s.aud with tap := { s.aud.tap with ir := BitVec.ofNat 8 ir } } }

/-- BYPASS, by 0xFF or any code that the table does not list, which the model keeps as 0xFF (log entry 88), or a private
instruction that acts as BYPASS: its register captures 0. -/
def tapBypass (s : State) (ir : Nat) : State := emit (setIr s ir) (.tdo 0)

/-- TAP reset. -/
def tapReset (s : State) : State := setIr s 2

/-- IDCODE. -/
def tapIdcode (s : State) : State := emit (setIr s 2) (.tdo 0x172646D7)

/-- A scan of the boundary register under instruction `ir`: the sampled cells are shifted out, and `load` into it. -/
def tapScan (s : State) (ir : Nat) (other load : BitVec 39) : State :=
  let s := emit (setIr s ir) (.tdo (cellsNow s other).toNat)
  { s with aud := { s.aud with tap := { s.aud.tap with boundary := load } } }

/-- Selecting EXTEST, CLAMP or HIGHZ stops intake and sets the scan lock (R606). -/
def scanLock (s : State) : State := setStop (setFlag s MOD_STOP MOD_STOP_SCANLOCK true) 2 true

/-- EXTEST: the boundary register, loaded with the low half of `data`, drives the pins; the high half gives the pins whose level
the card does not hold. -/
def tapExtest (s : State) (data : BitVec 78) : State := tapScan (scanLock s) 3 (data.extractLsb' 39 39) (data.setWidth 39)

/-- KEYTAB: entry and 128 bytes; only an operator entry whose byte 0 is not 0xA5 is written. -/
def tapKeytab (s : State) (w : BitVec 1027) : State :=
  let e := w.toNat / 2 ^ 1024
  let a := 0x33110000 + 128 * e
  if !unsealed s then tapBypass s 0x11
  else if e < 4 || getByte s a = 0xA5 then setIr s 0x11
  else putMram (setIr s 0x11) a (leBytes 128 (w.toNat % 2 ^ 1024))

/-- SEAL. -/
def tapSeal (s : State) (v : Word) : State :=
  if !unsealed s then tapBypass s 0x12
  else
    let s := setIr s 0x12
    if v = 0x5EA17264 && reg s DBG_STAT = 0 then setFlag s MOD_STATUS MOD_STATUS_SEALED true else s

/-- DBGACC: a write or read of a debug register, by its offset from 0x400D_0000. -/
def tapDbgacc (s : State) (w : BitVec 48) : State :=
  let a := 0x400D0000 + bitsOf w.toNat 46 32
  let own := DBG_CTL ≤ a && a ≤ DBG_ACCVAL
  if !unsealed s then tapBypass s 0x10
  else
    let s := setIr s 0x10
    if w.getLsbD 47 then (if own then dbgWrite s a (w.setWidth 32) else s)
    else
      let (v, s) := if own then dbgRead s a else (0, s)
      emit s (.tdo v.toNat)

end Sys2Proof.Machine
end

