-- ==== Sys2Proof/Machine/Power.lean ====
section
/-!
DEFINITION. The power controller (spec chapter 18): votes, entry to and exit from RET and OFF, what a domain loses and
how it is reloaded, the cluster rails.
-/

namespace Sys2Proof.Machine

/-! ### Votes (R478, R479) -/

/-- Bits of SUP0 to SUP2 for domain d: a rebuild runs in that cluster, and the supervisor is not fenced. -/
def supVotes (s : State) (d : Nat) : Nat :=
  if 4 ≤ d && d < 12 && (List.range 4).any (fun j => flag s (SUP_TRIAD (4 * (d - 4) + j)) SUP_TRIAD_PAUSED) then
    b2n (supState s 0 == 0) + 2 * b2n (supState s 1 == 0) + 4 * b2n (supState s 2 == 0)
  else 0

/-- The ledger engine's bit. -/
def ledgerVote (s : State) (d : Nat) : Bool :=
  (d == 3 && (getF s LED_PEND LED_PEND_COUNT != 0 || flag s LED_STATUS LED_STATUS_ANCHORPEND ||
    flag s LED_STATUS LED_STATUS_SIGNING || flag s LED_DMACTL LED_DMACTL_BUSY)) ||
  (d == 12 && flag s LED_DMACTL LED_DMACTL_BUSY)

/-- Consumer inputs of the event fabric located in domain d. -/
def domainInputs (d : Nat) : List Nat :=
  if 4 ≤ d && d < 12 then (List.range 4).map (fun x => 32 + 4 * (d - 4) + x)
  else if d = 17 then (List.range 8).map (68 + ·)
  else if d = 16 then [76]
  else if d = 3 then [77]
  else if d = 2 then [78, 79]
  else []

def evfVote (s : State) (d : Nat) : Bool := (domainInputs d).any (fun i => getF s (EVF_SEL i) EVF_SEL_SEL != 0xFF)

/-- PD_VOTEBd as it stands: HOST, WAKE and BOOT as they were written, the other bits as the hardware has them. -/
def voteB (s : State) (d : Nat) : Nat :=
  bitsPut 0 0 0 (getF s (PD_VOTEB d) PD_VOTEB_HOST) + supVotes s d * 2 +
    b2n (13 ≤ d && d ≤ 15 && qWords s (0xFF510 + (d - 13)) != 0) * 2 ^ 4 +
    b2n ((d == 2 || d == 3) && getF s WS_INFLIGHT WS_INFLIGHT_COUNT != 0) * 2 ^ 5 +
    b2n (ledgerVote s d) * 2 ^ 6 + b2n (evfVote s d) * 2 ^ 7 +
    b2n (3 ≤ d && d ≤ 11 && flag s AUD_STATUS AUD_STATUS_OPEN) * 2 ^ 8 +
    getF s (PD_VOTEB d) PD_VOTEB_WAKE * 2 ^ 9 + getF s (PD_VOTEB d) PD_VOTEB_BOOT * 2 ^ 10 +
    b2n (d == 12 && (flag s HB_LINK HB_LINK_UP || s.hostFn.away)) * 2 ^ 11

/-- Every vote for domain d is 0. -/
def votesDown (s : State) (d : Nat) : Bool := reg s (PD_VOTEA d) == 0 && voteB s d == 0

/-- A write of PD_VOTEAd by master m (R478). -/
def voteAWrite (s : State) (m d : Nat) (w : Word) : State :=
  if m < 32 then setReg s (PD_VOTEA d) (BitVec.ofNat 32 (bitsPut (reg s (PD_VOTEA d)).toNat m m (b2n (w.getLsbD m))))
  else if m = 36 || m = 39 then setReg s (PD_VOTEA d) w
  else s

/-- A write of PD_VOTEBd by master m (R479). -/
def voteBWrite (s : State) (m d : Nat) (w : Word) : State :=
  let s := if m = 36 then setFlag s (PD_VOTEB d) PD_VOTEB_HOST (w.getLsbD 0) else s
  if m = 36 || (m < 32 && supervisor (getT s m)) then
    let s := if w.getLsbD 9 then setFlag s (PD_VOTEB d) PD_VOTEB_WAKE false else s
    if w.getLsbD 10 then setFlag s (PD_VOTEB d) PD_VOTEB_BOOT false else s
  else s

/-- PD_ONMAP; before the boot only AON and SYS show. -/
def onMap (s : State) : Word :=
  if getF s BOOT_STATUS BOOT_STATUS_STEP = 1 then 3
  else BitVec.ofNat 32 ((List.range 18).map (fun d => b2n (domOn s d) * 2 ^ d)).sum

/-! ### Entry conditions (R482) -/

/-- No live core of triad t runs. -/
def triadRests (s : State) (t : Nat) : Bool :=
  let x := getT s t
  !flag s (SUP_TRIAD t) SUP_TRIAD_EN || !triadLive s t ||
    (x.waiting && x.rebuild.isNone && x.voter.waiting.isEmpty && x.voter.owed.isEmpty)

/-- The condition of a domain's row. -/
def entryFree (s : State) (d : Nat) : Bool :=
  if 4 ≤ d && d < 12 then (List.range 4).all (fun j => triadRests s (4 * (d - 4) + j)) && (getJob s (d - 4)).isNone
  else if d = 3 then qWords s 0xFF200 == 0 && qWords s 0xFF300 == 0 && s.weft.msgs.isEmpty && s.led.resv.isEmpty &&
    s.led.queued.isEmpty && !flag s TLY_STATUS TLY_STATUS_LDBUSY && s.tly.parked.isEmpty
  else if d = 15 then !s.net.driving
  else if d = 16 then !monBusy s
  else if d = 17 then !pulsing s
  else true

/-- PD_STATUSd with PENDING as it stands. -/
def pdStatus (s : State) (d : Nat) : Word :=
  let p := domOn s d && getF s (PD_TARGET d) PD_TARGET_TARGET != 0 && votesDown s d && !entryFree s d
  BitVec.ofNat 32 (bitsPut (reg s (PD_STATUS d)).toNat 2 2 (b2n p))

/-! ### What a domain loses in OFF (R431, R487, R490) -/

/-- The register's value with only its LK fields kept. -/
def keepLk : List Fld → Nat → Nat
  | [], _ => 0
  | f :: r, w => bitsPut (keepLk r w) f.hi f.lo (if f.ty = .lk then bitsOf w f.hi f.lo else f.rst)

/-- Registers in [lo, hi) lose what they hold; the boot and update engine writes LK fields back (R487). -/
def loseRegs (s : State) (lo hi : Nat) : State :=
  (trange lo hi s.csr).foldl (fun s p =>
    match regRow? p.1 with
    | some r => setReg s p.1 (BitVec.ofNat 32 (keepLk r.flds p.2.toNat))
    | none => s) s

/-- The banks of cluster n return to their reset values (R431). -/
def banksLost (s : State) (n : Nat) : State :=
  { s with pic := { s.pic with banks := tclear (4 * n) (4 * n + 4) s.pic.banks } }

/-- A triad's cores lose everything but which of them are fenced. -/
def coresLost (s : State) (t : Nat) : State :=
  let x := getT s t
  let keep (p : Position) : Position := { masked := p.masked, resyncEnd := p.resyncEnd }
  wipe (setT s t { pos0 := keep x.pos0, pos1 := keep x.pos1, pos2 := keep x.pos2 }) (lsKey t 0) (lsKey t 0 + 0x20000)

/-- Cluster n in OFF (R489): CLV_STATUS keeps the cores that are fenced. -/
def clusterLost (s : State) (n : Nat) : State :=
  let base := 0x48000000 + 0x100000 * n
  let st := reg s (CLV_STATUS n)
  let s := loseRegs (groupLost s n) base (base + 0x100000)
  let s := setReg s (CLV_STATUS n) st
  let s := if flag s (PD_TARGET (4 + n)) PD_TARGET_WAKEMODE then s else banksLost s n
  let s := { s with clvLatch := tclear (4 * n) (4 * n + 4) s.clvLatch }
  (List.range 4).foldl (fun s j => coresLost s (4 * n + j)) (setJob s n none)

/-- The Ethernet and serial ports in OFF: counters, peers and buffers. -/
def portLost (s : State) (p : Nat) : State :=
  let a := if p < 2 then ETH_CTL p else SER_CFG
  let pins := getF s (ETH_STATUS p) ETH_STATUS_MODABS
  let los := getF s (ETH_STATUS p) ETH_STATUS_LOS
  let fault := getF s (ETH_STATUS p) ETH_STATUS_TXFAULT
  let s := loseRegs s a (a + 0x100000)
  let s := if p < 2 then
      setF (setF (setF s (ETH_STATUS p) ETH_STATUS_MODABS pins) (ETH_STATUS p) ETH_STATUS_LOS los)
        (ETH_STATUS p) ETH_STATUS_TXFAULT fault
    else s
  { s with net := { s.net with peers := tclear (256 * p) (256 * p + 256) s.net.peers, ids := tclear p (p + 1) s.net.ids,
                               sfp := tclear p (p + 1) s.net.sfp,
                               sent := if p = 2 then [] else s.net.sent } }

/-- Domain d loses its state. -/
def domainLost (s : State) (d : Nat) : State :=
  if d = 2 then { loseRegs s 0x41000000 0x41100000 with qe := {} }
  else if d = 3 then
    { loseRegs s 0x42000000 0x44100000 with weft := {}, tly := {}, led := {} }
  else if 4 ≤ d && d < 12 then clusterLost s (d - 4)
  else if d = 12 then pcieReset s
  else if d = 13 || d = 14 || d = 15 then portLost s (d - 13)
  else if d = 16 then { resetRegs s MON_CTL (MON_CTL + 0x10000) with mon := {} }
  else if d = 17 then
    let s := (List.range 8).foldl (fun s k => setReg s (EVF_EVOCTL k) (regRst (EVF_EVOCTL k))) s
    { s with evf := { s.evf with pinOut := 0, busy := tclear 68 76 s.evf.busy }, mbx := { s.mbx with uart := [] } }
  else s

/-! ### Entry (R477, R485) -/

/-- The AUXIO pins read 0 at the receivers from isolation on, without an edge (R490). -/
def pinsIsolated (s : State) : State :=
  { s with tmr := s.tmr.filterMap (fun p =>
      let x := if flag s (TMR_CAPCTL (p.1 / 8) (p.1 % 8)) TMR_CAPCTL_ICSRC then p.2 else { p.2 with ti := false }
      if x = {} then none else some (p.1, x)) }

/-- At the release of isolation each capture input has the level of its pin, without an edge (R490). -/
def pinsReleased (s : State) : State :=
  (List.range 72).foldl (fun s i =>
    let g := i / 8
    let c := i % 8
    if samples s g c then setCh s g c { getCh s g c with ti := pinLevel s (getF s (TMR_CAPCTL g c) TMR_CAPCTL_ICSEL) } else s) s

/-- The causes of a wake that domain d can meet (R484). -/
def wakeOk (d wake : Nat) : Bool :=
  wake ≤ 1 || (wake == 2 && 4 ≤ d && d < 12) || (wake == 3 && (d == 2 || d == 3)) || (wake == 4 && d == 12)

/-- Domain d may leave ON (R476, R477, R482); none does in safe halt, or once the supply has failed. -/
def mayEnter (s : State) (d : Nat) : Bool :=
  2 ≤ d && d < 18 && domOn s d && getF s (PD_TARGET d) PD_TARGET_TARGET != 0 && votesDown s d && entryFree s d &&
    !safeHalt s && s.nPfail

/-- Domain d enters the state in PD_TARGET: `wake` is 0, or the LASTWAKE code of a wake that arrived after step 1. The channels
of a cluster's timers stop in step 2, before its rail falls. -/
def domainEntry (s : State) (d wake : Nat) : State :=
  let target := getF s (PD_TARGET d) PD_TARGET_TARGET
  if !mayEnter s d || !wakeOk d wake then s
  else
    let s := if 4 ≤ d && d < 12 && target = 1 then groupSleep s (d - 4) else s
    let s := setF s (PD_STATUS d) PD_STATUS_STATE target
    let s := setFlag (incWrap s (PD_STATUS d) PD_STATUS_TRANS 1) (PD_STATUS d) PD_STATUS_WAKEQ (wake != 0)
    let s := clkLeave s d
    let s := if 4 ≤ d && d < 12 then setFlag s (PD_VCL (d - 4)) PD_VCL_RDY false else s
    let s := if d = 17 then pinsIsolated s else if d = 12 then linkDown s else s
    let s := if d = 13 || d = 14 then
        let s := portDown s (d - 13)
        { s with net := { s.net with peers := tclear (256 * (d - 13)) (256 * (d - 13) + 256) s.net.peers } }
      else s
    let s := if target = 2 then domainLost s d else s
    if wake = 0 then s
    else
      let s := if wake = 3 then incSat s PD_REFUSED PD_REFUSED_HELD 1 else s
      let s := if wake = 1 then s else setFlag s (PD_VOTEB d) PD_VOTEB_WAKE true
      { s with wakeCause := tset (fun _ => 0) s.wakeCause d wake }

/-! ### Exit (R484, R487, R489) -/

/-- A cluster starts again from OFF. -/
def clusterReload (s : State) (n : Nat) (reserveOk : Bool) : State :=
  let fw := bootedFw s
  let wv := loadedWv s
  let ts := (List.range 4).map (4 * n + ·)
  let s := if fw.isEmpty then s else ts.foldl (loadLocal fw) s
  let s := testReserve s n reserveOk
  if fw.isEmpty || wv.isEmpty then s
  else ts.foldl (fun s t =>
    if flag s (SUP_TRIAD t) SUP_TRIAD_EN && triadMode s t != 3 then startTriad fw wv s t else s) s

/-- LED from OFF: tallies as at the end of boot step 3, and the scan of the ring. -/
def ledReload (s : State) : State := (ledgerScan (loadTallies (sectBytes (loadedWv s) 0x11) s)).1

/-- The reload of domain d from OFF. -/
def domainReload (s : State) (d : Nat) (reserveOk : Bool) : State :=
  if d = 2 then setFlag (loadClasses (sectBytes (loadedWv s) 5) s) QE_STATUS QE_STATUS_LOADED true
  else if d = 3 then ledReload s
  else if 4 ≤ d && d < 12 then clusterReload s (d - 4) reserveOk
  else s

/-- A vote for a domain that is not ON asks for its return, even when it falls again before the exit starts (R477, R485). -/
def latchVote (s : State) (d : Nat) : State :=
  if domState s d = 0 || votesDown s d || tget (fun _ => 0) s.wakeCause d != 0 then s
  else { s with wakeCause := tset (fun _ => 0) s.wakeCause d 1 }

/-- Make-up of cluster n in step 3 of the exit from RET: isolation still holds every event line of the domain at 0 (R490), so no
event of it leaves the group. -/
def makeUpStep (s : State) (n : Nat) : State := { groupWake s n with evq := s.evq }

/-- Domain d returns to ON: a vote or a wake request asks for it. -/
def domainExit (s : State) (d : Nat) (reserveOk : Bool) : State :=
  let was := domState s d
  let cause := tget (fun _ => 0) s.wakeCause d
  if 18 ≤ d || was = 0 || (votesDown s d && cause = 0) then s
  else
    let s := { s with wakeCause := tset (fun _ => 0) s.wakeCause d 0 }
    let s := if was = 1 && 4 ≤ d && d < 12 then makeUpStep s (d - 4) else s
    let s := setF s (PD_STATUS d) PD_STATUS_STATE 0
    let s := setF s (PD_STATUS d) PD_STATUS_LASTWAKE (if cause = 0 then 1 else cause)
    let s := setFlag s (PD_STATUS d) PD_STATUS_WAKEQ false
    let s := if 4 ≤ d && d < 12 then setFlag s (PD_VCL (d - 4)) PD_VCL_RDY true else s
    let s := clkExit s d
    let s := if d = 17 then pinsReleased s else s
    let s := if was = 1 then s else domainReload (domainLost s d) d reserveOk
    if 13 ≤ d && d ≤ 15 then macLoad s (d - 13) else s

/-! ### Rails (R493) -/

/-- The rail of cluster n leaves its window while the domain is ON. -/
def railFault (s : State) (n : Nat) : State :=
  if !domOn s (4 + n) then s
  else stopCluster (logFault (setFlag s (PD_VCL n) PD_VCL_RAILFAULT true) .detect noElem noElem 0) n

end Sys2Proof.Machine
end

