-- ==== Sys2Proof/Machine/Settle.lean ====
section
/-!
DEFINITION. What the card does of itself before a command ends: events reach their consumers, level interrupt sources
follow their conditions (R406 to R408, R418), links and status bits follow what they depend on, domains are woken by
eligible sources (R432).
-/

namespace Sys2Proof.Machine

/-! ### Level sources -/

/-- Queue q holds a word, as a running QE shows it (R490). -/
def queueHolds (s : State) (qe : Bool) (q : Nat) : Bool := qe && qWords s q != 0

/-- R295 asserts QENOTE for triad t. -/
def noteAsserted (s : State) (qe : Bool) (t : Nat) : Bool :=
  qe && (trange 0xFFF00 0xFFFFF s.qe.desc).any (fun p => p.2.words != 0 &&
    (List.range 64).any (fun c => flag s (QE_COWN c) QE_COWN_VALID && getF s (QE_COWN c) QE_COWN_OWNER == t &&
      getF s (QE_COWN c) QE_COWN_NOTIFY + 0xFFF00 == p.1))

/-- Conditions of the private level sources 0 to 5 of triad t, as the low bits of a word (R407). -/
def privConditions (s : State) (qe : Bool) (t : Nat) : Nat :=
  b2n (noteAsserted s qe t) + 2 * b2n (queueHolds s qe (0xFF000 + getF s (SUP_TRIAD t) SUP_TRIAD_GROUP)) +
    4 * b2n (queueHolds s qe (0xFF140 + t)) + 8 * b2n (queueHolds s qe (0xFF240 + t)) +
    16 * b2n (queueHolds s qe (0xFF340 + t)) + 32 * b2n (queueHolds s qe (0xFF440 + t))

/-- A bank works: its cluster is ON, or its state is in retention registers (R432). -/
def bankWorks (s : State) (n : Nat) : Bool := domOn s (4 + n) || flag s (PD_TARGET (4 + n)) PD_TARGET_WAKEMODE

/-- Private level sources of triad t whose condition holds are pending unless active. -/
def privLevels (qe : Bool) (s : State) (t : Nat) : State :=
  if s.qe.desc.isEmpty || !bankWorks s (t / 4) then s
  else
    let b := getBank s t
    setBank s t { b with pend := b.pend ||| (BitVec.ofNat 32 (privConditions s qe t) &&& ~~~ b.act) }

/-- Shared level sources with the domain that asserts each and its condition (R408). -/
def sharedConditions (s : State) : List (Nat × Nat × Bool) :=
  let f (n d a : Nat) (x : Fld) : Nat × Nat × Bool := (n, d, flag s a x)
  let down (p : Nat) : Bool := ethGen s p != 0 && !flag s (ETH_STATUS p) ETH_STATUS_UP
  let qe := domOn s 2
  [f 4 1 SUP_STATUS SUP_STATUS_SAFEHALT, f 18 1 CS_ERRINFO CS_ERRINFO_VALID, f 32 2 QE_STATUS QE_STATUS_POOLLOW,
   f 33 2 QE_STATUS QE_STATUS_POOLEMPTY, f 48 3 WS_STATUS WS_STATUS_THROTTLE, f 49 3 WS_STATUS WS_STATUS_RINGWAIT,
   f 50 3 WS_STATUS WS_STATUS_STOPPED, f 51 3 TLY_STATUS TLY_STATUS_DEPFULL, f 64 3 LED_DMACTL LED_DMACTL_DONE,
   f 65 3 LED_DMACTL LED_DMACTL_ERR, f 66 3 LED_STATUS LED_STATUS_NOROOM, f 68 3 LED_STATUS LED_STATUS_PFAIL,
   (81, 1, getF s DRW_STATUS DRW_STATUS_SOURCE == 3), f 83 1 TMP_STATUS TMP_STATUS_BATGONE,
   (112, 13, down 0), (116, 14, down 1), (113, 2, queueHolds s qe 0xFF500), (117, 2, queueHolds s qe 0xFF501),
   (120, 2, queueHolds s qe 0xFF502)]

/-- Whether the condition of shared source n was seen to hold when the last command ended. -/
def levelSeen (s : State) (n : Nat) : Bool := tget (fun _ => false) s.pic.lvl n

/-- Domain d is ON and its clock, where it has one of its own, runs: a stopped block asserts nothing (R490, R507). -/
def asserts (s : State) (d : Nat) : Bool := if 12 ≤ d then clocked s d else domOn s d

/-- One shared level source: an assertion counts in its group; while the condition holds it is pending unless active. A domain
that is not ON asserts nothing, and its return is no assertion (R490). -/
def sharedLevel (s : State) (p : Nat × Nat × Bool) : State :=
  let n := p.1
  let live := asserts s p.2.1
  let on := p.2.2 && live
  let rise := on && !levelSeen s n
  let s := if live then { s with pic := { s.pic with lvl := tset (fun _ => false) s.pic.lvl n on } } else s
  if on && !bit512 s.pic.act n then
    if rise then pendShared s n else { s with pic := { s.pic with pend := setBit512 s.pic.pend n true } }
  else if rise then sourceFires s n
  else s

/-- Every level source follows its condition. -/
def levelSources (s : State) : State :=
  let s := (sharedConditions s).foldl sharedLevel s
  (List.range 32).foldl (privLevels (domOn s 2)) s

/-- With WAKEMODE = 1, a source eligible for a triad of a sleeping cluster wakes it (R432). -/
def eligibleWake (s : State) (n : Nat) : State :=
  if !domOn s (4 + n) && flag s (PD_TARGET (4 + n)) PD_TARGET_WAKEMODE &&
      (List.range 4).any (fun j => (presented s (4 * n + j)).isSome)
  then wakeRequest s (4 + n) 2 else s

/-! ### The end of a command -/

/-- INTAKE is 0 whenever SAFEHALT or KEYLOST is 1 or READY is 0 (R26). -/
def intakeHolds (s : State) : State :=
  if flag s MOD_STATUS MOD_STATUS_SAFEHALT || flag s MOD_STATUS MOD_STATUS_KEYLOST || !flag s MOD_STATUS MOD_STATUS_READY
  then setFlag s MOD_STATUS MOD_STATUS_INTAKE false
  else s

/-- What the units of the card do of themselves after a command's own effect. -/
def reactions (s : State) : State :=
  let s := linksDone (runEvents 1000 s)
  let s := mirrorSync (freezeChannels s)
  let s := pcieLinkSync (portSync (portSync s 0) 1)
  let s := acceptQueued s.led.queued.length s
  let s := if s.weft.slots.isEmpty then s else setFlag s WS_STATUS WS_STATUS_RINGWAIT (ringWaits s)
  let s := sweepFrames s.mbx.queue.length (throttleSync s)
  let s := runEvents 1000 s
  (List.range 18).foldl latchVote (intakeHolds ((List.range 8).foldl eligibleWake (levelSources s)))

/-- The state s, with what the reactions that led to state u may have changed: registers, events, outputs, open values,
interrupts, queues, timers, the event fabric, the health converter, the lattice, the ledger's queue, the host function,
the mailbox, wake causes. Triads, memory, keys and every other part of the card stay as the command left them. -/
def withReactions (s u : State) : State :=
  { s with csr := u.csr, evq := u.evq, out := u.out, fresh := u.fresh, pic := u.pic, qe := u.qe, tmr := u.tmr, evf := u.evf,
           mon := u.mon, lat := u.lat, led := u.led, hostFn := u.hostFn, mbx := u.mbx, wakeCause := u.wakeCause }

/-- What follows a command's own effect: halts that waited, what the card does of itself, and the levels of its pins. -/
def settle (s : State) : State :=
  let s := haltsDue s
  padsSync (withReactions s (reactions s))

/-- What an empty queue lets happen: pulses that are high end, and the driver of the serial line is released (log entry 32); else
nothing. -/
def idle (s : State) : State := if pulsing s || s.net.driving then settle (lineRelease (pulsesEnd s)) else s

end Sys2Proof.Machine
end

