-- ==== Sys2Proof/Machine/Fabric.lean ====
section
/-!
DEFINITION. Register accesses of the fabric (R6 to R11): which blocks do more than store a field, what a computed
register shows, how an access meets a sleeping domain (R483), a stopped clock (R505), a hole (R24, R25) or a failed
route (R250), and the accesses of masters other than triads.
-/

namespace Sys2Proof.Machine

/-! ### Interrupt controller (R404 to R432) -/

/-- A write of PIC_ROUTEs by master m: under LOCK it acts as LK, else it is open to supervisor mode and other masters
(R424). -/
def routeWrite (s : State) (m n : Nat) (w : Word) : State :=
  let locked := flag s (PIC_ROUTE n) PIC_ROUTE_LOCK && weaveLocked s
  if locked || (m < 32 && !supervisor (getT s m)) then s else plainWrite s (PIC_ROUTE n) w

/-- A write of PIC_MODm: a holding group that meets the new limits releases (R429). -/
def modWrite (s : State) (g : Nat) (w : Word) : State :=
  let s := plainWrite s (PIC_MOD g) w
  if (getGroup s g).hold && groupDue s g then releaseGroup s g else s

/-- A write of PIC_SSET (R409). -/
def ssetWrite (s : State) (w : Word) : State :=
  (List.range 32).foldl (fun s i => if w.getLsbD i then srcEvent s (480 + i) else s) s

/-- A write of PIC_PSETj for triad t (R409). -/
def psetWrite (s : State) (t : Nat) (w : Word) : State :=
  [16, 17, 18, 19].foldl (fun s k => if w.getLsbD k then privEvent s t k else s) s

/-- A write of PIC_PENDi: pending bits are stored; a source that is no longer pending is no longer released. -/
def pendWrite (s : State) (i : Nat) (w : Word) : State :=
  let p := putWord512 s.pic.pend i w
  { s with pic := { s.pic with pend := p, rel := s.pic.rel &&& p } }

/-- A write to the controller's shared part at offset o. -/
def picWrite (s : State) (m o : Nat) (w : Word) : State :=
  if o = 8 then ssetWrite s w
  else if 0x100 ≤ o && o < 0x140 then { s with pic := { s.pic with en := putWord512 s.pic.en ((o - 0x100) / 4) w } }
  else if 0x180 ≤ o && o < 0x1C0 then pendWrite s ((o - 0x180) / 4) w
  else if 0x300 ≤ o && o < 0x380 then modWrite s ((o - 0x300) / 4) w
  else if 0x1000 ≤ o && o < 0x1800 then routeWrite s m ((o - 0x1000) / 4) w
  else plainWrite s (PIC_IDLE + o) w

/-- PIC_MODSTm. -/
def modStatus (s : State) (g : Nat) : Word :=
  let x := getGroup s g
  BitVec.ofNat 32 (b2n x.hold * 2 ^ 31 + modElapsed s g * 256 + x.count.toNat)

/-- PIC_IDLE. -/
def idleWord (s : State) : Word :=
  BitVec.ofNat 32 ((List.range 32).foldl (fun n t => n + b2n (triadIdle s t) * 2 ^ t) 0)

/-- A read of the controller's shared part at offset o. -/
def picRead (s : State) (o : Nat) : Word × State :=
  if o = 0 then (idleWord s, s)
  else if 0x100 ≤ o && o < 0x140 then (word512 s.pic.en ((o - 0x100) / 4), s)
  else if 0x180 ≤ o && o < 0x1C0 then (word512 s.pic.pend ((o - 0x180) / 4), s)
  else if 0x200 ≤ o && o < 0x240 then (word512 s.pic.act ((o - 0x200) / 4), s)
  else if 0x380 ≤ o && o < 0x400 then (modStatus s ((o - 0x380) / 4), s)
  else plainRead s (PIC_IDLE + o)

/-- A write to the bank of triad t at offset o. -/
def bankWrite (s : State) (t o : Nat) (w : Word) : State :=
  let b := getBank s t
  if o = 8 then setBank s t { b with en := w }
  else if o = 0xC then setBank s t { b with pend := w }
  else if o = 0x14 then psetWrite s t w
  else if 0x20 ≤ o && o < 0x30 then
    let lo := 8 * (o - 0x20)
    setBank s t { b with pri := BitVec.ofNat 128 (bitsPut b.pri.toNat (lo + 31) lo w.toNat) }
  else s

/-- PIC_TSTATj. -/
def tstatWord (s : State) (t : Nat) : Word :=
  let b := getBank s t
  let r := match b.resv with
    | some (id, _) => id.toNat
    | none => 0x3FF
  BitVec.ofNat 32 (b2n (triadIdle s t) * 2 ^ 31 + r * 65536 + runPrio b * 256 + b.stack.length)

/-- A read of the bank of triad t at offset o. -/
def bankRead (s : State) (t o : Nat) : Word :=
  let b := getBank s t
  if o = 0 then tstatWord s t
  else if o = 4 then BitVec.ofNat 32 (b.stack.foldl (fun n p => 16 * n + p.toNat) 0)
  else if o = 8 then b.en
  else if o = 0xC then b.pend
  else if o = 0x10 then b.act
  else if 0x20 ≤ o && o < 0x30 then BitVec.ofNat 32 (b.pri.toNat / 2 ^ (8 * (o - 0x20)))
  else 0

/-! ### Queue engine (R297, register views) -/

/-- The four words that an INSPECT leaves in QE_DINSPi. -/
def setInspect (s : State) (d : Nat) : State :=
  (List.range 4).foldl (fun s i => setReg s (QE_DINSP i) (BitVec.ofNat 32 (d / 2 ^ (32 * i)))) s

/-- A write of QE_QCMD (R297): the command is performed as one operation, and completes; a descriptor that fails breaks
its queue first (R286). On a closed queue QE_DINSPi read zero (R296). -/
def queueCommand (s : State) (w : Word) : State :=
  let q := bitsOf w.toNat 19 0
  let op := bitsOf w.toNat 31 28
  let answer (s : State) (r : Nat) : State := srcEvent (setF s QE_QCMDST QE_QCMDST_RESULT r) 36
  if op != 1 && op != 2 then answer s 3
  else
    match qClass s q with
    | none => answer (setInspect s 0) 1
    | some c =>
      let s := checkDesc s q c .none
      if op = 1 then answer (packetOpen (resetQueue s q c) q false) 0
      else answer (setInspect s (packDesc (getQ s q))) 0

/-- QE_NOTIPENDi. -/
def notipend (s : State) (i : Nat) : Word :=
  BitVec.ofNat 32 ((List.range 32).foldl (fun n k =>
    n + b2n (32 * i + k != 255 && qWords s (0xFFF00 + 32 * i + k) != 0) * 2 ^ k) 0)

/-- A write to the queue engine's block: the fields of classes 64 and 65 are fixed, and LEVEL follows a class's stale
timeout (R261, R289). -/
def qeWrite (s : State) (a : Nat) (w : Word) : State :=
  if a = QE_POOLLOW then poolCheck (plainWrite s a w)
  else if a = QE_QCMD then queueCommand s w
  else if QE_CFIRST 64 ≤ a && a < QE_COWN 65 + 4 && a % 0x20 ≤ 0x10 then s
  else if QE_CFIRST 0 ≤ a && a < QE_CFIRST 64 && a % 0x20 = 0xC then
    let s := plainWrite s a w
    setF s a QE_CSTALE_LEVEL (wheelLevel (getF s a QE_CSTALE_STALE))
  else plainWrite s a w

def qeRead (s : State) (a : Nat) : Word × State :=
  if a = QE_POOLFREE then (BitVec.ofNat 32 (poolFree s), s)
  else if a = QE_GAPTAB then
    let (w, s) := plainRead s a
    (BitVec.ofNat 32 (bitsPut w.toNat 14 0 (gapsUsed s)), s)
  else if 0x41000040 ≤ a && a < 0x41000060 then (notipend s ((a - 0x41000040) / 4), s)
  else plainRead s a

/-! ### Weft, tally and ledger engines -/

def weftWrite (s : State) (a : Nat) (w : Word) : State :=
  if a = WS_CTRL then weftControl s w
  else if a = WS_CTXBASE && flag s WS_CTRL WS_CTRL_EN then s
  else plainWrite s a w

def weftRead (s : State) (a : Nat) : Word × State :=
  if a = WS_SEQLO then seqLoRead s
  else if a = WS_SEQHI then (s.weft.seqLatch, s)
  else if a = WS_SLOTST then slotStRead s
  else if a = WS_SLOTTOKHI then ((s.weft.tokLatch >>> 32).setWidth 32, s)
  else if a = WS_SLOTTOKLO then (s.weft.tokLatch.setWidth 32, s)
  else if 0x42001000 ≤ a && a < 0x42002000 && stageCount s ≤ (a - 0x42001000) / 16 then (0, s)
  else plainRead s a

def tlyWrite (s : State) (a : Nat) (w : Word) : State :=
  if a = TLY_CTRL then tallyOpen s w
  else if a = TLY_LDCMD then tallyLoad s w
  else if a = TLY_SEL then tallySelect s w
  else plainWrite s a w

def ledWrite (s : State) (a : Nat) (w : Word) : State :=
  if a = LED_ACKLO then { s with led := { s.led with ackLo := w } }
  else if a = LED_ACKHI then ackHi s w
  else if a = LED_DMACTL then
    let s := plainWrite s a w
    if w.getLsbD 31 then drainGo s else s
  else plainWrite s a w

/-- The latched words in the order of `ledgerSnapshot` (R386). -/
def ledLatched (a : Nat) : Option Nat :=
  if a = LED_DURSEQHI then some 0
  else if a = LED_FIRSTSLOT then some 1
  else if a = LED_DURSLOT then some 2
  else if LED_HEADDIG 0 ≤ a && a < LED_HEADDIG 8 then some (3 + (a - LED_HEADDIG 0) / 4)
  else none

def ledRead (s : State) (a : Nat) : Word × State :=
  if a = LED_DURSEQLO then durSeqRead s
  else
    match ledLatched a with
    | some i => ((s.led.snap ++ (ledgerSnapshot s).drop s.led.snap.length).getD i 0, s)
    | none => plainRead s a

/-! ### Supervisors, voters, draw unit, power, clocks -/

/-- A read of SUP_FLOGDi: SUP_FLOGD0 latches the selected entry (R234). -/
def flogRead (s : State) (i : Nat) : Word × State :=
  if i = 0 then
    let e := tget (fun _ => 0) s.flog (getF s SUP_FLOGSEL SUP_FLOGSEL_INDEX)
    (e.setWidth 32, { s with flogLatch := e })
  else ((s.flogLatch >>> (32 * i)).setWidth 32, s)

/-- A read of the matching count and check of triad t: the low count latches the others (R235). -/
def matchedRead (s : State) (t i : Nat) : Word × State :=
  let n := clusterOf t
  let j := t % 4
  if i = 0 then
    let v := (reg s (CLV_RCNTLO n j)).toNat + 2 ^ 32 * (reg s (CLV_RCNTHI n j)).toNat +
      2 ^ 64 * (reg s (CLV_CHKLO n j)).toNat + 2 ^ 96 * (reg s (CLV_CHKHI n j)).toNat
    (BitVec.ofNat 32 v, { s with clvLatch := tset (fun _ => 0) s.clvLatch t (BitVec.ofNat 128 v) })
  else ((tget (fun _ => 0) s.clvLatch t >>> (32 * i)).setWidth 32, s)

/-- A write of DRW_ENTIN: four bytes into the queue of 128 words. -/
def entinWrite (s : State) (w : Word) : State :=
  if flag s MOD_STATUS MOD_STATUS_SEALED || 128 ≤ s.drw.entin.length then s
  else { s with drw := { s.drw with entin := s.drw.entin ++ [w] } }

def drwWrite (s : State) (a : Nat) (w : Word) : State :=
  if a = DRW_ENTIN then entinWrite s w else drawSync (plainWrite s a w)

/-- Registers of domain d at offset o of its row. -/
def pdWrite (s : State) (m a : Nat) (w : Word) : State :=
  let d := (a - 0x40010100) / 16
  if 0x40010100 ≤ a && d < 18 && a % 16 = 0 then voteAWrite s m d w
  else if 0x40010100 ≤ a && d < 18 && a % 16 = 4 then voteBWrite s m d w
  else plainWrite s a w

def pdRead (s : State) (a : Nat) : Word × State :=
  let d := (a - 0x40010100) / 16
  if a = PD_ONMAP then (onMap s, s)
  else if 0x40010100 ≤ a && d < 18 && a % 16 = 4 then (BitVec.ofNat 32 (voteB s d), s)
  else if 0x40010100 ≤ a && d < 18 && a % 16 = 12 then (pdStatus s d, s)
  else plainRead s a

/-- The domain whose CLK_SRC lies at an address. -/
def clkSrcAt (a : Nat) : Option Nat :=
  if 0x40020100 ≤ a && a < 0x40020148 && clkDomains.contains ((a - 0x40020100) / 4) then some ((a - 0x40020100) / 4)
  else none

def clkWrite (s : State) (a : Nat) (w : Word) : State :=
  match clkSrcAt a with
  | some d => clkSrcWrite s d w
  | none => plainWrite s a w

/-! ### Boot engine, host bridge, ports, audit -/

/-- A write to the boot engine's block; only supervisor mode and the host may write BOOT_CTL (R59). -/
def bootWrite (s : State) (m a : Nat) (w : Word) : State :=
  if a != BOOT_CTL then plainWrite s a w
  else if m = 36 then bootCtlWrite s 0 w
  else if m < 32 && supervisor (getT s m) then bootCtlWrite s 1 w
  else s

def hbWrite (s : State) (a : Nat) (w : Word) : State := if a = HB_MSIGEN then msiGen s w else plainWrite s a w

def hbRead (s : State) (a : Nat) : Word × State := if a = HB_PTMLO then ptmRead s else plainRead s a

def ethWrite (s : State) (a : Nat) (w : Word) : State :=
  let p := (a - 0x46000000) / 0x100000
  if a = ETH_SFPCMD p then sfpWrite s p w else plainWrite s a w

def ethRead (s : State) (a : Nat) : Word × State :=
  let p := (a - 0x46000000) / 0x100000
  if a = ETH_PEERST p then peerRead s p else plainRead s a

def serRead (s : State) (a : Nat) : Word × State := if a = SER_STATUS then (serStatus s, s) else plainRead s a

def audWrite (s : State) (a : Nat) (w : Word) : State :=
  if DBG_CTL ≤ a && a ≤ DBG_ACCVAL then dbgWrite s a w
  else if a = AUD_TRCSEL then trcselWrite s w
  else plainWrite s a w

def audRead (s : State) (a : Nat) : Word × State :=
  if DBG_CTL ≤ a && a ≤ DBG_ACCVAL then dbgRead s a else plainRead s a

/-! ### Every block -/

/-- Write `w` to the register at device address `a`, as master m. -/
def deviceWrite (s : State) (m a : Nat) (w : Word) : State :=
  if a < 0x400E0000 then
    (match (a - 0x40000000) / 0x10000 with
     | 1 => pdWrite s m a w
     | 2 => clkWrite s a w
     | 3 => picWrite s m (a - 0x40030000) w
     | 4 => evfWrite s (a - 0x40040000) w
     | 5 => groupWrite s 8 (a - 0x40050000) w
     | 6 => rtcWrite s (a - 0x40060000) w
     | 7 => if a = MON_CTL then monCtlWrite s w else plainWrite s a w
     | 10 => drwWrite s a w
     | 11 => tmpWrite s (a - 0x400B0000) w
     | 12 => bootWrite s m a w
     | 13 => audWrite s a w
     | _ => plainWrite s a w)
  else if a < 0x42000000 then qeWrite s a w
  else if a < 0x43000000 then weftWrite s a w
  else if a < 0x44000000 then tlyWrite s a w
  else if a < 0x45000000 then ledWrite s a w
  else if a < 0x46000000 then hbWrite s a w
  else if a < 0x47000000 then ethWrite s a w
  else if a < 0x48000000 then plainWrite s a w
  else
    let n := (a - 0x48000000) / 0x100000
    let o := a % 0x10000
    match (a - 0x48000000) % 0x100000 / 0x10000 with
    | 1 => groupWrite s n o w
    | 2 => if o < 0x200 then bankWrite s (4 * n + o / 0x80) (o % 0x80) w else s
    | _ => plainWrite s a w

/-- Read the register at device address `a`. -/
def deviceRead (s : State) (a : Nat) : Word × State :=
  if a < 0x400E0000 then
    (match (a - 0x40000000) / 0x10000 with
     | 1 => pdRead s a
     | 3 => picRead s (a - 0x40030000)
     | 5 => groupRead s 8 (a - 0x40050000)
     | 6 => rtcRead s (a - 0x40060000)
     | 8 => if SUP_FLOGD 0 ≤ a && a < SUP_FLOGD 4 then flogRead s ((a - SUP_FLOGD 0) / 4) else plainRead s a
     | 11 => tmpRead s (a - 0x400B0000)
     | 13 => audRead s a
     | _ => plainRead s a)
  else if a < 0x42000000 then qeRead s a
  else if a < 0x43000000 then weftRead s a
  else if a < 0x44000000 then plainRead s a
  else if a < 0x45000000 then ledRead s a
  else if a < 0x46000000 then hbRead s a
  else if a < 0x47000000 then ethRead s a
  else if a < 0x48000000 then serRead s a
  else
    let n := (a - 0x48000000) / 0x100000
    let o := a % 0x10000
    match (a - 0x48000000) % 0x100000 / 0x10000 with
    | 0 => if 0x100 ≤ o && o < 0x180 && 4 ≤ o % 0x20 && o % 0x20 < 0x14
           then matchedRead s (4 * n + (o - 0x100) / 0x20) ((o % 0x20 - 4) / 4) else plainRead s a
    | 1 => groupRead s n o
    | 2 => (if o < 0x200 then bankRead s (4 * n + o / 0x80) (o % 0x80) else 0, s)
    | _ => if a = CRY_STATUS n then (cryStatus s n, s) else plainRead s a

/-! ### How an access fares (R483, R505, R506, R250) -/

/-- How an access ends without being performed: an error response of its target, a failed route, a sleeping domain, a
stopped clock. -/
inductive DevErr where
  | target | route | asleep | clkstop
deriving DecidableEq, Repr

/-- The access reaches its block: the state when it does (a held access has brought its domain back). -/
def deviceReach (s : State) (m a : Nat) : Except DevErr State :=
  let d := (deviceDomain a).1
  if accessFailed s m a then .error .route
  else if domOn s d then (if meetsStopped s a then .error .clkstop else .ok s)
  else if (d = 2 || d = 3) && domState s d = 1 then .ok (heldAccess s d)
  else if 4 ≤ d && d < 12 && (a - 0x48000000) % 0x100000 / 0x10000 = 2 && flag s (PD_TARGET d) PD_TARGET_WAKEMODE then
    .ok s
  else .error .asleep

/-- What an access that is not performed leaves behind (R483, R506). -/
def errCount (s : State) (a : Nat) : DevErr → State
  | .target => s
  | .route => routeLost s
  | .asleep => refusedAccess s
  | .clkstop => clkStopEnd s a

/-- A device read by master m. -/
def devRead (s : State) (m a : Nat) : Except DevErr (Word × State) :=
  match deviceReach s m a with
  | .error e => .error e
  | .ok s => .ok (deviceRead s a)

/-- A device write by master m. -/
def devWrite (s : State) (m a : Nat) (w : Word) : Except DevErr State :=
  match deviceReach s m a with
  | .error e => .error e
  | .ok s => .ok (deviceWrite s m a w)

/-! ### Accesses of masters (R25, R244, R514, R515) -/

/-- A register access that ends with an error response. -/
def busError (s : State) (m : Nat) : State :=
  let s := { s with rstat := 2 }
  if m = 36 then hbErr s HB_ERR_TGTERR else s

/-- A register read that ends with an error response: the host's is a Completer Abort (R515). -/
def readError (s : State) (m : Nat) : State :=
  let s := busError s m
  if m = 36 then aerAbort s else s

/-- A hole in the CSR window (R25); other masters get an error response. -/
def busHole (s : State) (m : Nat) : State :=
  if m = 36 then incSat { s with rdata := 0, rstat := 0 } MOD_HOLECNT MOD_HOLECNT_COUNT 1 else busError s m

/-- A GO of the host in LAT_HFENCE (R244). -/
def fenceGo (s : State) (w : Word) : State :=
  if w.getLsbD 31 then { s with lat := { s.lat with fences := s.lat.fences + 1 } } else s

/-- A read of the common store or the MRAM window reaches its target: a failed route or LED in OFF answers with an error,
LED in RET holds the access until it is back (R250, R483). -/
def memReach (s : State) (m fa : Nat) : Except DevErr State :=
  if accessFailed s m fa then .error .route
  else if regionOf fa = .mram && !domOn s 3 then
    (if domState s 3 = 1 then .ok (heldAccess s 3) else .error .asleep)
  else .ok s

/-- A write of a master other than a core into the MRAM read window is refused and counted: the host's is discarded (R516),
another master gets an error response (R248). -/
def drainWindowWrite (s : State) (m : Nat) : State :=
  let s := incSat s LAT_STATUS LAT_STATUS_MWERR 1
  if m = 36 then s else busError s m

/-- Master m's write reaches the fabric. -/
def performWrite (s : State) (m a : Nat) (w : Word) : State :=
  if regionOf a = .mram && 32 ≤ m then drainWindowWrite s m
  else if regionOf a != .device then busHole s m
  else if m = 36 && a = LAT_HFENCE then fenceGo { s with rstat := 0 } w
  else
    match devWrite s m a w with
    | .ok s => { s with rstat := 0 }
    | .error e => busError (errCount s a e) m

/-- Master m's read reaches the fabric; its value goes to `rdata`. Every master reads the MRAM window (R248). -/
def performRead (s : State) (m a : Nat) : State :=
  if regionOf a = .mram && 32 ≤ m then
    (match memReach s m a with
     | .ok s => answerWords { s with rstat := 0 } (readBurst s a 1)
     | .error e => readError (errCount s a e) m)
  else if regionOf a != .device then busHole s m
  else
    match devRead s m a with
    | .ok (w, s) => { s with rdata := w, rstat := 0 }
    | .error e => readError (errCount s a e) m

/-- A host write to the CSR window with byte enables: a partial one is discarded and counted (R514). DESIGN CHOICE: one to a hole
counts in PARTIAL alone, not in MOD_HOLECNT too (log entry 82). -/
def hostWrite (s : State) (a : Nat) (w : Word) (be : BitVec 4) : State :=
  if be != 15 && regionOf a != .mram then hbErr s HB_ERR_PARTIAL else performWrite s 36 a w

/-- A read of the mailbox window by the host. -/
def hostWindowRead (s : State) (off : Nat) : State :=
  let (w, s) := windowRead s off
  { s with rdata := w, rstat := 0 }

/-- A host access that the bridge carries out. -/
def performHeld (s : State) : HeldAccess → State
  | .write (.fabric a) w be => hostWrite s (a.toNat / 4 * 4) w be
  | .write (.mailbox off) w be => windowWrite s (off.toNat / 4 * 4) w be
  | .read (.fabric a) => performRead s 36 (a.toNat / 4 * 4)
  | .read (.mailbox off) => hostWindowRead s (off.toNat / 4 * 4)
  | .drain => drainWindowWrite s 36

/-- A host access: carried out at once, or held behind a fence (R244); none is accepted while the bridge is not ready. -/
def hostAccess (s : State) (h : HeldAccess) : State :=
  if !hostReady s then s
  else if s.lat.fences != 0 then { s with lat := { s.lat with held := s.lat.held ++ [h] } }
  else performHeld s h

/-- The held accesses proceed, up to and including the next fence. -/
def releaseHeld : List HeldAccess → State → State
  | [], s => { s with lat := { s.lat with held := [] } }
  | h :: r, s =>
    if s.lat.fences != 0 then { s with lat := { s.lat with held := h :: r } } else releaseHeld r (performHeld s h)

/-- Every host access before the fence has been performed: DONE counts, and the held accesses proceed (R244). -/
def fenceDone (s : State) : State :=
  if s.lat.fences = 0 then s
  else
    let s := incWrap s LAT_HFENCE LAT_HFENCE_DONE 1
    let s := { s with lat := { s.lat with fences := 0 } }
    releaseHeld s.lat.held s

/-- A register write at a place, by master m. -/
def placeWrite (s : State) (m : Nat) (p : Place) (w : Word) (be : BitVec 4) : State :=
  if m = 36 then hostAccess s (.write p w be)
  else
    match p with
    | .fabric a => performWrite s m (a.toNat / 4 * 4) w
    | .mailbox _ => s

/-- A register read at a place, by master m. -/
def placeRead (s : State) (m : Nat) (p : Place) : State :=
  if m = 36 then hostAccess s (.read p)
  else
    match p with
    | .fabric a => performRead s m (a.toNat / 4 * 4)
    | .mailbox _ => s

/-- A register write of a whole word by master m. -/
def busWrite (s : State) (m a : Nat) (w : Word) : State := placeWrite s m (.fabric (BitVec.ofNat 32 a)) w 15

/-- A register read by master m. -/
def busRead (s : State) (m a : Nat) : State := placeRead s m (.fabric (BitVec.ofNat 32 a))

/-- An access of master m to a stopped clock times out (R505, R506): the destination has captured it, and it is performed,
or it is withdrawn and ends with CLKSTOP. -/
def clockTimeout (s : State) (m a : Nat) (wr : Bool) (w : Word) (captured : Bool) : State :=
  let a := a / 4 * 4
  if regionOf a != .device || !meetsStopped s a then s
  else if captured then
    (if wr then { deviceWrite s m a w with rstat := 0 }
     else
       let (v, s) := deviceRead s a
       { s with rdata := v, rstat := 0 })
  else if wr then busError (clkStopEnd s a) m
  else readError (clkStopEnd s a) m

end Sys2Proof.Machine
end

