-- ==== Sys2Proof/Machine/FerletMem.lean ====
section
/-!
DEFINITION. Memory access of a triad (spec chapter 05): regions, the segment check (R121), caches (R135 to R141),
loads and stores with poison, and the checks of an instruction fetch.
-/

namespace Sys2Proof.Machine

/-- The kinds of access of R121. -/
inductive Access where
  | load | store | fetch
deriving DecidableEq, Repr

/-- Attribute bit that an access needs: R, W or X (R121). -/
def needBit : Access → Nat
  | .load => 0
  | .store => 1
  | .fetch => 2

/-- The check of R121 for offset `o`, size `z` in segment `seg`: the fabric address, or the first failing check. DEDUCED (log
entry 50): R91 puts a fetch's limit and rights before its alignment, R121 the other way round; R121's order is taken. ctl.fadr
is the fabric address for vectors 7 and 8 and the offset else (R89); R150 and R154 name their own. -/
def segCheck (x : Triad) (sup : Bool) (seg : Nat) (o : Word) (z : Nat) (k : Access) : Except Exc Nat :=
  let fa := (port x (0xC0 + seg) + o).toNat
  let lim := (port x (0xC8 + seg)).toNat
  let att := port x (0xD0 + seg)
  let wr := k == .store
  let ft := k == .fetch
  let region := regionOf fa
  if fa % (if ft then 2 else z) != 0 then .error { vec := 4, fadr := o, wr := wr, fetch := ft }
  else if lim < o.toNat + z then .error { vec := 2, fadr := o, wr := wr, fetch := ft }
  else if !att.getLsbD (needBit k) || (att.getLsbD 3 && !sup) then
    .error { vec := 3, fadr := o, wr := wr, fetch := ft }
  else if region = .hole then .error { vec := 7, sub := 0, fadr := BitVec.ofNat 32 fa, wr := wr, fetch := ft }
  else if region = .mram && k = .store then
    .error { vec := 7, sub := 1, fadr := BitVec.ofNat 32 fa, wr := wr, fetch := ft }
  else .ok fa

/-- The key of a memory byte that triad t reaches at fabric address `fa` (R23). -/
def memKey (t fa : Nat) : Nat := if fa < 0x20000 then lsKey t fa else fa

/-! ### Caches (R135, R136) -/

/-- A fabric word, none when it is poisoned. -/
def wordOrPoison (s : State) (k : Nat) : Option Word := if poisoned s k then none else some (getWord s k)

/-- The line that holds fabric address `fa`, as one 32-byte read fills it. -/
def fillLine (s : State) (fa : Nat) : CacheLine :=
  { line := fa / 32, words := (List.range 8).map (fun i => wordOrPoison s (fa / 32 * 32 + 4 * i)) }

/-- Whether a lookup of `fa` hits: the line is there, and its word passes its parity (R138). -/
def lineHits (ways : List CacheLine) (fa : Nat) (m : Meet) : Bool := !m.parity && ways.any (fun l => l.line == fa / 32)

/-- The set of a cache after a lookup of `fa` that reads the line when it misses: most recently used first, four ways (R135,
R138). -/
def touchLine (s : State) (ways : List CacheLine) (fa : Nat) (m : Meet) : List CacheLine :=
  let rest := ways.filter (fun l => l.line != fa / 32)
  match ways.find? (fun l => l.line == fa / 32 && !m.parity) with
  | some l => l :: rest
  | none => (fillLine s fa :: rest).take 4

/-- The word of `fa` in the first line of a set. -/
def lineWord (ways : List CacheLine) (fa : Nat) : Option Word :=
  match ways with
  | l :: _ => (l.words.getD (fa / 4 % 8) none)
  | [] => none

def setOf (fa : Nat) : Nat := fa / 32 % 128

/-- A cached word after a store of z bytes at `fa`: the bytes stored and no other. -/
def storeInWord (old : Option Word) (fa z : Nat) (w : Word) : Option Word :=
  if z = 4 then some w
  else old.map (fun o => BitVec.ofNat 32 (bitsPut o.toNat (8 * (fa % 4 + z) - 1) (8 * (fa % 4)) w.toNat))

/-- A store that hits updates the line (R136). DESIGN CHOICE: it is no use of the way for the replacement (log entry 49). -/
def updateLine (ways : List CacheLine) (fa z : Nat) (w : Word) : List CacheLine :=
  let i := fa / 4 % 8
  ways.map (fun l => if l.line == fa / 32 then { l with words := l.words.set i (storeInWord (l.words.getD i none) fa z w) }
                     else l)

/-- Whether an access through `seg` may use a cache: C = 1, D = 0, DET = 0, common store or MRAM (R124, R136, R139). -/
def cacheable (x : Triad) (seg fa : Nat) : Bool :=
  let att := port x (0xD0 + seg)
  att.getLsbD 4 && !att.getLsbD 5 && !detMode x && (regionOf fa == .common || regionOf fa == .mram)

/-! ### Loads and stores -/

/-- The poison-consumed exception (R132). -/
def excPoison (o : Word) (ft ext : Bool) : Exc := { vec := 6, sub := b2n ft, fadr := o, fetch := ft, ext := ext }

/-- The exception that an access not performed raises: bus error or clock-stopped timeout (R89, R483, R506). -/
def excDev (fa : Nat) (wr ft : Bool) : DevErr → Exc
  | .target => { vec := 7, sub := 2, fadr := BitVec.ofNat 32 fa, wr := wr, fetch := ft, ext := true }
  | .route => { vec := 7, sub := 2, fadr := BitVec.ofNat 32 fa, wr := wr, fetch := ft, ext := true, count := 3 }
  | .asleep => { vec := 7, sub := 2, fadr := BitVec.ofNat 32 fa, wr := wr, fetch := ft, ext := true, count := 1 }
  | .clkstop => { vec := 8, fadr := BitVec.ofNat 32 fa, wr := wr, fetch := ft, ext := true, count := 2, caddr := fa }

/-- A local store word of triad t fails with a double-bit error in the copies of the positions in `bad` (R131, R231): where
most live positions find it, the triad meets poison; a position that then stands alone diverges when the move ends. -/
def localDouble (s : State) (t k : Nat) (bad : BitVec 3) : State :=
  let live := livePositions s t
  let hit := live.filter (fun p => bad.getLsbD p)
  let s := incSat s (CLV_LSCNT (clusterOf t)) CLV_LSCNT_DBL hit.length
  if live.length < 2 * hit.length then
    setT (setPoison s k true) t { getT s t with split := live.find? (fun p => !bad.getLsbD p) }
  else setT s t { getT s t with split := hit.head? }

/-- Triad t reads the word at key k from its store and finds what `m` says: a single-bit error is corrected, counted and
logged, a double-bit error poisons the word (R131, R232). -/
def meetWord (s : State) (t k : Nat) (m : Meet) : State :=
  match m.upset with
  | .none => s
  | .single =>
    if 2 ^ 32 ≤ k then maskedFault (incSat s (CLV_LSCNT (clusterOf t)) CLV_LSCNT_CORR 1) t
    else if regionOf k = .common then bankUpset s t (k / 4 * 4) .single
    else maskedFault s noElem
  | .double =>
    if 2 ^ 32 ≤ k then localDouble s t k m.bad
    else if regionOf k = .common then bankUpset s t (k / 4 * 4) .double
    else setPoison s k true

/-- The same for the eight words of the line of k, which a line fill reads in ascending order (R135, R247). -/
def meetLine (s : State) (t k : Nat) (m : Meet) : State :=
  (List.range 8).foldl (fun s i =>
    if i = k / 4 % 8 then meetWord s t k m
    else meetWord s t (k / 32 * 32 + 4 * i) { upset := m.line.getD i .none }) s

/-- A read at k in the store finds what `m` says: first the parity miss of the cached word, a masked fault (R138, R232), then what
its word or its line holds. -/
def meetRead (s : State) (t k : Nat) (m : Meet) : State :=
  let s := if m.parity then maskedFault s t else s
  if m.line.isEmpty then meetWord s t k m else meetLine s t k m

/-- What a read that no line fill makes finds: the one word it asks for. -/
def oneWord (m : Meet) : Meet := { m with line := [], parity := false }

/-- The trace kind of an input that failed (R599). -/
def excKind (e : Exc) : Nat := if e.fetch then 8 else if e.wr then 10 else 1

/-- What an access that raised an exception leaves in the counters and in the word it read. -/
def excCount (s : State) (e : Exc) : State :=
  let s := match e.meet with
    | none => s
    | some (t, k, m) => meetRead s t k m
  match e.count with
  | 1 => refusedAccess s
  | 2 => clkStopEnd s e.caddr
  | 3 => routeLost s
  | _ => s

/-- The same, with the trace record of an access that left the core (R599). -/
def excSeen (s : State) (t : Nat) (e : Exc) : State :=
  excCount (if e.ext then traceNote s t (excKind e) e.vec e.sub 0 else s) e

/-! ### What the voter sees (R198, R202) -/

/-- A position that trails has still to present what the triad's others have presented alike. -/
def owe (s : State) (t : Nat) (i : VItem) (res : Option ReadRes) : State :=
  let x := getT s t
  match x.voter.late with
  | none => s
  | some p => setT s t { x with voter := { x.voter with owed := x.voter.owed ++ [{ pos := p, item := i, res := res }] } }

/-- Attribute bits [5:0] of a segment. -/
def segRights (x : Triad) (seg : Nat) : BitVec 6 := (port x (0xD0 + seg)).setWidth 6

/-- The voted read that a load of z bytes through `seg` makes, if one: none for the local store and a cache hit (R205). -/
def readOf (x : Triad) (kind seg fa z : Nat) (m : Meet) : Option ReadCopy :=
  let a := BitVec.ofNat 32 fa
  let one : ReadCopy := if kind = 2 then .gather a (segRights x seg) else .load a (BitVec.ofNat 3 z) (segRights x seg)
  match regionOf fa with
  | .localStore | .hole => none
  | .device => some one
  | .common | .mram =>
    if !cacheable x seg fa then some one
    else if lineHits (tget (fun _ => []) x.dcache (setOf fa)) fa m then none
    else some (.line (BitVec.ofNat 32 (fa / 32 * 32)))

/-- The voted read of a fetch group that is not yet at hand, if one. -/
def fetchRead (x : Triad) (seg fa : Nat) (m : Meet) : Option ReadCopy :=
  if x.group = some (fa / 4) then none
  else
    match regionOf fa with
    | .localStore | .hole => none
    | .device => some (.group (BitVec.ofNat 32 (fa / 4 * 4)))
    | .common | .mram =>
      if !cacheable x seg fa then some (.group (BitVec.ofNat 32 (fa / 4 * 4)))
      else if lineHits (tget (fun _ => []) x.icache (setOf fa)) fa m then none
      else some (.line (BitVec.ofNat 32 (fa / 32 * 32)))

/-- Triad t has made a voted read that delivered w. -/
def oweRead (s : State) (t : Nat) (r : Option ReadCopy) (w : Word) : State :=
  match r with
  | none => s
  | some (.line a) => owe s t (.rd (.line a)) (some { words := (fillLine s a.toNat).words })
  | some r => owe s t (.rd r) (some { words := [some w] })

/-! ### Reaching memory (R250, R483) -/

/-- What an access at `fa` finds in the store (R138, R247): a hit reads nothing there, a line fill reads the line, any other read
its one word. Only a line that is held can fail its parity. -/
def meets (cached : Bool) (ways : List CacheLine) (fa : Nat) (m : Meet) : Option Meet :=
  if cached then
    if lineHits ways fa m then none
    else some { m with parity := m.parity && ways.any (fun l => l.line == fa / 32) }
  else some (oneWord m)

/-- The state once the word at `fa` is read for triad t, which finds `m` in its store; a cache hit makes no access. -/
def reachWord (s : State) (t fa : Nat) (m : Option Meet) : Except DevErr State :=
  match m with
  | none => .ok s
  | some m =>
    match memReach s t fa with
    | .error e => .error e
    | .ok s => .ok (meetRead s t fa m)

/-- What a read that meets poison at key k has found, for the exception that it raises. -/
def found (t k : Nat) (m : Option Meet) : Option (Nat × Nat × Meet) :=
  match m with
  | none => none
  | some m => if m.upset = .none && m.line.isEmpty && !m.parity then none else some (t, k, m)

/-- The bytes of a word that an access of size z at `fa` selects. -/
def selectBytes (w : Word) (fa z : Nat) : Word :=
  BitVec.ofNat 32 (w.toNat / 2 ^ (8 * (fa % 4)) % 2 ^ (8 * z))

/-- Load z bytes at the checked address `fa`, finding what `m` says there (R123, R128, R131, R132, R138). DESIGN CHOICE: when
the word asked for is poisoned, neither the fill nor the order of ways is kept (log entry 49). -/
def loadAt (s : State) (t seg fa z : Nat) (o : Word) (m : Meet) : Except Exc (Word × State) :=
  match regionOf fa with
  | .localStore =>
    let k := lsKey t fa
    let s := meetWord s t k m
    if poisoned s k then .error { excPoison o false false with meet := found t k (some (oneWord m)) }
    else .ok (selectBytes (getWord s (k / 4 * 4)) fa z, s)
  | .common | .mram =>
    let x := getT s t
    let ways := tget (fun _ => []) x.dcache (setOf fa)
    let cached := cacheable x seg fa
    let seen := meets cached ways fa m
    match reachWord s t fa seen with
    | .error e => .error (excDev fa false false e)
    | .ok s =>
      if cached then
        let ways := touchLine s ways fa m
        match lineWord ways fa with
        | none => .error { excPoison o false true with meet := found t fa seen }
        | some w =>
          .ok (selectBytes w fa z, setT s t { x with dcache := tset (fun _ => []) x.dcache (setOf fa) ways })
      else
        match wordOrPoison s (fa / 4 * 4) with
        | none => .error { excPoison o false true with meet := found t fa seen }
        | some w => .ok (selectBytes w fa z, s)
  | .device =>
    if z != 4 then .error (excDev fa false false .target)
    else
      match devRead s t fa with
      | .ok r => .ok r
      | .error e => .error (excDev fa false false e)
  | .hole => .error (excDev fa false false .target)

/-- Store the low z bytes of w at key k: a partial store to a poisoned word is discarded (R134). -/
def storeBytes (s : State) (k z : Nat) (w : Word) : Option State :=
  if z = 4 then some (setPoison (putWord s k w) k false)
  else if poisoned s k then none
  else some (putBytes s k (leBytes z w.toNat))

/-- Store z bytes at the checked address `fa` (R123, R127, R134, R136). A store to the common store is posted, but for one
through a segment with D = 1, which is a device access (R124, R125). DESIGN CHOICE (log entry 79): a partial store that a poisoned
local store word discards counts once in DISC, though each position has a copy; a store that is discarded or lost on its way, and
one through a segment that may not use the cache, leaves a line that the data cache holds as it is. -/
def storeAt (s : State) (t seg fa z : Nat) (w : Word) : Except Exc State :=
  match regionOf fa with
  | .localStore =>
    match storeBytes s (lsKey t fa) z w with
    | some s => .ok s
    | none => .ok (incSat s (CLV_LSCNT (clusterOf t)) CLV_LSCNT_DISC 1)
  | .common =>
    if accessFailed s t fa then
      (if (port (getT s t) (0xD0 + seg)).getLsbD 5 then .error (excDev fa true false .route) else .ok (routeLost s))
    else
      match storeBytes s fa z w with
      | none => .ok (incSat s (CS_BANK (bankOf fa)) CS_BANK_DISC 1)
      | some s =>
        let x := getT s t
        if cacheable x seg fa then
          let ways := tget (fun _ => []) x.dcache (setOf fa)
          .ok (setT s t { x with dcache := tset (fun _ => []) x.dcache (setOf fa)
                                             (updateLine ways fa z w) })
        else .ok s
  | .device =>
    if z != 4 then .error (excDev fa true false .target)
    else
      match devWrite s t fa w with
      | .ok s => .ok s
      | .error e => .error (excDev fa true false e)
  | .mram | .hole => .error (excDev fa true false .target)

/-- A word delivered from outside the core is an input of the triad, recorded under `kind` (R599); 0 records nothing. -/
def noteLoad (s : State) (t kind fa : Nat) (w : Word) : State :=
  if kind = 0 || regionOf fa == .localStore then s else traceNote s t kind 0 0 w

/-- A checked load of z bytes at offset o of segment seg (R121, R128), traced under `kind`, finding what `m` says. -/
def segLoad (s : State) (t : Nat) (sup : Bool) (kind seg : Nat) (o : Word) (z : Nat) (m : Meet) :
    Except Exc (Word × State) :=
  match segCheck (getT s t) sup seg o z .load with
  | .error e => .error e
  | .ok fa =>
    let r := readOf (getT s t) kind seg fa z m
    match loadAt s t seg fa z o m with
    | .error e => .error e
    | .ok (w, s) => .ok (w, oweRead (noteLoad s t kind fa w) t r w)

/-- A checked load that only learns how it fares: the state, and the exception that the access raises, poison apart. -/
def segProbe (s : State) (t : Nat) (sup : Bool) (seg : Nat) (o : Word) : Option Exc :=
  match segLoad s t sup 0 seg o 4 {} with
  | .error e => if e.vec = 6 then none else some e
  | .ok _ => none

/-- A checked store of z bytes at offset o of segment seg. -/
def segStore (s : State) (t : Nat) (sup : Bool) (seg : Nat) (o : Word) (z : Nat) (w : Word) : Except Exc State :=
  match segCheck (getT s t) sup seg o z .store with
  | .error e => .error e
  | .ok fa =>
    match storeAt s t seg fa z w with
    | .error e => .error e
    | .ok s =>
      .ok (if regionOf fa = .localStore then s
           else owe s t (.eff (.store (BitVec.ofNat 32 fa) (BitVec.ofNat 3 z) w (segRights (getT s t) seg))) none)

/-! ### Instruction fetch (R72, R121, R132) -/

/-- A fetch group that came from outside the core: recorded once while fetches stay in it (R184, R599). DESIGN CHOICE (log entry
80): it is read again after anything but a move that follows in sequence, and after a fetch from the local store. -/
def noteGroup (s : State) (t fa : Nat) (w : Word) : State :=
  let x := getT s t
  if x.group = some (fa / 4) then s
  else setT (traceNote s t 8 0 0 w) t { x with group := some (fa / 4) }

/-- Read the fetch group that holds `fa`: through the instruction cache where it serves it, else from memory. -/
def fetchGroup (s : State) (t seg fa : Nat) (o : Word) (m : Meet) : Except Exc State :=
  let x := getT s t
  let r := fetchRead x seg fa m
  let got (s : State) (w : Word) : State := noteGroup (oweRead s t r w) t fa w
  match regionOf fa with
  | .localStore =>
    let k := lsKey t fa
    let s := meetWord s t k m
    if poisoned s k then .error { excPoison o true false with meet := found t k (some (oneWord m)) }
    else .ok (setT s t { getT s t with group := none })
  | .common | .mram =>
    let ways := tget (fun _ => []) x.icache (setOf fa)
    let cached := cacheable x seg fa
    let seen := meets cached ways fa m
    match reachWord s t fa seen with
    | .error e => .error (excDev fa false true e)
    | .ok s =>
      if cached then
        let ways := touchLine s ways fa m
        match lineWord ways fa with
        | none => .error { excPoison o true true with meet := found t fa seen }
        | some w => .ok (got (setT s t { x with icache := tset (fun _ => []) x.icache (setOf fa) ways }) w)
      else
        match wordOrPoison s (fa / 4 * 4) with
        | none => .error { excPoison o true true with meet := found t fa seen }
        | some w => .ok (got s w)
  | .device =>
    match devRead s t (fa / 4 * 4) with
    | .ok (w, s) => .ok (got s w)
    | .error e => .error (excDev fa false true e)
  | .hole => .error { vec := 7, fadr := BitVec.ofNat 32 fa, fetch := true }

/-- The fetch of a move of `len` bytes at the PC, whose fetch groups find what `m` and `m2` say: the check of R121, then its one
or two fetch groups. -/
def fetchMove (s : State) (t len : Nat) (m m2 : Meet) : Except Exc State :=
  let x := getT s t
  let seg := fetchSeg x
  match segCheck x (supervisor x) seg x.pc len .fetch with
  | .error e => .error e
  | .ok fa =>
    match fetchGroup (setT s t { x with landed := false }) t seg fa x.pc m with
    | .error e => .error e
    | .ok s => if fa / 4 = (fa + len - 1) / 4 then .ok s else fetchGroup s t seg (fa + 2) x.pc m2

end Sys2Proof.Machine
end

