-- ==== Sys2Proof/Machine/Flags.lean ====
section
/-!
DEFINITION. The flags of fl and the results of the ALU, MUL and DEC units (spec chapter 04), as functions of the
sampled operands (R95).
-/

namespace Sys2Proof.Machine

/-! ### fl (R68, R69): bit 0 Z, 1 N, 2 C, 3 V, 4 D -/

def flZ (fl : Word) : Bool := fl.getLsbD 0
def flN (fl : Word) : Bool := fl.getLsbD 1
def flC (fl : Word) : Bool := fl.getLsbD 2
def flV (fl : Word) : Bool := fl.getLsbD 3
def flD (fl : Word) : Bool := fl.getLsbD 4

/-- fl from its five flags. -/
def flMk (z n c v d : Bool) : Word :=
  BitVec.ofNat 32 (b2n z + 2 * b2n n + 4 * b2n c + 8 * b2n v + 16 * b2n d)

/-- The sixteen conditions (R69). -/
def condTaken (cond : BitVec 4) (fl : Word) : Bool :=
  let z := flZ fl
  let n := flN fl
  let c := flC fl
  let v := flV fl
  match cond.toNat with
  | 0 => true
  | 1 => z
  | 2 => !z
  | 3 => c
  | 4 => !c
  | 5 => n
  | 6 => !n
  | 7 => v
  | 8 => !v
  | 9 => c && !z
  | 10 => !c || z
  | 11 => n == v
  | 12 => n != v
  | 13 => !z && n == v
  | 14 => z || n != v
  | _ => flD fl

/-! ### ALU (R97 to R100) -/

/-- The ALU's triggers. -/
inductive AluOp where
  | add | adc | sub | sbc | and | or | xor | andn | shl | shr | sar | rol | ror | cmp | tst
deriving DecidableEq, Repr

/-- The 33-bit sum of R97. -/
def aluSum (a w : Word) (cin : Bool) : Nat := a.toNat + w.toNat + b2n cin

/-- alu.nc of an addition: bit i is the carry out of nibble i (R99). -/
def aluNc (a w : Word) (cin : Bool) : Word :=
  BitVec.ofNat 32 ((List.range 8).foldl (fun acc i =>
    let m := 2 ^ (4 * i + 4)
    acc + b2n (m ≤ a.toNat % m + w.toNat % m + b2n cin) * 2 ^ i) 0)

/-- Result and flags of an addition of a and w with a carry in (R97, R98). -/
def aluAddWith (a w : Word) (cin : Bool) (fl : Word) : Word × Word :=
  let s := aluSum a w cin
  let r := BitVec.ofNat 32 s
  let v := a.getLsbD 31 == w.getLsbD 31 && r.getLsbD 31 != a.getLsbD 31
  (r, flMk (r == 0) (r.getLsbD 31) (2 ^ 32 ≤ s) v (flD fl))

/-- Z and N of a logic result; C, V and D as they were (R98). -/
def flLogic (r fl : Word) : Word := flMk (r == 0) (r.getLsbD 31) (flC fl) (flV fl) (flD fl)

/-- Z, N and, for a count above 0, C of a shift (R98). -/
def flShift (k : Nat) (r fl : Word) (c : Bool) : Word :=
  flMk (r == 0) (r.getLsbD 31) (if k = 0 then flC fl else c) (flV fl) (flD fl)

/-- What an ALU trigger computes: (alu.r, alu.nc) where it writes them, and fl (R97 to R100). -/
def aluOp (op : AluOp) (a v fl : Word) : Option (Word × Word) × Word :=
  let k := v.toNat % 32
  let logic (r : Word) : Option (Word × Word) × Word := (some (r, 0), flLogic r fl)
  let shift (r : Word) (c : Bool) : Option (Word × Word) × Word := (some (r, 0), flShift k r fl c)
  match op with
  | .add => let p := aluAddWith a v false fl; (some (p.1, aluNc a v false), p.2)
  | .adc => let p := aluAddWith a v (flC fl) fl; (some (p.1, aluNc a v (flC fl)), p.2)
  | .sub => let p := aluAddWith a (~~~v) true fl; (some (p.1, aluNc a (~~~v) true), p.2)
  | .sbc => let p := aluAddWith a (~~~v) (flC fl) fl; (some (p.1, aluNc a (~~~v) (flC fl)), p.2)
  | .and => logic (a &&& v)
  | .or => logic (a ||| v)
  | .xor => logic (a ^^^ v)
  | .andn => logic (a &&& ~~~v)
  | .shl => shift (a <<< k) (a.getLsbD (32 - k))
  | .shr => shift (a >>> k) (a.getLsbD (k - 1))
  | .sar => shift (a.sshiftRight k) (a.getLsbD (k - 1))
  | .rol => let r := a.rotateLeft k; shift r (r.getLsbD 0)
  | .ror => let r := a.rotateRight k; shift r (r.getLsbD 31)
  | .cmp => (none, (aluAddWith a (~~~v) true fl).2)
  | .tst => (none, flLogic (a &&& v) fl)

/-! ### MUL (R102) -/

inductive MulOp where
  | mulu | muls | mac
deriving DecidableEq, Repr

/-- The 64-bit result of a MUL trigger; `acc` is mul.hi ++ mul.lo before it. -/
def mulOp (op : MulOp) (a b : Word) (acc : BitVec 64) : BitVec 64 :=
  match op with
  | .mulu => a.zeroExtend 64 * b.zeroExtend 64
  | .muls => a.signExtend 64 * b.signExtend 64
  | .mac => acc + a.zeroExtend 64 * b.zeroExtend 64

/-! ### DEC: digits (R105, R106) -/

/-- Digit i of a word as a DEC trigger reads it: 0xA to 0xF read as 0 to 5. -/
def digitAt (w i : Nat) : Nat :=
  let d := w / 16 ^ i % 16
  if 9 < d then d - 10 else d

/-- The value of the n low digits of a word as a DEC trigger reads them. -/
def decVal : Nat → Nat → Nat
  | 0, _ => 0
  | n + 1, w => digitAt w 0 + 10 * decVal n (w / 16)

/-- Whether one of the n low digits is 0xA to 0xF. -/
def decBad : Nat → Nat → Bool
  | 0, _ => false
  | n + 1, w => decide (9 < w % 16) || decBad n (w / 16)

/-- The n low decimal digits of a value, packed. -/
def toBcd : Nat → Nat → Nat
  | 0, _ => 0
  | n + 1, v => v % 10 + 16 * toBcd n (v / 10)

def decWord (w : Word) : Nat := decVal 8 w.toNat

def bcdWord (v : Nat) : Word := BitVec.ofNat 32 (toBcd 8 v)

def badWord (w : Word) : Bool := decBad 8 w.toNat

/-- The DEC triggers that are no long micro-routine. -/
inductive DecOp where
  | add | adc | sub | sbc | adj | cmp | shl | shr | b2d | d2b | round
deriving DecidableEq, Repr

/-- What a DEC operation writes: dec.r, dec.rh where it writes it, D, and whether it met an invalid digit. -/
structure DecOut where
  r : Word
  rh : Option Word := none
  d : Bool
  bad : Bool
deriving DecidableEq, Repr

/-- dec.add, dec.adc: a sum modulo 10^8 and its carry (R109). -/
def decAdd (a v : Word) (cin : Bool) : DecOut :=
  let t := decWord a + decWord v + b2n cin
  { r := bcdWord (t % 10 ^ 8), d := decide (10 ^ 8 ≤ t), bad := badWord a || badWord v }

/-- dec.sub, dec.sbc: a difference modulo 10^8 and its borrow (R109). -/
def decSub (a v : Word) (bin : Bool) : DecOut :=
  let x := decWord a
  let y := decWord v + b2n bin
  { r := bcdWord ((x + 2 * 10 ^ 8 - y) % 10 ^ 8), d := decide (x < y), bad := badWord a || badWord v }

/-- The loop of dec.adj over the n nibbles that remain (R111): result nibbles and the last carry. -/
def decAdjLoop : Nat → Nat → Nat → Nat → Nat × Nat
  | 0, _, _, c => (0, c)
  | n + 1, v, nc, c =>
    let x := v % 16 + c
    let carried := nc % 2 = 1
    let y := if carried || 9 < x then x + 6 else x
    let c' := if carried then 0 else if 9 < x then 1 else 0
    let rest := decAdjLoop n (v / 16) (nc / 2) c'
    (y % 16 + 16 * rest.1, rest.2)

/-- dec.cmp's operand: signed in ten's complement when SCMP = 1 and digit 7 is 5 to 9 (R110). -/
def decSigned (scmp : Bool) (w : Word) : Int :=
  if scmp && 5 ≤ digitAt w.toNat 7 then (decWord w : Int) - 10 ^ 8 else decWord w

/-- The rounded quotient of R115 for k ≥ 1. -/
def decRoundQ (rnd x k : Nat) : Nat :=
  let q := x / 10 ^ k
  let m := x % 10 ^ k
  let half := 5 * 10 ^ (k - 1)
  if rnd = 0 then (if half ≤ m then q + 1 else q)
  else if rnd = 1 then (if half < m || (m = half && q % 2 = 1) then q + 1 else q)
  else q

/-- dec.mode's fields: RND, SCMP, PLACES (R106). -/
def modeRnd (m : Word) : Nat := bitsOf m.toNat 1 0
def modeScmp (m : Word) : Bool := m.getLsbD 2
def modePlaces (m : Word) : Nat := bitsOf m.toNat 7 4

/-- What a short DEC trigger computes (R109 to R115, R119); `nc` is alu.nc. -/
def decOp (op : DecOp) (a v mode nc fl : Word) : DecOut :=
  match op with
  | .add => decAdd a v false
  | .adc => decAdd a v (flD fl)
  | .sub => decSub a v false
  | .sbc => decSub a v (flD fl)
  | .adj =>
    let p := decAdjLoop 8 v.toNat nc.toNat 0
    { r := BitVec.ofNat 32 p.1, d := nc.getLsbD 7 || p.2 == 1, bad := false }
  | .cmp =>
    let x := decSigned (modeScmp mode) a
    let y := decSigned (modeScmp mode) v
    { r := if x = y then 0 else if y < x then 1 else 0x99999999, d := decide (x < y), bad := badWord a || badWord v }
  | .shl =>
    let t := decWord a * 10 ^ (v.toNat % 8)
    { r := bcdWord (t % 10 ^ 8), rh := some (bcdWord (t / 10 ^ 8)), d := decide (10 ^ 8 ≤ t), bad := badWord a }
  | .shr =>
    let k := v.toNat % 8
    let m := decWord a % 10 ^ k
    { r := bcdWord (decWord a / 10 ^ k), rh := some (if k = 0 then 0 else bcdWord (m * 10 ^ (8 - k))), d := m != 0,
      bad := badWord a }
  | .b2d =>
    { r := bcdWord (v.toNat % 10 ^ 8), rh := some (bcdWord (v.toNat / 10 ^ 8)), d := decide (10 ^ 8 ≤ v.toNat),
      bad := false }
  | .d2b =>
    let t := decVal 2 a.toNat * 10 ^ 8 + decWord v
    { r := BitVec.ofNat 32 t, d := decide (2 ^ 32 ≤ t), bad := decBad 2 a.toNat || badWord v }
  | .round =>
    let x := decWord a * 10 ^ 8 + decWord v
    let k := modePlaces mode
    let y := if k = 0 then x else decRoundQ (modeRnd mode) x k
    { r := bcdWord (y % 10 ^ 8), rh := some (bcdWord (y / 10 ^ 8)), d := k != 0 && x % 10 ^ k != 0,
      bad := badWord a || badWord v }

/-! ### The long routines dec.mulw and dec.divw (R116 to R118) -/

/-- h of R117: the highest digit of the multiplier, as read, that is not 0; looks at digits n - 1 down to 0. -/
def decHigh : Nat → Nat → Nat
  | 0, _ => 0
  | n + 1, w => if digitAt w n != 0 then n else decHigh n w

/-- Steps of a DEC routine by its sampled operands (R117, R118). -/
def decSteps (trig : BitVec 8) (a v : Word) : Nat :=
  if trig = 0x6A then 2 * (decHigh 8 v.toNat + 1)
  else if decWord v ≤ decWord a then 1 else 40

/-- What one step of a DEC routine leaves: the result ports, the binary word, D where the step writes it. -/
structure DecStep where
  r : Word
  rh : Word
  q : Word
  rm : Word
  bin : Word
  d : Option Bool
deriving DecidableEq, Repr

/-- Step `n` (from 1) of dec.mulw (R117). DESIGN CHOICE (log entry 62): digits above 9 that ctl.urest has put into the
accumulator count as d - 10. -/
def mulwStep (n : Nat) (a v : Word) (st : DecStep) : DecStep :=
  let j := (n - 1) / 2
  if n % 2 = 1 then
    let st := { st with bin := BitVec.ofNat 32 (decWord a * digitAt v.toNat j) }
    if j = 0 then { st with r := 0, rh := 0 } else st
  else
    let t := decWord st.rh * 10 ^ 8 + decWord st.r + st.bin.toNat * 10 ^ j
    let rh := bcdWord (t / 10 ^ 8 % 10 ^ 8)
    { st with r := bcdWord (t % 10 ^ 8), rh := rh,
              d := if j = decHigh 8 v.toNat then some (rh != 0) else none }

/-- The largest digit q with q d ≤ R, trying n down to 0. -/
def trialDigit : Nat → Nat → Nat → Nat
  | 0, _, _ => 0
  | n + 1, d, x => if (n + 1) * d ≤ x then n + 1 else trialDigit n d x

/-- Step `n` (from 1) of dec.divw (R118). DESIGN CHOICE (log entry 62): a remainder that ctl.urest has put in and that is not
below the divisor wraps at 32 bits, and its quotient digit is at most 9. -/
def divwStep (n : Nat) (a b v : Word) (st : DecStep) : DecStep :=
  let d := decWord v
  if d ≤ decWord a then { st with d := some true }
  else
    let st := if n = 1 then { st with q := 0, rm := bcdWord (decWord a), bin := BitVec.ofNat 32 (decWord a) } else st
    let i := 7 - (n - 1) / 5
    if n % 5 = 1 then
      { st with bin := BitVec.ofNat 32 (st.bin.toNat * 10 + digitAt b.toNat i) }
    else if n % 5 = 0 then
      let q := trialDigit 9 d st.bin.toNat
      let x := st.bin.toNat - q * d
      { st with bin := BitVec.ofNat 32 x, rm := bcdWord x,
                q := BitVec.ofNat 32 (bitsPut st.q.toNat (4 * i + 3) (4 * i) q),
                d := if n = 40 then some false else none }
    else st

end Sys2Proof.Machine
end

