-- ==== Sys2Proof/Machine/FerletCore.lean ====
section
/-!
DEFINITION. How a triad runs a move (spec chapters 03, 06 and 07): reading and writing ports, exception and interrupt
entry (R89 to R94) and the return from it, retirement with the loop-back (R158) and the retirement check (R208), long
micro-routines with their suspension and resumption (R162 to R167).
-/

namespace Sys2Proof.Machine

/-! ### The retirement check (R208) -/

/-- One bit of the CRC-64 (ECMA-182, not reflected). -/
def crc64Bits : Nat → BitVec 64 → BitVec 64
  | 0, c => c
  | n + 1, c => crc64Bits n (if c.getLsbD 63 then (c <<< 1) ^^^ 0x42F0E1EBA9EA3693 else c <<< 1)

/-- The CRC-64 after one more byte. -/
def crc64Byte (c : BitVec 64) (b : Byte) : BitVec 64 :=
  crc64Bits 8 (c ^^^ BitVec.ofNat 64 (b.toNat * 2 ^ 56))

/-- The CRC-64 after more bytes. -/
def crc64 (c : BitVec 64) (l : List Byte) : BitVec 64 := l.foldl crc64Byte c

/-- Word D of R208: flags, ctl.mode.S, loop depth. -/
def checkWordD (x : Triad) : Word :=
  BitVec.ofNat 32 ((port x 0x20).toNat % 32 + 256 * b2n (supervisor x) + 512 * x.loops.length)

/-- Feed one record into the check. -/
def feedCheck (x : Triad) (a b c : Word) : Triad :=
  let bytes := beBytes 4 a.toNat ++ beBytes 4 b.toNat ++ beBytes 4 c.toNat ++ beBytes 4 (checkWordD x).toNat
  { x with rcheck := crc64 x.rcheck bytes }

/-- Read a source (R60); a read of ctl.claim takes effect (R415). -/
def readSrc (s : State) (t : Nat) : Src → Word × State
  | .imm v => (v, s)
  | .port id =>
    if id = 0xDE then
      let (w, s) := claim s t
      (w, oweRead (traceNote s t 7 0 0 w) t (some .claim) w)
    else (readPort s t id, s)

/-! ### Exception and interrupt entry (R89 to R94) -/

/-- The words of the loop levels in a frame, level 1 first, empty levels zero (R92). -/
def frameLoops (loops : List LoopLevel) : List Word :=
  (loops.reverse.flatMap (fun (l : LoopLevel) => [l.start, l.stop, l.count]) ++ List.replicate 12 0).take 12

/-- The sixteen words of an entry frame (R92). -/
def frameWords (x : Triad) (ret : Word) (vec : Nat) : List Word :=
  [ret, port x 0x20,
   BitVec.ofNat 32 (b2n (supervisor x) + 2 * b2n (detMode x) + 4 * x.loops.length + 256 * vec),
   port x 0xDB] ++ frameLoops x.loops

/-- Store words at rising offsets of s7, as supervisor accesses; the state so far where one faults (R73). -/
def pushFrame (t : Nat) : List Word → Word → State → State × Bool
  | [], _, s => (s, true)
  | w :: r, o, s =>
    match segStore s t true 7 o 4 w with
    | .error e => (excSeen s t e, false)
    | .ok s => pushFrame t r (o + 4) s

/-- A triad whose entry cannot be made stops with FRAMEFAULT (R94), as any stop does, but that the weft's stage timeout
aborts its transaction (R219). -/
def frameFault (s : State) (t : Nat) : State :=
  let s := stopCores (logFault s .frameFault noElem t 0) t
  nextRebuild (setT s t { getT s t with voter := {} }) (clusterOf t)

/-- ctl.cause (R89). -/
def causeWord (e : Exc) (pair : Bool) : Word :=
  BitVec.ofNat 32 (e.vec + 256 * e.sub + 2 ^ 16 * b2n e.fetch + 2 ^ 17 * b2n e.wr + 2 ^ 18 * b2n pair)

/-- The issued reads whose moves an entry that returns to `pc` discards (R204). DESIGN CHOICE (log entry 65): a request that one
position alone has presented, and that is not issued, stays in its stream. -/
def discardReads (v : Voter) (pc : Word) : Voter :=
  { v with taken := v.taken.map (fun k => if k.pc.isNone then { k with pc := some pc } else k) }

/-- Entry to a vector: frame, ctl.cause and ctl.fadr, supervisor mode, loop depth 0, fetch at the vector (R91). An exception
takes the place of an interrupt entry that was agreed, whose source stays accepted and gets a new point (R191). -/
def enterVector (s : State) (t : Nat) (e : Exc) (ret : Word) (pair : Bool) : State :=
  let x := getT s t
  let ksp := port x 0xD9 - 64
  let (s, ok) := pushFrame t (frameWords x ret e.vec) ksp s
  if ok then
    let x := getT s t
    let x := setPort x 0xD9 ksp
    let x := setPort x 0xDC (causeWord e pair)
    let x := setPort x 0xDD e.fadr
    let x := setPort x 0xDB 0
    let x := setPort x 0xDA (port x 0xDA ||| 1)
    let x := { x with loops := [], run := none, rtiCheck := false, waiting := false, pairA := none, entered := true,
                      group := none, landed := false,
                      point := none, due := x.due && e.vec < 16, voter := discardReads x.voter ret,
                      pc := port x 0xD8 + BitVec.ofNat 32 (0x40 * e.vec) }
    setT s t (feedCheck x ret (BitVec.ofNat 32 (0xFFFE0000 + e.vec)) e.fadr)
  else frameFault s t

/-- An exception of the move at the PC (R90, R93). -/
def raise (s : State) (t : Nat) (e : Exc) (pair : Bool) : State :=
  let s := excSeen s t e
  enterVector s t e (getT s t).pc pair

/-- The fetch exception of a triad: that of a target names the target in ctl.fadr whatever its vector (R150). DEDUCED (log entry
50): R150 is taken before the table of R89 for vectors 7 and 8. -/
def fetchExc (x : Triad) (e : Exc) : Exc := if x.landed then { e with fadr := x.pc } else e

/-- An exception that the fetch of the move at the PC raises: at a vector, before a move of the handler has retired, it
stops the triad (R94). -/
def raiseFetch (s : State) (t : Nat) (e : Exc) (pair : Bool) : State :=
  let x := getT s t
  if x.entered then frameFault (excSeen s t e) t else raise s t (fetchExc x e) pair

/-! ### Retirement (R158, R163, R208) -/

/-- The loop-back at a next PC: at most one pass over the levels (R158). -/
def loopBack : List LoopLevel → Word → List LoopLevel × Word
  | [], pc => ([], pc)
  | l :: r, pc =>
    if l.stop = pc then
      if 1 < l.count.toNat then ({ l with count := l.count - 1 } :: r, l.start) else loopBack r pc
    else (l :: r, pc)

/-- A move retires: loop-back unless it is br.rti, count, check, pairing. C of R208 is `c`, or the PC after the move where it
is none. DEDUCED (log entry 51): any move but br.rti triggers the loop-back, and C and D are those after it. -/
def retireOf (x : Triad) (m : Move) (c : Option Word) (npc : Word) (pair rti : Bool) : Triad :=
  let p := if rti then (x.loops, npc) else loopBack x.loops npc
  let y := { x with loops := p.1, pc := p.2, rcount := x.rcount + 1, entered := false, run := none,
                    rtiCheck := rti, landed := x.landed && p.2 == npc,
                    group := if p.2 = x.pc + BitVec.ofNat 32 m.len then x.group else none,
                    pairA := if mayLead m.op && !pair then
                        some { next := x.pc + BitVec.ofNat 32 m.len, len := m.len, dst := BitVec.ofNat 8 (dstOf m.op) }
                      else none }
  feedCheck y x.pc m.enc (c.getD p.2)

/-- One counted retirement has been made: a triad that was released for one step halts again, and one for which HALT has agreed a
count halts there, or in ctl.wait before it (R603). -/
def counted (s : State) (t : Nat) (x : Triad) : State :=
  let s := setT s t { x with bptPass := false }
  if (x.stepping || x.haltAt == some x.rcount || (x.haltAt.isSome && x.waiting)) && !flag s MOD_STATUS MOD_STATUS_SEALED then
    haltTriad s t
  else s

/-- A move retires (R158, R163, R208). -/
def retire (s : State) (t : Nat) (x : Triad) (m : Move) (c : Option Word) (npc : Word) (pair rti : Bool) : State :=
  counted s t (retireOf x m c npc pair rti)

/-- An intermediate step of a long micro-routine counts as a retirement (R163, R208). -/
def retireStep (s : State) (t : Nat) (x : Triad) (unit k : Nat) : State :=
  counted s t (feedCheck { x with rcount := x.rcount + 1, entered := false } x.pc
    (BitVec.ofNat 32 (0xFFFF0000 + unit * 0x100 + k)) 0)

/-! ### What a move's effect answers -/

/-- What a move's unit answers before the move retires: an exception; the state, C of R208 and the next PC (none: the
move after), and whether a jump, branch or return has made it its target (R150); a long routine that starts or resumes;
ctl.wait; ctl.trap; br.rti. -/
inductive Eff where
  | exc (e : Exc)
  | done (s : State)
  | jump (s : State) (npc : Word) (taken : Bool)
  | moved (s : State) (npc : Word)
  | start (s : State) (r : Routine)
  | wait
  | trap
  | rti (s : State) (npc : Word)
deriving Repr

/-! ### Steps of the long routines -/

/-- One step of the DEC routine (R117, R118), BAD at step 1 (R106); true when it was the last. -/
def decStep (x : Triad) : Triad × Bool :=
  let d := x.dec
  let n := d.step + 1
  let st : DecStep := { r := port x 0x53, rh := port x 0x54, q := port x 0x55, rm := port x 0x56, bin := d.bin, d := none }
  let st := if d.trig = 0x6A then mulwStep n d.a d.v st else divwStep n d.a d.b d.v st
  let x := setPort (setPort (setPort (setPort x 0x53 st.r) 0x54 st.rh) 0x55 st.q) 0x56 st.rm
  let x := match st.d with
    | some b => setPort x 0x20 ((port x 0x20 &&& 0xF) ||| BitVec.ofNat 32 (16 * b2n b))
    | none => x
  let bad := badWord d.a || badWord d.v || (d.trig = 0x6B && badWord d.b)
  let x := if n = 1 && bad then setPort x 0x52 (port x 0x52 ||| 0x100) else x
  ({ x with dec := { d with step := n, bin := st.bin } }, n = decSteps d.trig d.a d.v)

/-- Elements of a gather: min (N, 16) (R143). -/
def gthCount (g : GthState) : Nat := min g.n.toNat 16

/-- The local store address of index k (R143). -/
def gthIndexAddr (g : GthState) (k : Nat) : Nat := (g.idx.toNat + 2 * k) % 0x20000

/-- The gather fault that an element's plain fault becomes (R144). -/
def gthExc (e : Exc) (o : Word) : Exc := { vec := 5, sub := e.vec, fadr := o, ext := e.ext, count := e.count, caddr := e.caddr, meet := e.meet }

/-- What the i-th of a move's loads finds. -/
def Circ.load (c : Circ) (i : Nat) : Meet := if c.word.toNat = i then c.data else {}

/-- One element of a gather (R143 to R145): its index is the first word it reads, the element the second. -/
def gthStep (s : State) (t : Nat) (c : Circ) : Except Exc State :=
  let x := getT s t
  let g := x.gth
  let k := (port x 0x8B).toNat
  let ia := gthIndexAddr g k
  let s := meetWord s t (lsKey t ia) (Circ.load c 0)
  if poisoned s (lsKey t ia) then
    .error { vec := 5, sub := 6, fadr := BitVec.ofNat 32 ia, meet := found t (lsKey t ia) (some (oneWord (Circ.load c 0))) }
  else
    let i := leNat (getBytes s (lsKey t ia) 2)
    let o := g.base + BitVec.ofNat 32 (4 * i)
    match segLoad s t (supervisor x) 2 g.seg.toNat o 4 (Circ.load c 1) with
    | .error e => .error (gthExc e o)
    | .ok (w, s) =>
      let x := getT s t
      .ok (setT s t (setPort (setPort x (0x90 + k) w) 0x8B (BitVec.ofNat 32 (k + 1))))

/-- The registers of a call mask in ascending order. -/
def maskRegs (mask : BitVec 16) : List Nat := ((List.range 16).filter (fun i => mask.getLsbD i)).map (· + 16)

/-- Target of a call with mask at `pc` (R154). -/
def callTarget (x : Triad) (tgtSrc : Bool) (off : BitVec 12) : Word :=
  if tgtSrc then port x 0xA0 else x.pc + 2 * off.signExtend 32

/-- The frame word of a call (R152). -/
def callFrame (mask : BitVec 16) (ra : Word) : Word := BitVec.ofNat 32 (mask.toNat * 2 ^ 16 + ra.toNat / 2 % 2 ^ 16)

/-- The offset in s2 of the store that step k + 1 of a call makes (R154). -/
def callOffset (x : Triad) (mask : BitVec 16) (k : Nat) : Word :=
  if k = 0 then port x 0x1F - BitVec.ofNat 32 (4 * (1 + (maskRegs mask).length)) else port x 0x1F + BitVec.ofNat 32 (4 * k)

/-- The exception of a call's store at offset o: WRITE = 1, and ctl.fadr holds the offset (R154). DEDUCED (log entry 50): R154 is
taken before the table of R89 for vectors 7 and 8. -/
def callExc (e : Exc) (o : Word) : Exc := { e with wr := true, fadr := o }

/-- Step k + 1 of a call with mask (R154). -/
def callStep (s : State) (t : Nat) (mask : BitVec 16) (k : Nat) : Except Exc State :=
  let x := getT s t
  let sup := supervisor x
  let m := (maskRegs mask).length
  let g31 := port x 0x1F
  let o := callOffset x mask k
  if k = 0 then
    match segStore s t sup 2 o 4 (callFrame mask (x.pc + 4)) with
    | .error e => .error (callExc e o)
    | .ok s => .ok (setT s t (setPort (getT s t) 0x1F o))
  else
    let r := (maskRegs mask).getD (k - 1) 16
    let v := if r = 31 then g31 + BitVec.ofNat 32 (4 * (1 + m)) else port x r
    match segStore s t sup 2 o 4 v with
    | .error e => .error (callExc e o)
    | .ok s => .ok s

/-- The checks before every run of a call that makes step k + 1 first (R153, R154). Where that step's store is misaligned the
return address is not checked: the step raises its alignment exception, which comes first (R91). -/
def callCheck (x : Triad) (mask : BitVec 16) (tgtSrc : Bool) (off : BitVec 12) (k : Nat) : Option Exc :=
  let tgt := callTarget x tgtSrc off
  let ra := x.pc + 4
  if tgt.getLsbD 0 then some { vec := 4, fadr := tgt, fetch := true }
  else if (port x 0xC2 + callOffset x mask k).toNat % 4 != 0 then none
  else if 0x20000 ≤ ra.toNat then some { vec := 2, fadr := ra, fetch := true }
  else none

/-- Total steps of the routine under way (R162). -/
def routineSteps (x : Triad) : Routine → Nat
  | .dec _ => decSteps x.dec.trig x.dec.a x.dec.v
  | .gth _ _ => gthCount x.gth
  | .call mask _ _ _ => 1 + (maskRegs mask).length

/-- Unit ID of a routine. -/
def routineUnit : Routine → Nat
  | .dec _ => 1
  | .gth _ _ => 4
  | .call _ _ _ _ => 5

/-- The move of a routine that is under way, as its retirement records it. -/
def routineMove (r : Running) : Move :=
  { op := match r.routine with
      | .dec trig => .mv trig.toNat (.imm 0) 0
      | .gth trig _ => .mv trig.toNat (.imm 0) 0
      | .call m b o _ => .call m b o
    len := r.len, enc := r.enc }

/-- The last step has been done: the trigger move retires (R163); a resumed routine clears ctl.prog (R165).
SUSP stays as it is: no more than the triggers and ctl.urest change it (R167). -/
def finishRoutine (s : State) (t : Nat) (r : Running) : State :=
  let x := getT s t
  let x := if r.resumed then setPort x 0xDB 0 else x
  match r.routine with
  | .call _ b o _ => retire s t { x with landed := true } (routineMove r) none (callTarget x b o) r.pair false
  | .dec _ | .gth _ _ => retire s t x (routineMove r) (some r.value) (x.pc + BitVec.ofNat 32 r.len) r.pair false

/-- One step of the routine under way has been done without fault. -/
def afterStep (s : State) (t : Nat) (r : Running) (k : Nat) : State :=
  let x := getT s t
  if k = routineSteps x r.routine then finishRoutine s t r
  else retireStep s t { x with run := some r } (routineUnit r.routine) k

/-- A gather element fails: the trace records it, the gather suspends and the gather fault is raised (R144, R164). -/
def gthFail (s : State) (t : Nat) (e : Exc) (pair : Bool) : State :=
  let s := if e.ext then traceNote s t 2 e.sub (if e.sub = 7 then 2 else 0) 0 else s
  raise (setT s t (suspend (getT s t))) t { e with ext := false } pair

/-- What a fresh trigger of a routine does: it samples the operand ports and the trigger value, clears SUSP, and gth.go starts
from element 0 (R62, R143, R167). -/
def beginRoutine (x : Triad) (v : Word) : Routine → Triad
  | .dec trig =>
    { x with dec := { susp := false, trig := trig, step := 0, a := port x 0x50, b := port x 0x51, v := v, bin := 0 } }
  | .gth trig seg =>
    let x := { x with gth := { susp := false, trig := trig, v := v, base := port x 0x88, idx := port x 0x89, n := port x 0x8A,
                               seg := seg } }
    if trig = 0x8C then setPort x 0x8B 0 else x
  | .call _ _ _ _ => x

/-- One step of routine r of triad t under circumstances c: its effect and its count as one retirement, or its exception, on
which it suspends (R163, R164). -/
def stepOf (s : State) (t : Nat) (r : Running) (c : Circ) : State :=
  let x := getT s t
  match r.routine with
  | .dec _ =>
    if decSteps x.dec.trig x.dec.a x.dec.v ≤ x.dec.step then finishRoutine s t r
    else
      let (x, _) := decStep x
      afterStep (setT s t x) t r x.dec.step
  | .gth _ _ =>
    if gthCount x.gth ≤ (port x 0x8B).toNat then finishRoutine s t r
    else
      match gthStep s t c with
      | .error e => gthFail s t e r.pair
      | .ok s => afterStep s t r (port (getT s t) 0x8B).toNat
  | .call mask b o k =>
    match callStep s t mask k with
    | .error e => raise (setT s t (suspend { x with run := some r })) t e r.pair
    | .ok s => afterStep s t { r with routine := .call mask b o (k + 1) } (k + 1)

/-- One step of the long micro-routine under way; no effect when none is. -/
def routineStep (s : State) (t : Nat) (c : Circ) : State :=
  match (getT s t).run with
  | none => s
  | some r => stepOf s t r c

/-- A routine of triad t starts, or resumes, with its first step: `r` is what it is (R62, R163, R166). -/
def startRoutine (s : State) (t : Nat) (r : Running) (c : Circ) : State :=
  let x := getT s t
  let x := if r.resumed then x else beginRoutine x r.value r.routine
  routineStep (setT s t { x with run := some r, pairA := none }) t c

/-! ### Entry at an agreed point (R164, R188, R207) -/

/-- Entry to vector 16 + p of triad t at the present retirement count: a routine under way suspends between two steps. -/
def enterInterrupt (s : State) (t p : Nat) : State :=
  let s := setT s t (suspend (getT s t))
  let s := traceNote s t 9 0 0 (BitVec.ofNat 32 (16 + p))
  -- an ENTRY record holds N itself (R600)
  let s := { s with aud := { s.aud with made := s.aud.made.map (fun r => { r with count := (getT s t).rcount }) } }
  traceCommit { s with aud := { s.aud with made := [] } }
    (enterVector s t { vec := 16 + p } (getT s t).pc false)

/-- Whether triad t stands at its agreed point: it has retired move N, or waits in ctl.wait (R189), and is not halted. -/
def pointDue (s : State) (t : Nat) : Bool :=
  let x := getT s t
  match x.point with
  | none => false
  | some (n, _) => (x.waiting || x.rcount == n) && !x.halted && triadLive s t

/-- The entry agreed for this retirement count is made (R207). -/
def atPoint (s : State) (t : Nat) : State :=
  match (getT s t).point with
  | none => s
  | some (_, p) => if pointDue s t then enterInterrupt s t p else s

/-- One step of triad t's routine, with the trace's hold (R601), and the entry that is agreed for the count reached. -/
def tracedStep (s : State) (t : Nat) (c : Circ) : State := atPoint (traceCommit s (routineStep s t c)) t

/-- Steps until the routine ends or suspends, or the triad halts; a routine has at most 40. -/
def runRoutine : Nat → Nat → State → State
  | 0, _, s => s
  | n + 1, t, s => if (getT s t).run.isSome && !(getT s t).halted then runRoutine n t (tracedStep s t {}) else s

/-- Complete the routine under way, as a later move waits for it (R64, R65, R163). -/
def completeRoutine (s : State) (t : Nat) : State := runRoutine 41 t s

/-! ### Resumption (R166) -/

/-- Whether the move at the restored PC continues the suspended routine that ctl.prog names (R166). -/
def resumes (x : Triad) (op : MoveOp) : Bool :=
  let p := (port x 0xDB).toNat
  let unit := bitsOf p 27 24
  let trig := bitsOf p 23 16
  let step := bitsOf p 7 0
  bitsOf p 31 31 = 1 &&
    match op with
    | .call mask _ _ => unit = 5 && step < 1 + (maskRegs mask).length
    | .mv dst _ _ =>
      (unit = 1 && (dst = 0x6A || dst = 0x6B) && dst = trig && x.dec.susp && x.dec.step = step) ||
      (unit = 4 && (dst = 0x8C || dst = 0x8D) && dst = trig && x.gth.susp && (port x 0x8B).toNat = step)
    | .hi _ _ | .branch _ _ => false

/-- The check of R166 on the move after br.rti: the routine that continues with the value it retires with, or the triad
without its suspended state. A resumption leaves SUSP set (R167). -/
def resumeCheck (x : Triad) (op : MoveOp) : Triad × Option (Routine × Word) :=
  let x := { x with rtiCheck := false }
  if resumes x op then
    match op with
    | .call mask b o => (x, some (.call mask b o (bitsOf (port x 0xDB).toNat 7 0), 0))
    | .mv dst _ _ =>
      let trig := BitVec.ofNat 8 dst
      if dst = 0x6A || dst = 0x6B then ({ x with dec := { x.dec with trig := trig } }, some (.dec trig, x.dec.v))
      else ({ x with gth := { x.gth with trig := trig } }, some (.gth trig x.gth.seg, x.gth.v))
    | .hi _ _ | .branch _ _ => (x, none)
  else
    let unit := bitsOf (port x 0xDB).toNat 27 24
    let x := setPort x 0xDB 0
    let x := if unit = 1 then { x with dec := { x.dec with susp := false } } else x
    (if unit = 4 then { x with gth := { x.gth with susp := false } } else x, none)

end Sys2Proof.Machine
end

