-- ==== Sys2Proof/Machine/FerletRun.lean ====
section
/-!
DEFINITION. One move of a triad from fetch to retirement (spec chapters 03, 06, 07 and 24): breakpoint and step, the
exceptions in the order of R91, the resumption check, the effect of its unit, retirement, and interrupt entry.
-/

namespace Sys2Proof.Machine

/-- Whether triad t issues moves: started, not stopped, its cluster's domain ON, neither waiting nor halted, no rebuild of it
under way but for an interrupt entry that comes first (R215, R217). -/
def issues (s : State) (t : Nat) : Bool :=
  let x := getT s t
  triadLive s t && domOn s (4 + clusterOf t) && !x.waiting && !x.halted &&
    (!flag s (SUP_TRIAD t) SUP_TRIAD_PAUSED || x.point.isSome)

/-- Whether the breakpoint falls on the move at triad t's PC (R603). -/
def breakHere (s : State) (t : Nat) : Bool :=
  let x := getT s t
  !flag s MOD_STATUS MOD_STATUS_SEALED && flag s DBG_BPT DBG_BPT_EN && s.aud.bptTriad.toNat == t &&
    getF s DBG_BPT DBG_BPT_PC * 2 == x.pc.toNat && !x.bptPass

/-- The effect of the unit a move writes: state, triad, transported value, SEG, move, the routine that resumes. -/
abbrev UnitEff := State → Nat → Word → BitVec 3 → Move → Option Routine → Eff

/-- C of R208 for a move that transports v, where it is not the PC after the move. -/
def valueC (x : Triad) (op : MoveOp) (v : Word) : Word :=
  match op with
  | .hi dst _ => port x dst
  | .mv _ _ _ | .branch _ _ | .call _ _ _ => v

/-- The retirement of a move by what its effect answers. -/
def settleMove (s : State) (t : Nat) (m : Move) (v : Word) (resumed pair : Bool) (c : Circ) : Eff → State
  | .exc e => raise s t e pair
  | .done s =>
    let x := getT s t
    retire s t x m (some (valueC x m.op v)) (x.pc + BitVec.ofNat 32 m.len) pair false
  | .jump s npc taken => retire s t { getT s t with landed := taken } m none npc pair false
  | .moved s npc => retire s t (getT s t) m (some v) npc pair false
  | .start s r => startRoutine s t { routine := r, value := v, enc := m.enc, len := m.len, resumed := resumed, pair := pair } c
  | .wait =>
    let x := getT s t
    retire s t { x with waiting := true } m (some v) (x.pc + BitVec.ofNat 32 m.len) pair false
  | .trap =>
    let x := getT s t
    let s := retire s t x m (some v) (x.pc + BitVec.ofNat 32 m.len) pair false
    enterVector s t { vec := 11, sub := 1, fadr := v } (getT s t).pc pair
  | .rti s npc => retire s t { getT s t with landed := true } m none npc pair true

/-- The source of a move. -/
def srcOf : MoveOp → Src
  | .mv _ src _ => src
  | .hi _ _ | .branch _ _ | .call _ _ _ => .imm 0

def segOf : MoveOp → BitVec 3
  | .mv _ _ seg => seg
  | .hi _ _ | .branch _ _ | .call _ _ _ => 0

/-- The check of R166 on the move at a restored PC; any other move needs none. -/
def checkResume (s : State) (t : Nat) (op : MoveOp) : State × Option (Routine × Word) :=
  if !(getT s t).rtiCheck then (s, none)
  else
    let p := resumeCheck (getT s t) op
    (setT s t p.1, p.2)

/-- The transported value of a move: its source's, or the one that the trigger of a resumed routine transported, whose source
is not read again (R166, R204). -/
def moveValue (s : State) (t : Nat) (op : MoveOp) (resume : Option (Routine × Word)) : Word × State :=
  match resume with
  | some (_, v) => (v, s)
  | none => readSrc s t (srcOf op)

/-- A decoded move whose fetch has succeeded: illegal port, privilege, resumption check, source, effect (R91, R166). DEDUCED
(log entry 54): the exceptions of ports come before the resumption check, and leave ctl.prog as br.rti restored it. -/
def execMove (s : State) (t : Nat) (m : Move) (pair : Bool) (c : Circ) (eff : UnitEff) : State :=
  let x := getT s t
  match portExc (supervisor x) m.op with
  | some e => raise s t e pair
  | none =>
    let (s, resume) := checkResume s t m.op
    let (v, s') := moveValue s t m.op resume
    match eff s' t v (segOf m.op) m (resume.map (·.1)) with
    | .exc e => raise s t e pair
    | r => settleMove s' t m v resume.isSome pair c r

/-- The value that a move's source holds, read without effect. -/
def srcValue (s : State) (t : Nat) (op : MoveOp) : Word :=
  match srcOf op with
  | .imm v => v
  | .port id => readPort s t id

/-- Whether the move at hand is B of a pair (R86). DEDUCED (log entry 55): one with an illegal encoding, which reads and writes
nothing, pairs where its length allows it (R87). -/
def pairNow (s : State) (t : Nat) (m : Except Exc Move) (len : Nat) : Bool :=
  let x := getT s t
  match x.pairA, m with
  | some a, .ok mv => pairsWith (detMode x) a x.pc mv (srcValue s t mv.op)
  | some a, .error _ => pairFits (detMode x) a x.pc len
  | none, _ => false

/-- The move at the PC, from its fetch on. -/
def fetchAndRun (s : State) (t : Nat) (m : Except Exc Move) (len : Nat) (c : Circ) (eff : UnitEff) : State :=
  let pair := pairNow s t m len
  match fetchMove s t len c.fetch c.fetch2 with
  | .error e => raiseFetch s t e pair
  | .ok s =>
    match m with
    | .error e => raise s t e pair
    | .ok mv => execMove s t mv pair c eff

/-- The move at the PC, unless a breakpoint falls there, and the entry that is agreed for the count it reaches. -/
def oneMove (s : State) (t : Nat) (m : Except Exc Move) (len : Nat) (c : Circ) (eff : UnitEff) : State :=
  if breakHere s t then haltTriad s t else atPoint (traceCommit s (fetchAndRun s t m len c eff)) t

/-- A move of a triad that issues: it waits for a routine under way, and is discarded when that routine faults or an entry
comes first; a triad released for one step makes only the routine's step (R603). -/
def moveOrStep (s : State) (t : Nat) (m : Except Exc Move) (len : Nat) (c : Circ) (eff : UnitEff) : State :=
  if pointDue s t then atPoint s t
  else if (getT s t).run.isSome then
    if (getT s t).stepping then tracedStep s t {}
    else
      let s := completeRoutine s t
      if (getT s t).entered || !issues s t || (getT s t).run.isSome then s else oneMove s t m len c eff
  else oneMove s t m len c eff

/-! ### Skew of the positions (R203, R206) -/

/-- The position that does not retire the move at hand with the two others; a duplex has none to spare. -/
def latePos (s : State) (t : Nat) (late : Option (BitVec 2)) : Option Nat :=
  match late with
  | none => none
  | some p => if p.toNat < 3 && (livePositions s t).length == 3 then some p.toNat else none

/-- Before a move: who trails in it. -/
def trail (s : State) (t : Nat) (late : Option (BitVec 2)) : State :=
  match latePos s t late with
  | none => s
  | some p =>
    let x := getT s t
    setT s t { x with voter := { x.voter with late := some p } }

/-- Every position stands at the triad's count and has presented what the others have; no issued read waits for its move. -/
def together (x : Triad) : Bool :=
  x.voter == { waiting := x.voter.waiting } && x.pos0.behind == 0 && x.pos1.behind == 0 && x.pos2.behind == 0

/-- The voter once the moves of this command have retired: reads whose moves have retired are forgotten, and all positions but
`keep` have presented what they owed. -/
def keepUp (v : Voter) (keep : Option Nat) (moved : Bool) : Voter :=
  { v with owed := v.owed.filter (fun o => some o.pos == keep), late := none,
           taken := if moved then v.taken.filter (fun k => k.pc.isSome) else v.taken }

/-- The positions after the triad has made n more retirements: `keep` falls further behind, the others are at its count. -/
def fallBack (x : Triad) (keep : Option Nat) (n : Nat) : Triad :=
  let f (p : Nat) (v : Position) : Position := { v with behind := if some p = keep then v.behind + n else 0 }
  { x with pos0 := f 0 x.pos0, pos1 := f 1 x.pos1, pos2 := f 2 x.pos2 }

/-- A position trails too far: by more than 128 retirements, or with more than 32 results held for it (R203, R206). -/
def tooFar (x : Triad) : Bool :=
  128 < x.pos0.behind || 128 < x.pos1.behind || 128 < x.pos2.behind ||
    32 < (x.voter.owed.filter (fun o => o.res.isSome)).length

/-- A move that went from state `old` to `new`: the leading positions are held in XF, and the move waits, where the trailing one
would be left too far behind. -/
def keepPace (old new : State) (t : Nat) : State :=
  let x := getT new t
  if together x then new
  else
    let n := (x.rcount - (getT old t).rcount).toNat
    let y := { fallBack x x.voter.late n with voter := keepUp x.voter x.voter.late (n != 0) }
    if tooFar y then old else setT new t y

/-- A position that alone met a double-bit error in its local store diverges; in duplex the two disagree (R218, R231). -/
def splitDone (s : State) (t : Nat) : State :=
  match (getT s t).split with
  | none => s
  | some p =>
    let s := setT s t { getT s t with split := none }
    if (livePositions s t).length = 3 then diverge s t p 3 else disagree s t 3

/-- One command that runs moves of triad t, `f` being what its two leading positions do. -/
def runLed (s : State) (t : Nat) (c : Circ) (f : State → State) : State :=
  if issues s t then splitDone (keepPace s (f (trail s t c.late)) t) t else s

/-- One move of triad t; a triad that does not issue ignores it. -/
def runMove (s : State) (t : Nat) (m : Except Exc Move) (len : Nat) (c : Circ) (eff : UnitEff) : State :=
  runLed s t c (fun s => moveOrStep s t m len c eff)

/-- One move with destination port `dst` in the given form. -/
def runForm (s : State) (t : Nat) (dst : Nat) (f : MoveForm) (c : Circ) (eff : UnitEff) : State :=
  runMove s t (moveOf dst f) (formLen f) c eff

/-- One step of the routine under way, for a triad that issues. -/
def stepOnly (s : State) (t : Nat) (c : Circ) : State := runLed s t c (fun s => tracedStep s t c)

/-! ### Accepting an interrupt (R188 to R193, R207, R412, R413) -/

/-- The priority at which the reservation of triad t was made. -/
def reservedPrio (s : State) (t : Nat) : Option Nat :=
  match (getBank s t).resv with
  | some (_, p) => some p.toNat
  | none => none

/-- Whether the voter of triad t accepts an interrupt: the triad runs or waits in ctl.wait, is not halted, and no rebuild
of it is under way (R217, R603). -/
def acceptsInterrupt (s : State) (t : Nat) : Bool :=
  triadLive s t && domOn s (4 + clusterOf t) && !(getT s t).halted && !flag s (SUP_TRIAD t) SUP_TRIAD_PAUSED

/-- Reserve the source presented to triad t, if there is one; true when one was reserved. -/
def acceptPresented (s : State) (t : Nat) : State × Bool :=
  match presented s t with
  | some id => (reserve s t id, true)
  | none => (s, false)

/-- An event of the source with claim ID `id`, private to triad t below 32. -/
def claimEvent (s : State) (t id : Nat) : State :=
  if id < 32 then privEvent s t id else if id < 544 then srcEvent s (id - 32) else s

end Sys2Proof.Machine
end

