-- ==== Sys2Proof/Machine/FerletUnits.lean ====
section
/-!
DEFINITION. The effects of the Ferlet units on a move that writes one of their ports (spec chapters 03 to 06, 10 and
15), each as a `UnitEff` that `runMove` carries from fetch to retirement.
-/

namespace Sys2Proof.Machine

/-- A write of a CTL port that reaches shared state is an effect that the voter releases (R198). -/
def oweCtl (s : State) (t id : Nat) (v : Word) : State :=
  if 0xD8 ≤ id && id ≤ 0xDB then owe s t (.eff (.ctl (BitVec.ofNat 8 id) v)) none else s

/-- A move that writes an RW port (R60, R61). -/
def writeEff : UnitEff := fun s t v _ m _ =>
  .done (oweCtl (setT s t (writePort (getT s t) (dstOf m.op) v)) t (dstOf m.op) v)

/-- An immediate move with HI = 1 (R80). -/
def hiEff (v : BitVec 16) : UnitEff := fun s t _ _ m _ =>
  let x := getT s t
  let old := port x (dstOf m.op)
  .done (setT s t (setPort x (dstOf m.op) (BitVec.ofNat 32 (v.toNat * 65536 + old.toNat % 65536))))

/-- A conditional branch (R69, R81). -/
def branchEff (cond : BitVec 4) (off : BitVec 24) : UnitEff := fun s t _ _ _ _ =>
  let x := getT s t
  if condTaken cond (port x 0x20) then .jump s (x.pc + 2 * off.signExtend 32) true else .jump s (x.pc + 4) false

/-- A call with mask starts or resumes its routine after the checks of every run (R153, R154). -/
def callEff (mask : BitVec 16) (tgtSrc : Bool) (off : BitVec 12) : UnitEff := fun s t _ _ _ r =>
  let r := r.getD (.call mask tgtSrc off 0)
  match callCheck (getT s t) mask tgtSrc off (stepsDone (getT s t) r) with
  | some e => .exc e
  | none => .start s r

/-- An ALU trigger (R97 to R100). -/
def aluEff (op : AluOp) : UnitEff := fun s t v _ _ _ =>
  let x := getT s t
  let p := aluOp op (port x 0x30) v (port x 0x20)
  let x := match p.1 with
    | some (r, nc) => setPort (setPort x 0x31 r) 0x32 nc
    | none => x
  .done (setT s t (setPort x 0x20 p.2))

/-- A MUL trigger (R102). -/
def mulEff (op : MulOp) : UnitEff := fun s t _ _ _ _ =>
  let x := getT s t
  let acc := BitVec.ofNat 64 ((port x 0x73).toNat * 2 ^ 32 + (port x 0x72).toNat)
  let p := mulOp op (port x 0x70) (port x 0x71) acc
  .done (setT s t (setPort (setPort x 0x72 (BitVec.ofNat 32 p.toNat)) 0x73 (BitVec.ofNat 32 (p.toNat / 2 ^ 32))))

/-- fl with a new D. -/
def flWithD (fl : Word) (d : Bool) : Word := (fl &&& 0xF) ||| BitVec.ofNat 32 (16 * b2n d)

/-- A DEC trigger that is no long micro-routine: dec.r, dec.rh, D, the sticky BAD, SUSP cleared (R106 to R115, R119,
R167). -/
def decEff (op : DecOp) : UnitEff := fun s t v _ _ _ =>
  let x := getT s t
  let o := decOp op (port x 0x50) v (port x 0x52) (port x 0x32) (port x 0x20)
  let x := setPort x 0x53 o.r
  let x := match o.rh with
    | some w => setPort x 0x54 w
    | none => x
  let x := setPort x 0x20 (flWithD (port x 0x20) o.d)
  let x := if o.bad then setPort x 0x52 (port x 0x52 ||| 0x100) else x
  .done (setT s t { x with dec := { x.dec with susp := false } })

/-- dec.mulw and dec.divw start or resume; a zero divisor raises the exception before step 1 (R117, R118). -/
def decLongEff (trig : BitVec 8) : UnitEff := fun s _ v _ _ r =>
  match r with
  | some r => .start s r
  | none => if trig = 0x6B && decWord v = 0 then .exc { vec := 10 } else .start s (.dec trig)

/-- lsu.a plus the trigger value (R128). -/
def lsuOffset (x : Triad) (v : Word) : Word := port x 0x78 + v

/-- Sign-extend the low z bytes of a word. -/
def signBytes (z : Nat) (w : Word) : Word :=
  if z = 1 then (w.setWidth 8).signExtend 32 else if z = 2 then (w.setWidth 16).signExtend 32 else w

/-- A load of z bytes into lsu.r, which the trace records as lsu.r receives it (R128, R129, R599). -/
def loadEff (z : Nat) (signed : Bool) (c : Circ) : UnitEff := fun s t v seg _ _ =>
  let x := getT s t
  let o := lsuOffset x v
  match segLoad s t (supervisor x) 0 seg.toNat o z (Circ.load c 0) with
  | .error e => .exc e
  | .ok (w, s) =>
    let w := if signed then signBytes z w else w
    .done (setT (noteLoad s t 1 (port x (0xC0 + seg.toNat) + o).toNat w) t (setPort (getT s t) 0x7A w))

/-- A store of the low z bytes of lsu.d (R128, R129). -/
def storeEff (z : Nat) : UnitEff := fun s t v seg _ _ =>
  let x := getT s t
  match segStore s t (supervisor x) seg.toNat (lsuOffset x v) z (port x 0x79) with
  | .error e => .exc e
  | .ok s => .done s

/-- gth.go and gth.resume start or resume; with no element to load they complete at once (R143, R148). -/
def gatherEff (trig : BitVec 8) : UnitEff := fun s t v seg _ r =>
  match r with
  | some r => .start s r
  | none =>
    let x := getT s t
    let done := if trig = 0x8C then 0 else (port x 0x8B).toNat
    if min (port x 0x8A).toNat 16 ≤ done then .done (setT s t (beginRoutine x v (.gth trig seg)))
    else .start s (.gth trig seg)

/-- br.jmp (R84, R149). -/
def jumpEff : UnitEff := fun s _ v _ _ _ =>
  if v.getLsbD 0 then .exc { vec := 4, fadr := v, fetch := true } else .jump s v true

/-- br.call (R149, R152, R153). Its push is aligned before the limits are checked, the return address's and the push's
(R91). -/
def brCallEff : UnitEff := fun s t v _ _ _ =>
  let x := getT s t
  let ra := x.pc + 4
  let o := port x 0x1F - 4
  if v.getLsbD 0 then .exc { vec := 4, fadr := v, fetch := true }
  else if (port x 0xC2 + o).toNat % 4 != 0 then .exc { vec := 4, fadr := o, wr := true }
  else if 0x20000 ≤ ra.toNat then .exc { vec := 2, fadr := ra, fetch := true }
  else
    match segStore s t (supervisor x) 2 o 4 (callFrame 0 ra) with
    | .error e => .exc e
    | .ok s => .jump (setT s t (setPort (getT s t) 0x1F o)) v true

/-- The first exception in the order of R91 among those of loads at `n` rising offsets, a word's poison coming after every
other: what a return meets before it takes any word (R91, R155). -/
def popFault (s : State) (t : Nat) (sup : Bool) (seg : Nat) : Nat → Word → Option Exc
  | 0, _ => none
  | n + 1, o =>
    let e := segProbe s t sup seg o
    let r := popFault s t sup seg n (o + 4)
    match e, r with
    | some e, some r => if excRank r < excRank e then some r else some e
    | some e, none => some e
    | none, r => r

/-- Load `n` words at rising offsets, the first of them the i-th load of the move (R73, R155). -/
def popWordsOf (t : Nat) (sup : Bool) (kind seg : Nat) (c : Circ) : Nat → Nat → Word → State → Except Exc (List Word × State)
  | 0, _, _, s => .ok ([], s)
  | n + 1, i, o, s =>
    match segLoad s t sup kind seg o 4 (Circ.load c i) with
    | .error e => .error e
    | .ok (w, s) =>
      match popWordsOf t sup kind seg c n (i + 1) (o + 4) s with
      | .error e => .error e
      | .ok (q, s) => .ok (w :: q, s)

/-- Load `n` words at rising offsets, or the exception that R91 puts first. -/
def popAll (s : State) (t : Nat) (sup : Bool) (kind seg : Nat) (c : Circ) (n i : Nat) (o : Word) :
    Except Exc (List Word × State) :=
  match popFault s t sup seg n o with
  | some e => .error e
  | none => popWordsOf t sup kind seg c n i o s

/-- Write a list of registers. -/
def putRegs (x : Triad) : List (Nat × Word) → Triad
  | [] => x
  | (r, w) :: l => putRegs (setPort x r w) l

/-- br.ret: every load first, then the masked registers, g31 and the PC together (R155). -/
def retEff (c : Circ) : UnitEff := fun s t _ _ _ _ =>
  let x := getT s t
  let sup := supervisor x
  let g31 := port x 0x1F
  match segLoad s t sup 1 2 g31 4 (Circ.load c 0) with
  | .error e => .exc e
  | .ok (fw, s) =>
    let rs := maskRegs (BitVec.ofNat 16 (fw.toNat / 2 ^ 16))
    match popAll s t sup 1 2 c rs.length 1 (g31 + 4) with
    | .error e => .exc e
    | .ok (l, s) =>
      let x := setPort (getT s t) 0x1F (g31 + BitVec.ofNat 32 (4 * (1 + rs.length)))
      .jump (setT s t (putRegs x (rs.zip l))) (BitVec.ofNat 32 (fw.toNat % 2 ^ 16 * 2)) true

/-- An offset that a frame restores: the PC always holds an even offset (R78). DESIGN CHOICE: bit 0 of a frame's word is
dropped (log entry 52). -/
def evenWord (w : Word) : Word := w &&& 0xFFFFFFFE

/-- The loop stack that a frame's words hold, `n` levels, innermost first (R92, R161). -/
def frameLevels (words : List Word) (n : Nat) : List LoopLevel :=
  ((List.range n).map (fun i =>
    { start := evenWord (words.getD (4 + 3 * i) 0), stop := evenWord (words.getD (5 + 3 * i) 0),
      count := words.getD (6 + 3 * i) 0 })).reverse

/-- What br.rti restores from the frame (R93, R161): fl, S, DET, loop stack, ctl.prog; ctl.ksp rises by 64. -/
def restoreFrame (x : Triad) (words : List Word) : Triad :=
  let mode := (words.getD 2 0).toNat
  let y := setPort x 0x20 (words.getD 1 0 &&& 0x1F)
  let y := setPort y 0xDA (BitVec.ofNat 32 (mode % 4))
  let y := setPort y 0xDB (words.getD 3 0 &&& portMask 0xDB)
  let y := setPort y 0xD9 (port x 0xD9 + 64)
  let y := { y with loops := frameLevels words (min (bitsOf mode 4 2) 4) }
  if detMode x && !detMode y then flushCaches y else { y with group := none }

/-- The reads of the moves that an entry returning to `pc` discarded are presented again by every live position (R204). -/
def presentAgain (s : State) (t : Nat) (pc : Word) : State :=
  let x := getT s t
  setT s t { x with voter := oweAgain x.voter (livePositions s t) (fun k => k.pc == some pc) }

/-- br.rti (R93): the frame is read through s7 as supervisor accesses (R73). It ends the triad's reservation, but not that of
an entry still to be made (R414). -/
def rtiEff (c : Circ) : UnitEff := fun s t _ _ _ _ =>
  match popAll s t true 0 7 c 16 0 (port (getT s t) 0xD9) with
  | .error e => .exc e
  | .ok (words, s) =>
    let pc := evenWord (words.getD 0 0)
    let s := presentAgain (setT s t (restoreFrame (getT s t) words)) t pc
    .rti (if (getT s t).due then s else endReservation s t) pc

/-- lp.go (R157). -/
def loopGoEff : UnitEff := fun s t v _ m _ =>
  let x := getT s t
  let start := x.pc + BitVec.ofNat 32 m.len
  if 4 ≤ x.loops.length then .exc { vec := 9 }
  else if v.getLsbD 0 then .exc { vec := 4, fadr := v, fetch := true }
  else if x.lcnt = 0 then .moved s v
  else if v.toNat ≤ start.toNat then .done s
  else .done (setT s t { x with loops := { start := start, stop := v, count := x.lcnt } :: x.loops })

/-- lp.exit (R160). -/
def loopExitEff : UnitEff := fun s t _ _ _ _ =>
  let x := getT s t
  .done (setT s t { x with loops := x.loops.tail })

/-! ### QP (R263, R271 to R276, R296) -/

/-- A queue operation that a triad may not make. -/
def denied (s : State) : State := incSat s QE_REFUSED QE_REFUSED_DENY 1

/-- qp.push of triad t. -/
def triadPush (s : State) (t q : Nat) (w : Word) (eop : Bool) (u : QueueUpset) : State :=
  match qClass s q with
  | none => incSat s QE_REFUSED QE_REFUSED_CLOSED 1
  | some c =>
    let a := triadAccess q t
    if a = .any || a = .push then
      pushOne (checkDesc s q c u) q c w eop
    else denied s

/-- qp.pop of triad t: qp.data, qp.tag and the state after. -/
def triadPop (s : State) (t q : Nat) (u : QueueUpset) : Word × Word × State :=
  match qClass s q with
  | none => (0, 0x100, s)
  | some c =>
    let a := triadAccess q t
    if a = .any || a = .pop then
      let (w, tag, s) := popCore s q c u
      if 0xFF000 ≤ q && q < 0xFF010 && tag.getLsbD 0 then (w, tag, noteHandler s t q w tag) else (w, tag, s)
    else (0, 0x400, s)

/-- qp.drop of triad t. -/
def triadDrop (s : State) (t q : Nat) (u : QueueUpset) : State :=
  match qClass s q with
  | none => incSat s QE_REFUSED QE_REFUSED_CLOSED 1
  | some c =>
    let a := triadAccess q t
    if a = .any || a = .pop then packetOpen (dropCore s q c u) q false else denied s

/-- qp.stat: qp.npk and qp.nwd. -/
def triadStat (s : State) (q : Nat) : Word × Word :=
  match qClass s q with
  | none => (0x80000000, 0)
  | some _ => statCore s q

/-- A queue operation of triad t reaches the Caravan: it is lost or answered with an error over a failed route, and while
the domain is OFF; a domain in RET holds it until it is back (R250, R483). -/
def qeReach (s : State) (t : Nat) : Except DevErr State :=
  if accessFailed s t 0x41000000 then .error .route
  else if domState s 2 = 2 then .error .asleep
  else .ok (heldAccess s 2)

/-- What a posted queue operation that does not reach the Caravan leaves (R250, R483). -/
def qeLost (s : State) (e : DevErr) : State := errCount s 0x41000000 e

/-- A posted queue operation of triad t: the voter has the item i, and `f` is its effect. It is lost over a failed route (R250)
and raises the bus error while the Caravan's domain is OFF (R483), with WRITE = `wr`. -/
def postQueue (s : State) (t : Nat) (wr : Bool) (i : EffCopy) (f : State → State) : Eff :=
  match qeReach s t with
  | .error .route => .done (qeLost (owe s t (.eff i) none) .route)
  | .error e => .exc (excDev 0x41000000 wr false e)
  | .ok s => .done (f (owe s t (.eff i) none))

def pushEff (u : QueueUpset) : UnitEff := fun s t v _ _ _ =>
  let x := getT s t
  let q := port x 0xB0
  let eop := (port x 0xB1).getLsbD 0
  postQueue s t true (.push (q.setWidth 20) v eop) (fun s => triadPush s t q.toNat v eop u)

/-- A read of the Caravan has delivered two words: the result ports p and p + 1, traced under k and k + 1. -/
def qeResult (s : State) (t p k : Nat) (r : ReadCopy) (a b : Word) : Eff :=
  let s := traceNote (traceNote s t k 0 0 a) t (k + 1) 0 0 b
  let s := owe s t (.rd r) (some { words := [some a, some b] })
  .done (setT s t (setPort (setPort (getT s t) p a) (p + 1) b))

def popEff (u : QueueUpset) : UnitEff := fun s t _ _ _ _ =>
  let q := port (getT s t) 0xB0
  match qeReach s t with
  | .error e => .exc (excDev 0x41000000 false false e)
  | .ok s =>
    let (w, tag, s) := triadPop s t q.toNat u
    qeResult s t 0xB2 3 (.pop (q.setWidth 20)) w tag

def dropEff (u : QueueUpset) : UnitEff := fun s t _ _ _ _ =>
  let q := port (getT s t) 0xB0
  postQueue s t false (.drop (q.setWidth 20)) (fun s => triadDrop s t q.toNat u)

def statEff (u : QueueUpset) : UnitEff := fun s t _ _ _ _ =>
  let q := port (getT s t) 0xB0
  match qeReach s t with
  | .error e => .exc (excDev 0x41000000 false false e)
  | .ok s =>
    let s := match qClass s q.toNat with
      | some c => checkDesc s q.toNat c u
      | none => s
    let (npk, nwd) := triadStat s q.toNat
    qeResult s t 0xB4 5 (.stat (q.setWidth 20)) npk nwd

/-! ### CTL -/

/-- ctl.eoi (R416). -/
def eoiEff : UnitEff := fun s t v _ _ _ =>
  let id := bitsOf v.toNat 9 0
  .done (endOfInterrupt (owe s t (.eff (.eoi (BitVec.ofNat 10 id))) none) t id)

/-- Drop the line of `fa` from a cache. -/
def dropLine (c : Tab (List CacheLine)) (fa : Nat) : Tab (List CacheLine) :=
  let ways := tget (fun _ => []) c (setOf fa)
  tset (fun _ => []) c (setOf fa) (ways.filter (fun l => l.line != fa / 32))

/-- ctl.flush (R140). -/
def flushOp (x : Triad) (v : Word) : Triad :=
  match v.toNat % 8 with
  | 0 => { x with dcache := [] }
  | 1 => { x with icache := [], group := none }
  | 2 => flushCaches x
  | 3 => { x with dcache := dropLine x.dcache v.toNat }
  | 4 => { x with icache := dropLine x.icache v.toNat, group := none }
  | _ => x

def flushEff : UnitEff := fun s t v _ _ _ => .done (setT s t (flushOp (getT s t) v))

/-- ctl.fence (R142): commands are performed whole and in order, so every earlier access has been performed. -/
def fenceEff : UnitEff := fun s _ _ _ _ _ => .done s

/-- The status word of an image, in ctl.prog's layout with ACT for SUSP (R169). -/
def statusWord (susp : Bool) (unit : Nat) (trig : BitVec 8) (step : Nat) : Word :=
  BitVec.ofNat 32 (b2n susp * 2 ^ 31 + unit * 2 ^ 24 + trig.toNat * 2 ^ 16 + step % 256)

/-- The words of a unit's image (R169). DESIGN CHOICE (log entry 81): the internal words of DEC and GTH are those of the routine that
the unit ran last, also when none is suspended, and the status word names the unit. -/
def unitImage (x : Triad) (unit : Nat) : List Word :=
  let own := (imagePorts unit).map (port x)
  match unit with
  | 1 => own ++ [statusWord x.dec.susp 1 x.dec.trig x.dec.step, x.dec.a, x.dec.b, x.dec.v, x.dec.bin]
  | 4 => own ++ [statusWord x.gth.susp 4 x.gth.trig (port x 0x8B).toNat, x.gth.base, x.gth.idx,
                 BitVec.ofNat 32 (x.gth.n.toNat % 32 + x.gth.seg.toNat * 256)]
  | 6 => [x.lcnt]
  | _ => own

/-- Store image words in the local store, wrapping at its end (R168). -/
def putImage (t : Nat) : List Word → Nat → State → State
  | [], _, s => s
  | w :: l, a, s => putImage t l (a + 4) (setPoison (putWord s (lsKey t a) w) (lsKey t a) false)

/-- Read n image words, the first of them the i-th load of the move; what a poisoned one raises (R168). -/
def getImage (t : Nat) (c : Circ) : Nat → Nat → Nat → State → Except Exc (List Word × State)
  | 0, _, _, s => .ok ([], s)
  | n + 1, i, a, s =>
    let m := Circ.load c i
    let s := meetWord s t (lsKey t a) m
    if poisoned s (lsKey t a) then
      .error { vec := 6, fadr := BitVec.ofNat 32 (a % 0x20000), meet := found t (lsKey t a) (some (oneWord m)) }
    else
      match getImage t c n (i + 1) (a + 4) s with
      | .error e => .error e
      | .ok (l, s) => .ok (getWord s (lsKey t a) :: l, s)

/-- ctl.usave (R168, R169). DEDUCED (log entry 53): the alignment of ADDR is checked for every UNIT, and ctl.cause.WRITE of
its exception is 0. -/
def usaveEff : UnitEff := fun s t v _ _ _ =>
  let a := bitsOf v.toNat 16 0
  if a % 4 != 0 then .exc { vec := 4, fadr := BitVec.ofNat 32 a }
  else .done (putImage t (unitImage (getT s t) (bitsOf v.toNat 31 28)) a s)

/-- Write image words to the ports in order, each with its port's width. -/
def putPorts (x : Triad) : List Nat → List Word → Triad
  | p :: ps, w :: ws => putPorts (setPort x p (w &&& portMask p)) ps ws
  | _, _ => x

/-- Whether a restored status word keeps its suspended routine (R170): SUSP, UNIT, TRIG and 1 ≤ STEP < steps. -/
def statusHolds (status : Word) (unit : Nat) (trigs : List Nat) (steps : Nat) : Bool :=
  let n := status.toNat
  bitsOf n 31 31 = 1 && bitsOf n 27 24 = unit && trigs.contains (bitsOf n 23 16) && bitsOf n 7 0 != 0 &&
    decide (bitsOf n 7 0 < steps)

/-- Restore the DEC unit (R169, R170). -/
def restoreDec (x : Triad) (w : List Word) : Triad :=
  let x := putPorts x (imagePorts 1) w
  let st := w.getD 7 0
  let trig := BitVec.ofNat 8 (bitsOf st.toNat 23 16)
  if statusHolds st 1 [0x6A, 0x6B] (decSteps trig (w.getD 8 0) (w.getD 10 0)) then
    { x with dec := { susp := true, trig := trig, step := bitsOf st.toNat 7 0, a := w.getD 8 0, b := w.getD 9 0,
                      v := w.getD 10 0, bin := w.getD 11 0 } }
  else { x with dec := { x.dec with susp := false } }

/-- Restore the GTH unit (R169, R170). -/
def restoreGth (x : Triad) (w : List Word) : Triad :=
  let x := putPorts x (imagePorts 4) w
  let st := w.getD 20 0
  let n := (w.getD 23 0).toNat
  if statusHolds st 4 [0x8C, 0x8D] (min (n % 32) 16) then
    { x with gth := { susp := true, trig := BitVec.ofNat 8 (bitsOf st.toNat 23 16), base := w.getD 21 0,
                      idx := w.getD 22 0 &&& portMask 0x89, n := BitVec.ofNat 32 (n % 32),
                      seg := BitVec.ofNat 3 (bitsOf n 10 8) } }
  else { x with gth := { x.gth with susp := false } }

/-- Restore a unit from its image (R170). -/
def restoreUnit (x : Triad) (unit : Nat) (w : List Word) : Triad :=
  match unit with
  | 1 => restoreDec x w
  | 4 => restoreGth x w
  | 6 => { x with lcnt := w.getD 0 0 }
  | u => putPorts x (imagePorts u) w

/-- ctl.urest (R168 to R170). DEDUCED (log entry 53): the alignment of ADDR is checked for every UNIT. -/
def urestEff (c : Circ) : UnitEff := fun s t v _ _ _ =>
  let a := bitsOf v.toNat 16 0
  let unit := bitsOf v.toNat 31 28
  if a % 4 != 0 then .exc { vec := 4, fadr := BitVec.ofNat 32 a }
  else
    match getImage t c (unitImage (getT s t) unit).length 0 a s with
    | .error e => .exc e
    | .ok (l, s) => .done (setT s t (restoreUnit (getT s t) unit l))

/-- ctl.wait, ctl.trap. -/
def waitEff : UnitEff := fun _ _ _ _ _ _ => .wait

def trapEff : UnitEff := fun _ _ _ _ _ _ => .trap

end Sys2Proof.Machine
end

