-- ==== Sys2Proof/Machine/Finish.lean ====
section
/-!
DEFINITION. The unit behind each port (R75), debug accesses to ports (R604), and the end of a command.
-/

namespace Sys2Proof.Machine

/-- What a move to port `id` does (R75); ports that are no triggers are written. -/
def unitEff (id : Nat) (u : QueueUpset) (c : Circ) : UnitEff :=
  match id with
  | 0x40 => aluEff .add
  | 0x41 => aluEff .adc
  | 0x42 => aluEff .sub
  | 0x43 => aluEff .sbc
  | 0x44 => aluEff .and
  | 0x45 => aluEff .or
  | 0x46 => aluEff .xor
  | 0x47 => aluEff .andn
  | 0x48 => aluEff .shl
  | 0x49 => aluEff .shr
  | 0x4A => aluEff .sar
  | 0x4B => aluEff .rol
  | 0x4C => aluEff .ror
  | 0x4D => aluEff .cmp
  | 0x4E => aluEff .tst
  | 0x60 => decEff .add
  | 0x61 => decEff .adc
  | 0x62 => decEff .sub
  | 0x63 => decEff .sbc
  | 0x64 => decEff .adj
  | 0x65 => decEff .cmp
  | 0x66 => decEff .shl
  | 0x67 => decEff .shr
  | 0x68 => decEff .b2d
  | 0x69 => decEff .d2b
  | 0x6A => decLongEff 0x6A
  | 0x6B => decLongEff 0x6B
  | 0x6C => decEff .round
  | 0x74 => mulEff .mulu
  | 0x75 => mulEff .muls
  | 0x76 => mulEff .mac
  | 0x80 => loadEff 1 true c
  | 0x81 => loadEff 1 false c
  | 0x82 => loadEff 2 true c
  | 0x83 => loadEff 2 false c
  | 0x84 => loadEff 4 false c
  | 0x85 => storeEff 1
  | 0x86 => storeEff 2
  | 0x87 => storeEff 4
  | 0x8C => gatherEff 0x8C
  | 0x8D => gatherEff 0x8D
  | 0xA1 => jumpEff
  | 0xA2 => brCallEff
  | 0xA3 => retEff c
  | 0xA4 => rtiEff c
  | 0xAC => loopGoEff
  | 0xAD => loopExitEff
  | 0xB8 => pushEff u
  | 0xB9 => popEff u
  | 0xBA => dropEff u
  | 0xBB => statEff u
  | 0xE0 => eoiEff
  | 0xE1 => waitEff
  | 0xE2 => flushEff
  | 0xE3 => fenceEff
  | 0xE4 => usaveEff
  | 0xE5 => urestEff c
  | 0xE6 => trapEff
  | _ => writeEff

/-- What a decoded move does. -/
def moveEff (op : MoveOp) (c : Circ) : UnitEff :=
  match op with
  | .mv dst _ _ => unitEff dst .none c
  | .hi _ v => hiEff v
  | .branch c off => branchEff c off
  | .call mask b off => callEff mask b off

/-- One move of triad t by its encoding. -/
def runEnc (s : State) (t : Nat) (e : Encoding) (c : Circ) : State :=
  match decodeMove e with
  | .ok m => runMove s t (.ok m) (encLen e) c (moveEff m.op c)
  | .error x => runMove s t (.error x) (encLen e) c writeEff

/-! ### Debug accesses (R604) -/

/-- An access through DBG_ACC that is refused. -/
def accRefuse (s : State) : State := setFlag s DBG_ACC DBG_ACC_ERR true

/-- Triad t continues at `npc`, a routine under way suspended. -/
def divert (s : State) (t : Nat) (npc : Word) : State :=
  setT s t { suspend (getT s t) with pc := npc, group := none, landed := false }

/-- An exception that a debug access raises in triad t: no move is at hand, and the frame names the PC. -/
def debugRaise (s : State) (t : Nat) (e : Exc) : State :=
  let s := setT (excCount s e) t (suspend (getT (excCount s e) t))
  enterVector s t e (getT s t).pc false

/-- The steps of a routine that a debug access has triggered: at most n, none of them a retirement. -/
def debugRoutine : Nat → State → Nat → Routine → State
  | 0, s, _, _ => s
  | n + 1, s, t, .dec trig =>
    let x := getT s t
    if decSteps x.dec.trig x.dec.a x.dec.v ≤ x.dec.step then s else debugRoutine n (setT s t (decStep x).1) t (.dec trig)
  | n + 1, s, t, .gth trig seg =>
    let x := getT s t
    if gthCount x.gth ≤ (port x 0x8B).toNat then s
    else
      match gthStep s t {} with
      | .error e => debugRaise (setT s t { x with gth := { x.gth with susp := true } }) t e
      | .ok s => debugRoutine n s t (.gth trig seg)
  | _ + 1, s, _, .call _ _ _ _ => s

/-- The effect of a unit that a debug access has triggered with value v, without a move that retires. DESIGN CHOICE (log entry
42). -/
def debugEff (s : State) (t : Nat) (v : Word) : Eff → State
  | .exc e => debugRaise s t e
  | .done s => s
  | .jump s npc _ | .moved s npc => divert s t npc
  | .start s r => debugRoutine 41 (setT s t (beginRoutine (getT s t) v r)) t r
  | .wait => setT s t { getT s t with waiting := true }
  | .trap => debugRaise s t { vec := 11, sub := 1, fadr := v }
  | .rti s npc =>
    let s := divert s t npc
    setT s t { getT s t with rtiCheck := true }

/-- A write of port `id` of triad t through DBG_ACC: a trigger port makes its unit act. -/
def accWrite (s : State) (t id : Nat) (v : Word) : State :=
  let done (s : State) : State :=
    setFlag (taintDigest { s with aud := { s.aud with made := [] } } t) DBG_ACC DBG_ACC_DONE true
  if !isTrigger id then done (setT s t (writePort (getT s t) id v))
  else done (debugEff s t v (unitEff id .none {} s t v 0 { op := .mv id (.imm 0) 0, len := 4, enc := 0 } none))

/-- The access that a write of DBG_ACC.GO has asked for. -/
def accGo (s : State) : State :=
  let t := getF s DBG_CTL DBG_CTL_TRIAD
  let id := getF s DBG_ACC DBG_ACC_PORT
  if !(getT s t).halted then accRefuse s
  else if flag s DBG_ACC DBG_ACC_WRITE then
    (if (dstIllegal id).isSome then accRefuse s else accWrite s t id (reg s DBG_ACCVAL))
  else if (srcIllegal (.port id)).isSome || id = 0xDE then accRefuse s
  else setFlag (setReg s DBG_ACCVAL (readPort s t id)) DBG_ACC DBG_ACC_DONE true

/-- What debug and trace have left for the end of the command: the access of DBG_ACC, or an entry that was held back. -/
def debugAccess (s : State) : State :=
  if !s.aud.acc then s
  else
    let u := { s with aud := { s.aud with acc := false, release := none } }
    match s.aud.release with
    | some t => atPoint u t
    | none => accGo u

/-- A command ends: an access of DBG_ACC is made, and the card settles. -/
def finish (s : State) : Out := .next (settle (debugAccess s))

end Sys2Proof.Machine
end

