-- ==== Sys2Proof/Machine/Voter.lean ====
section
/-!
DEFINITION. The cluster voter as its streams show it (R198 to R205): the effects and read requests that a triad's positions
present in program order, the release of an effect, the issue of a read and the delivery of its result, the read buffer.
-/

namespace Sys2Proof.Machine

def setVoter (s : State) (t : Nat) (v : Voter) : State := setT s t { getT s t with voter := v }

/-- Whether position p of triad t may present anything: the triad runs and the position is live. -/
def presents (s : State) (t p : Nat) : Bool :=
  triadLive s t && domOn s (4 + clusterOf t) && p < 3 && !(posOf (getT s t) p).masked

/-! ### Effects (R199, R200) -/

/-- A released store reaches its target (R127); one that its target refuses is lost. -/
def effStore (s : State) (t a z : Nat) (w : Word) : State :=
  match regionOf a with
  | .common =>
    if accessFailed s t a then routeLost s
    else
      match storeBytes s a z w with
      | some s => s
      | none => incSat s (CS_BANK (bankOf a)) CS_BANK_DISC 1
  | .device =>
    if z != 4 then s
    else
      match devWrite s t a w with
      | .ok s => s
      | .error e => errCount s a e
  | .localStore | .mram | .hole => s

/-- A posted queue operation of triad t acts, or is lost on its way (R250, R483). -/
def effQueue (s : State) (t : Nat) (f : State → State) : State :=
  match qeReach s t with
  | .ok s => f s
  | .error e => qeLost s e

/-- The released effect of triad t acts. -/
def effAct (s : State) (t : Nat) : EffCopy → State
  | .store a z w _ => if [1, 2, 4].contains z.toNat && a.toNat % z.toNat = 0 then effStore s t a.toNat z.toNat w else s
  | .push q w e => effQueue s t (fun s => triadPush s t q.toNat w e .none)
  | .drop q => effQueue s t (fun s => triadDrop s t q.toNat .none)
  | .eoi id => endOfInterrupt s t id.toNat
  | .ctl p w => if 0xD8 ≤ p.toNat && p.toNat ≤ 0xDB then setT s t (writePort (getT s t) p.toNat w) else s

/-! ### Voted reads (R202, R205) -/

/-- The vector of the exception that a read which is not performed ends in (R89). -/
def errVector : DevErr → Nat
  | .target | .route | .asleep => 7
  | .clkstop => 8

/-- A read that ends in an error. -/
def readLost (s : State) (a : Nat) (e : DevErr) : ReadRes × State := ({ err := errVector e }, errCount s a e)

/-- A word of the common store, the MRAM window or a device, as a voted read of z bytes delivers it. -/
def readWord (s : State) (t a z : Nat) : ReadRes × State :=
  match regionOf a with
  | .common | .mram =>
    match memReach s t a with
    | .ok s => ({ words := [(wordOrPoison s (a / 4 * 4)).map (fun w => selectBytes w a z)] }, s)
    | .error e => readLost s a e
  | .device =>
    if z != 4 then readLost s a .target
    else
      match devRead s t a with
      | .ok (w, s) => ({ words := [some w] }, s)
      | .error e => readLost s a e
  | .localStore | .hole => ({ err := 7 }, s)

/-- A read of the Caravan by triad t, or its error (R250, R483). -/
def readQueue (s : State) (t : Nat) (f : State → ReadRes × State) : ReadRes × State :=
  match qeReach s t with
  | .ok s => f s
  | .error e => readLost s 0x41000000 e

/-- What a voted read answers, and the state after. -/
def readAct (s : State) (t : Nat) : ReadCopy → ReadRes × State
  | .load a z _ => readWord s t a.toNat z.toNat
  | .gather a _ => readWord s t a.toNat 4
  | .group a => readWord s t (a.toNat / 4 * 4) 4
  | .line a =>
    match regionOf a.toNat with
    | .common | .mram =>
      match memReach s t a.toNat with
      | .ok s => ({ words := (fillLine s a.toNat).words }, s)
      | .error e => readLost s a.toNat e
    | .device | .localStore | .hole => ({ err := 7 }, s)
  | .pop q => readQueue s t (fun s =>
      let (w, tag, s) := triadPop s t q.toNat .none
      ({ words := [some w, some tag] }, s))
  | .stat q => readQueue s t (fun s =>
      let s := match qClass s q.toNat with
        | some c => checkDesc s q.toNat c .none
        | none => s
      let (npk, nwd) := triadStat s q.toNat
      ({ words := [some npk, some nwd] }, s))
  | .claim =>
    let (w, s) := claim s t
    ({ words := [some w] }, s)

/-- Position p takes the result of a read. -/
def deliver (s : State) (t p : Nat) (res : ReadRes) : State :=
  let x := getT s t
  { setT s t (setPos x p { posOf x p with got := res }) with rdata := ((res.words.head?.getD none).getD 0) }

/-! ### Streams -/

/-- What position p has presented and the voter has not released or issued yet, in program order. -/
def streamOf (v : Voter) (p : Nat) : List VItem := tget (fun _ => []) v.waiting p

def setStream (v : Voter) (p : Nat) (l : List VItem) : Voter := { v with waiting := tset (fun _ => []) v.waiting p l }

/-- Drop the front of each listed position's stream. -/
def popFronts (v : Voter) (ps : List Nat) : Voter := ps.foldl (fun v p => setStream v p ((streamOf v p).drop 1)) v

/-- The first released item that position p has still to present. -/
def owedTo (v : Voter) (p : Nat) : Option Owed := v.owed.find? (fun o => o.pos == p)

/-- Position p has presented the released item that it owed. -/
def unowe (v : Voter) (p : Nat) : Voter := { v with owed := v.owed.eraseP (fun o => o.pos == p) }

/-- Entries of the read buffer: results that a position has still to take (R203). -/
def held (v : Voter) : Nat := (v.owed.filter (fun o => o.res.isSome)).length

/-- DETAIL of a divergence found at this item (R233). -/
def itemDetail : VItem → Nat
  | .eff _ => 1
  | .rd _ => 2

/-- A position whose read request waits presents nothing more (R202, R203). -/
def isRead : VItem → Bool
  | .rd _ => true
  | .eff _ => false

/-- The item that two positions presented alike acts: an effect once; a read once, delivered to both, and remembered until
its move retires (R199, R202, R204). -/
def actItem (s : State) (t a b : Nat) : VItem → State × Option ReadRes
  | .eff e => (effAct s t e, none)
  | .rd r =>
    let (res, s) := readAct s t r
    let s := deliver (deliver s t a res) t b res
    let v := (getT s t).voter
    (setVoter s t { v with taken := v.taken ++ [{ req := r, res := res }] }, some res)

/-- The result of a read, if it is one, goes to position p. -/
def deliverTo (s : State) (t p : Nat) : Option ReadRes → State
  | none => s
  | some res => deliver s t p res

/-- Release item i, which positions a and b present alike; the third live position has presented its own and is compared,
or owes it (R199, R200, R202). -/
def release (s : State) (t a b : Nat) (c : Option Nat) (i : VItem) : State :=
  let (s, res) := actItem (setVoter s t (popFronts (getT s t).voter [a, b])) t a b i
  match c with
  | none => s
  | some c =>
    let v := (getT s t).voter
    match streamOf v c with
    | [] => setVoter s t { v with owed := v.owed ++ [{ pos := c, item := i, res := res }] }
    | x :: _ =>
      let s := setVoter s t (popFronts v [c])
      if x = i then deliverTo s t c res else diverge s t c (itemDetail i)

/-- Release i unless it is a read and the read buffer is full (R203). -/
def releaseOr (s : State) (t a b : Nat) (c : Option Nat) (i : VItem) : Option State :=
  if isRead i && 32 ≤ held (getT s t).voter then none else some (release s t a b c i)

/-- Compare the fronts of the live positions' streams once (R199, R202, R218); none when they all wait. -/
def matchOnce (s : State) (t : Nat) : Option State :=
  let v := (getT s t).voter
  let front (p : Nat) : Option VItem := (streamOf v p).head?
  match livePositions s t with
  | [a, b, c] =>
    match front a, front b, front c with
    | some x, some y, some z =>
      if x = y then releaseOr s t a b (some c) x
      else if x = z then releaseOr s t a c (some b) x
      else if y = z then releaseOr s t b c (some a) y
      else some (disagree s t 5)
    | some x, some y, none => if x = y then releaseOr s t a b (some c) x else none
    | some x, none, some z => if x = z then releaseOr s t a c (some b) x else none
    | none, some y, some z => if y = z then releaseOr s t b c (some a) y else none
    | _, _, _ => none
  | [a, b] =>
    match front a, front b with
    | some x, some y => if x = y then releaseOr s t a b none x else some (disagree s t (itemDetail x))
    | _, _ => none
  | _ => none

/-- Release what the streams allow, at most n items. -/
def matchAll : Nat → State → Nat → State
  | 0, s, _ => s
  | n + 1, s, t =>
    match matchOnce s t with
    | some s => matchAll n s t
    | none => s

/-- Everything that triad t's positions have presented and that can go goes. -/
def matchUp (s : State) (t : Nat) : State :=
  let v := (getT s t).voter
  matchAll ((streamOf v 0).length + (streamOf v 1).length + (streamOf v 2).length) s t

/-- The same for every triad: what masking a position freed goes (R203). -/
def matchEvery (s : State) : State := (List.range 32).foldl matchUp s

/-- Position p of triad t presents item i (R199, R202): what it owes is compared and its held result delivered; else it joins
the position's stream. -/
def presentItem (s : State) (t p : Nat) (i : VItem) : State :=
  if !presents s t p then s
  else
    let v := (getT s t).voter
    if (streamOf v p).any isRead then s
    else
      match owedTo v p with
      | some o => if o.item = i then matchUp (deliverTo (setVoter s t (unowe v p)) t p o.res) t
                  else matchUp (diverge s t p (itemDetail i)) t
      | none => matchUp (setVoter s t (setStream v p (streamOf v p ++ [i]))) t

/-- Position p of triad t presents a copy of an effect (R199). -/
def voterEffect (s : State) (t p : Nat) (e : EffCopy) : State := presentItem s t p (.eff e)

/-- Position p of triad t presents a read request (R202). -/
def votedRead (s : State) (t p : Nat) (r : ReadCopy) : State := presentItem s t p (.rd r)

end Sys2Proof.Machine
end

