-- ==== Sys2Proof/Machine/Rows.lean ====
section
/-!
DEFINITION. Effects of commands that put shared operations together: interrupt entry, gather elements, bank accesses, the
engine port as a master sees it, the service UART.
-/

namespace Sys2Proof.Machine

/-- The voter sets the agreed point of triad t for vector 16 + p: 64 retirements past the highest count, or where the triad
stands when it waits in ctl.wait (R189, R207); the entry is made there. -/
def agree (s : State) (t p : Nat) : State :=
  let x := getT s t
  let n := if x.waiting then x.rcount else x.rcount + 64
  atPoint (setT s t { x with point := some (n, p), due := true }) t

/-- The voter accepts the interrupt presented to triad t, and sets the point at which the triad enters its vector (R207, R412).
One presented before an entry that is agreed has been made is of higher priority: the entry is made with it (R192, R413). A
source that an exception's entry left accepted gets a new point (R191). -/
def interruptEntry (s : State) (t : Nat) : State :=
  if !acceptsInterrupt s t then s
  else
    match presented s t with
    | some id =>
      let p := srcPrio s t id
      let s := reserve s t id
      match (getT s t).point with
      | some (n, _) => setT s t { getT s t with point := some (n, p), due := true }
      | none => agree s t p
    | none =>
      let x := getT s t
      match reservedPrio s t with
      | some p => if x.due && x.point.isNone then agree s t p else s
      | none => s

/-- One element of the gather under way in triad t (R144). -/
def gatherElement (s : State) (t : Nat) (c : Circ) : State :=
  match (getT s t).run with
  | some r =>
    match r.routine with
    | .gth _ _ => stepOnly s t c
    | .dec _ | .call _ _ _ _ => s
  | none => s

/-- A disagreeing control copy of engine e (R221): 0 QE, 1 weft, 2 tally, 3 ledger, 8 + n crypto engine of cluster n. -/
def engineMismatch (s : State) (e : Nat) (torn : Torn) : State :=
  if e < 4 || (8 ≤ e && e < 16) then engineCopy s e torn else s

/-- A bank performs one access of master m at a common store address (R245). -/
def bankRow (s : State) (m a : Nat) (op : BankOp) : State :=
  if regionOf a = .common then bankReach s m a op else s

/-- A push burst of 1 to 120 words by a master other than a core (R277). -/
def enginePushRow (s : State) (m q : Nat) (ws : List (Word × Bool)) : State :=
  if m < 32 || ws.isEmpty || 120 < ws.length then s else enginePush s (masterRouter m) q ws

/-- A pop of 1 to 120 words through the engine port, with what it meets in the slots; the words go to `rwords`. -/
def enginePopRow (s : State) (m q n : Nat) (u : QueueUpset) : State :=
  if m < 32 || n = 0 || 120 < n then s
  else
    let (l, s) := enginePop s (masterRouter m) q n u
    answerWords (match l.getLast? with
      | none => s
      | some (_, tag) => if tag.getLsbD 0 then packetOpen s q (!tag.getLsbD 1) else s) l

/-- A stat through the engine port (R277): packets and mode, and words; the first goes to `rdata` too. -/
def engineStatRow (s : State) (m q : Nat) (u : QueueUpset) : State :=
  if m < 32 then s
  else
    let (l, s) := engineStat s (masterRouter m) q u
    answerWords s l

/-- A host write to the drain window (R516). -/
def drainRow (s : State) : State := hostAccess s .drain

/-- Bytes received on the service UART, while AUXIO is ON and clocked (R522, R507). -/
def serviceBytes (s : State) (l : List Byte) : State := if clocked s 17 then uartBytes l s else s

/-- The host unmasks a vector, by a write of its Vector Control word, or the function, by a configuration request (R518). -/
def unmaskRow (s : State) (v : Option (BitVec 6)) : State :=
  match v with
  | some v =>
    let w := msixWord s (4 * v.toNat + 3) &&& 0xFFFFFFFE
    hostAccess s (.write (.mailbox (BitVec.ofNat 20 (0x8000C + 16 * v.toNat))) w 15)
  | none => configRequest s (.msix s.hostFn.msixEn false)

/-- Triad t's access of a stopped clock is withdrawn: CLKSTOP is vector 8 (R506), at the move that the triad stands at. -/
def triadTimeout (s : State) (t a : Nat) (wr : Bool) : State :=
  if regionOf a != .device || !meetsStopped s a || !issues s t then s
  else traceCommit s (raise s t (excDev a wr false .clkstop) false)

/-- An access of master m to a stopped clock times out (R505, R506). -/
def timeoutRow (s : State) (m a : Nat) (wr : Bool) (w : Word) (captured : Bool) : State :=
  if m < 32 && !captured then triadTimeout s m (a / 4 * 4) wr else clockTimeout s m a wr w captured

end Sys2Proof.Machine
end

