-- ==== Sys2Proof/Machine/AluRows.lean ====
section
/-!
DEFINITION. The meanings of the ALU and MUL commands (spec chapter 04).
-/

namespace Sys2Proof.Machine

/-- ALU_ADD (R97): alu.add adds the trigger value to alu.a and sets flags and nibble carries. -/
def execAluAdd (t : BitVec 5) (f : MoveForm) (s : State) : Out :=
  finish (runForm s t.toNat 0x40 f {} (aluEff .add))

/-- ALU_ADC (R97): alu.adc adds with carry in. -/
def execAluAdc (t : BitVec 5) (f : MoveForm) (s : State) : Out :=
  finish (runForm s t.toNat 0x41 f {} (aluEff .adc))

/-- ALU_SUB (R97): alu.sub subtracts the trigger value from alu.a. -/
def execAluSub (t : BitVec 5) (f : MoveForm) (s : State) : Out :=
  finish (runForm s t.toNat 0x42 f {} (aluEff .sub))

/-- ALU_SBC (R97): alu.sbc subtracts with borrow. -/
def execAluSbc (t : BitVec 5) (f : MoveForm) (s : State) : Out :=
  finish (runForm s t.toNat 0x43 f {} (aluEff .sbc))

/-- ALU_AND (R97): alu.and forms the bitwise AND. -/
def execAluAnd (t : BitVec 5) (f : MoveForm) (s : State) : Out :=
  finish (runForm s t.toNat 0x44 f {} (aluEff .and))

/-- ALU_OR (R97): alu.or forms the bitwise OR. -/
def execAluOr (t : BitVec 5) (f : MoveForm) (s : State) : Out :=
  finish (runForm s t.toNat 0x45 f {} (aluEff .or))

/-- ALU_XOR (R97): alu.xor forms the bitwise XOR. -/
def execAluXor (t : BitVec 5) (f : MoveForm) (s : State) : Out :=
  finish (runForm s t.toNat 0x46 f {} (aluEff .xor))

/-- ALU_ANDN (R97): alu.andn forms alu.a AND NOT the trigger value. -/
def execAluAndn (t : BitVec 5) (f : MoveForm) (s : State) : Out :=
  finish (runForm s t.toNat 0x47 f {} (aluEff .andn))

/-- ALU_SHL (R97): alu.shl shifts left by the count. -/
def execAluShl (t : BitVec 5) (f : MoveForm) (s : State) : Out :=
  finish (runForm s t.toNat 0x48 f {} (aluEff .shl))

/-- ALU_SHR (R97): alu.shr shifts right with zero fill. -/
def execAluShr (t : BitVec 5) (f : MoveForm) (s : State) : Out :=
  finish (runForm s t.toNat 0x49 f {} (aluEff .shr))

/-- ALU_SAR (R97): alu.sar shifts right with sign fill. -/
def execAluSar (t : BitVec 5) (f : MoveForm) (s : State) : Out :=
  finish (runForm s t.toNat 0x4A f {} (aluEff .sar))

/-- ALU_ROL (R97): alu.rol rotates left. -/
def execAluRol (t : BitVec 5) (f : MoveForm) (s : State) : Out :=
  finish (runForm s t.toNat 0x4B f {} (aluEff .rol))

/-- ALU_ROR (R97): alu.ror rotates right. -/
def execAluRor (t : BitVec 5) (f : MoveForm) (s : State) : Out :=
  finish (runForm s t.toNat 0x4C f {} (aluEff .ror))

/-- ALU_CMP (R97): alu.cmp sets flags as a subtraction without writing a result. -/
def execAluCmp (t : BitVec 5) (f : MoveForm) (s : State) : Out :=
  finish (runForm s t.toNat 0x4D f {} (aluEff .cmp))

/-- ALU_TST (R97): alu.tst sets flags as an AND without writing a result. -/
def execAluTst (t : BitVec 5) (f : MoveForm) (s : State) : Out :=
  finish (runForm s t.toNat 0x4E f {} (aluEff .tst))

/-- MUL_MULU (R102): mul.mulu forms the unsigned 64-bit product. -/
def execMulMulu (t : BitVec 5) (f : MoveForm) (s : State) : Out :=
  finish (runForm s t.toNat 0x74 f {} (mulEff .mulu))

/-- MUL_MULS (R102): mul.muls forms the signed 64-bit product. -/
def execMulMuls (t : BitVec 5) (f : MoveForm) (s : State) : Out :=
  finish (runForm s t.toNat 0x75 f {} (mulEff .muls))

/-- MUL_MAC (R102): mul.mac adds the unsigned product to the accumulator. -/
def execMulMac (t : BitVec 5) (f : MoveForm) (s : State) : Out :=
  finish (runForm s t.toNat 0x76 f {} (mulEff .mac))

end Sys2Proof.Machine
end

