-- ==== Sys2Proof/Machine/AuditRows.lean ====
section
/-!
DEFINITION. The meanings of the audit port, debug and the 1149.1 port (spec chapter 24).
-/

namespace Sys2Proof.Machine

/-- AUDIT_OPEN (R593): OPEN opens an audit session and returns the summary block. -/
def execAuditOpen (n : BitVec 16) (s : State) : Out :=
  finish (auditCommand s 0x01000000 n.toNat)

/-- AUDIT_CLOSE (R593): CLOSE closes the audit session. -/
def execAuditClose (n : BitVec 16) (s : State) : Out :=
  finish (auditCommand s 0x02000000 n.toNat)

/-- AUDIT_READ (R596): READ returns words of the audit address map from block snapshots; by R592 another code in the word is that
code's command, or reads zeros. -/
def execAuditRead (w : Word) (n : BitVec 16) (s : State) : Out :=
  finish (auditCommand s w n.toNat)

/-- AUDIT_TRACE (R600): TRACE shifts out trace records from the FIFO. -/
def execAuditTrace (n : BitVec 16) (s : State) : Out :=
  finish (auditCommand s 0x04000000 n.toNat)

/-- AUDIT_SESSION_TIMEOUT (R593): A session with no AUD_CS_N rising edge for 1 s closes. -/
def execAuditSessionTimeout (s : State) : Out :=
  finish (auditEnd s)

/-- AUD_TRCSEL_WRITE (R601): A write of AUD_TRCSEL starts or stops tracing a triad. -/
def execAudTrcselWrite (m : BitVec 6) (v : Word) (s : State) : Out :=
  finish (busWrite s m.toNat AUD_TRCSEL v)

/-- HALT (R603): DBG_CTL HALT stops a triad at an agreed count. -/
def execHalt (m : BitVec 6) (t : BitVec 5) (s : State) : Out :=
  finish (busWrite s m.toNat DBG_CTL (t.setWidth 32 <<< 8 ||| 1))

/-- STEP (R603): DBG_CTL STEP lets a halted triad make one retirement. -/
def execStep (m : BitVec 6) (t : BitVec 5) (s : State) : Out :=
  finish (busWrite s m.toNat DBG_CTL (t.setWidth 32 <<< 8 ||| 2))

/-- RESUME (R603): DBG_CTL RESUME releases a halted triad. -/
def execResume (m : BitVec 6) (t : BitVec 5) (s : State) : Out :=
  finish (busWrite s m.toNat DBG_CTL (t.setWidth 32 <<< 8 ||| 3))

/-- DBG_ACC_GO (R604): DBG_ACC.GO reads or writes a port of a halted triad. -/
def execDbgAccGo (m : BitVec 6) (v : Word) (s : State) : Out :=
  finish (busWrite s m.toNat DBG_ACC (v ||| 0x80000000))

/-- TAP_RESET (R605): A TAP reset selects IDCODE. -/
def execTapReset (s : State) : Out :=
  finish (tapReset s)

/-- SAMPLE_PRELOAD (R605): SAMPLE/PRELOAD samples and preloads the boundary register. -/
def execSamplePreload (other load : BitVec 39) (s : State) : Out :=
  finish (tapScan s 1 other load)

/-- IDCODE (R605): IDCODE shifts out the 32-bit identification code. -/
def execIdcode (s : State) : Out :=
  finish (tapIdcode s)

/-- EXTEST (R606): EXTEST drives pins from the boundary register and sets the scan lock. -/
def execExtest (data : BitVec 78) (s : State) : Out :=
  finish (tapExtest s data)

/-- CLAMP (R606): CLAMP holds boundary outputs with bypass and sets the scan lock. -/
def execClamp (s : State) : Out :=
  finish (tapBypass (scanLock s) 4)

/-- HIGHZ (R606): HIGHZ floats the outputs with bypass and sets the scan lock. -/
def execHighz (s : State) : Out :=
  finish (tapBypass (scanLock s) 5)

/-- DBGACC (R605): DBGACC accesses the DBG block through the TAP. -/
def execDbgacc (w : BitVec 48) (s : State) : Out :=
  finish (tapDbgacc s w)

/-- KEYTAB (R607): KEYTAB writes an empty operator key-table entry. -/
def execKeytab (w : BitVec 1027) (s : State) : Out :=
  finish (tapKeytab s w)

/-- SEAL (R607): SEAL with the right data blows the seal fuse. -/
def execSeal (v : Word) (s : State) : Out :=
  finish (tapSeal s v)

/-- BYPASS (R605): BYPASS selects the one-bit bypass register. -/
def execBypass (s : State) : Out :=
  finish (tapBypass s 0xFF)

end Sys2Proof.Machine
end

