-- ==== Sys2Proof/Machine/BootRows.lean ====
section
/-!
DEFINITION. The meanings of the power-on boot and the boot control register (spec chapters 02 and 22).
-/

namespace Sys2Proof.Machine

/-- POWER_ON_RESET_RELEASE (R556): Release of the power-on reset starts the six-step boot sequence. -/
def execPowerOnResetRelease (psel : BitVec 2) (st : SelfTest) (noise : List Byte) (s : State) : Out :=
  finish (powerOnBoot s psel.toNat st noise)

/-- BOOT_CTL_WRITE (R59): A write to BOOT_CTL sets PEND and starts making the value durable with a CONFIG record. -/
def execBootCtlWrite (m : BitVec 6) (v : Word) (s : State) : Out :=
  finish (busWrite s m.toNat BOOT_CTL v)

/-- BOOT_CTL_DURABLE (R59): The boot control block holds the written value and PEND returns to 0. -/
def execBootCtlDurable (s : State) : Out :=
  finish (bootCtlDurable s)

end Sys2Proof.Machine
end

