-- ==== Sys2Proof/Machine/CryptoRows.lean ====
section
/-!
DEFINITION. The meanings of the crypto engines and the draw unit (spec chapters 13 and 14).
-/

namespace Sys2Proof.Machine

/-- CRYPTO_VERIFY (R380): VERIFY pops a datagram, derives the terminal key and checks its CMAC tag. -/
def execCryptoVerify (n : BitVec 3) (u v : QueueUpset) (mismatch keyBad : Bool) (s : State) : Out :=
  finish (cryptoFront s n.toNat 1 u v mismatch keyBad)

/-- CRYPTO_SEAL (R381): SEAL pops a message and computes its CMAC tag under the receipt key. -/
def execCryptoSeal (n : BitVec 3) (u v : QueueUpset) (mismatch keyBad : Bool) (s : State) : Out :=
  finish (cryptoFront s n.toNat 2 u v mismatch keyBad)

/-- CRYPTO_HASH (R381): HASH pops a message and returns its SHA-256. -/
def execCryptoHash (n : BitVec 3) (u v : QueueUpset) (mismatch keyBad : Bool) (s : State) : Out :=
  finish (cryptoFront s n.toNat 3 u v mismatch keyBad)

/-- DRAW_RANGE (R396): A RANGE draw takes uniform values from LO to HI and writes a DRAW record. -/
def execDrawRange (u : QueueUpset) (noise : List Byte) (bad : DrbgUpset) (keyBad : Bool) (s : State) : Out :=
  finish (drawFront s 1 u noise bad keyBad)

/-- DRAW_KOFN (R396): A KOFN draw selects k of N values by partial shuffle and writes a DRAW record. -/
def execDrawKofn (u : QueueUpset) (noise : List Byte) (bad : DrbgUpset) (keyBad : Bool) (s : State) : Out :=
  finish (drawFront s 2 u noise bad keyBad)

/-- DRAW_HEALTH (R402): A direct HEALTH request returns DRW_STATUS and DRW_GENCNT. -/
def execDrawHealth (u : QueueUpset) (s : State) : Out :=
  finish (drawDirect s u)

/-- DRW_ENTIN_WRITE (R7): A write to DRW_ENTIN places four bytes in the host-entropy queue unless the card is sealed
or the queue is full. -/
def execDrwEntinWrite (m : BitVec 6) (v : Word) (s : State) : Out :=
  finish (busWrite s m.toNat DRW_ENTIN v)

end Sys2Proof.Machine
end

