-- ==== Sys2Proof/Machine/CtlRows.lean ====
section
/-!
DEFINITION. The meanings of queue operations and control triggers of a triad (spec chapters 03, 10, 15).
-/

namespace Sys2Proof.Machine

/-- QP_PUSH (R285): A push stores a word in a queue or drops it under the mode table. -/
def execQpPush (t : BitVec 5) (f : MoveForm) (u : QueueUpset) (s : State) : Out :=
  finish (runForm s t.toNat 0xB8 f {} (pushEff u))

/-- QP_POP (R273): A pop delivers the head word of a queue with its tag. -/
def execQpPop (t : BitVec 5) (f : MoveForm) (u : QueueUpset) (s : State) : Out :=
  finish (runForm s t.toNat 0xB9 f {} (popEff u))

/-- QP_DROP (R283): qp.drop discards stored words through the first EOP. -/
def execQpDrop (t : BitVec 5) (f : MoveForm) (u : QueueUpset) (s : State) : Out :=
  finish (runForm s t.toNat 0xBA f {} (dropEff u))

/-- QP_STAT (R272): qp.stat takes a snapshot of a queue's packets, words and mode. -/
def execQpStat (t : BitVec 5) (f : MoveForm) (u : QueueUpset) (s : State) : Out :=
  finish (runForm s t.toNat 0xBB f {} (statEff u))

/-- CTL_EOI (R416): ctl.eoi pops the running-priority stack and clears the named source's active bit. -/
def execCtlEoi (t : BitVec 5) (f : MoveForm) (s : State) : Out :=
  finish (runForm s t.toNat 0xE0 f {} eoiEff)

/-- CTL_WAIT (R419): ctl.wait stops issue until interrupt entry. -/
def execCtlWait (t : BitVec 5) (f : MoveForm) (s : State) : Out :=
  finish (runForm s t.toNat 0xE1 f {} waitEff)

/-- CTL_FLUSH (R140): ctl.flush invalidates whole caches or single lines. -/
def execCtlFlush (t : BitVec 5) (f : MoveForm) (s : State) : Out :=
  finish (runForm s t.toNat 0xE2 f {} flushEff)

/-- CTL_FENCE (R142): ctl.fence waits until every earlier store, QP operation and load has been performed. -/
def execCtlFence (t : BitVec 5) (f : MoveForm) (s : State) : Out :=
  finish (runForm s t.toNat 0xE3 f {} fenceEff)

/-- CTL_USAVE (R168): ctl.usave writes a unit's image to the local store. -/
def execCtlUsave (t : BitVec 5) (f : MoveForm) (s : State) : Out :=
  finish (runForm s t.toNat 0xE4 f {} usaveEff)

/-- CTL_UREST (R170): ctl.urest restores a unit's ports and internal state from its image. -/
def execCtlUrest (t : BitVec 5) (f : MoveForm) (s : State) : Out :=
  finish (runForm s t.toNat 0xE5 f {} (urestEff {}))

/-- CTL_TRAP (R71): ctl.trap retires and raises the privilege exception with the trap value. -/
def execCtlTrap (t : BitVec 5) (f : MoveForm) (s : State) : Out :=
  finish (runForm s t.toNat 0xE6 f {} trapEff)

/-- CTL_CLAIM (R415): A read of ctl.claim returns the reserved or eligible source and marks it active. -/
def execCtlClaim (t : BitVec 5) (dst : BitVec 8) (s : State) : Out :=
  finish (runEnc s t.toNat (.long (encPort dst.toNat 0xDE 0)) {})

end Sys2Proof.Machine
end

