-- ==== Sys2Proof/Machine/DecRows.lean ====
section
/-!
DEFINITION. The meanings of the DEC commands and the steps of long micro-routines (spec chapters 04 and 07).
-/

namespace Sys2Proof.Machine

/-- DEC_ADD (R109): dec.add adds two eight-digit decimal words. -/
def execDecAdd (t : BitVec 5) (f : MoveForm) (s : State) : Out :=
  finish (runForm s t.toNat 0x60 f {} (decEff .add))

/-- DEC_ADC (R109): dec.adc adds with decimal carry in. -/
def execDecAdc (t : BitVec 5) (f : MoveForm) (s : State) : Out :=
  finish (runForm s t.toNat 0x61 f {} (decEff .adc))

/-- DEC_SUB (R109): dec.sub subtracts decimal words and sets D on borrow. -/
def execDecSub (t : BitVec 5) (f : MoveForm) (s : State) : Out :=
  finish (runForm s t.toNat 0x62 f {} (decEff .sub))

/-- DEC_SBC (R109): dec.sbc subtracts with decimal borrow in. -/
def execDecSbc (t : BitVec 5) (f : MoveForm) (s : State) : Out :=
  finish (runForm s t.toNat 0x63 f {} (decEff .sbc))

/-- DEC_ADJ (R111): dec.adj turns a binary sum of BCD words into their decimal sum using alu.nc. -/
def execDecAdj (t : BitVec 5) (f : MoveForm) (s : State) : Out :=
  finish (runForm s t.toNat 0x64 f {} (decEff .adj))

/-- DEC_CMP (R110): dec.cmp compares decimal words and writes a three-way code. -/
def execDecCmp (t : BitVec 5) (f : MoveForm) (s : State) : Out :=
  finish (runForm s t.toNat 0x65 f {} (decEff .cmp))

/-- DEC_SHL (R112): dec.shl shifts digits left, collecting shifted-out digits in dec.rh. -/
def execDecShl (t : BitVec 5) (f : MoveForm) (s : State) : Out :=
  finish (runForm s t.toNat 0x66 f {} (decEff .shl))

/-- DEC_SHR (R112): dec.shr shifts digits right, collecting shifted-out digits in dec.rh. -/
def execDecShr (t : BitVec 5) (f : MoveForm) (s : State) : Out :=
  finish (runForm s t.toNat 0x67 f {} (decEff .shr))

/-- DEC_B2D (R113): dec.b2d converts a binary word to ten decimal digits. -/
def execDecB2d (t : BitVec 5) (f : MoveForm) (s : State) : Out :=
  finish (runForm s t.toNat 0x68 f {} (decEff .b2d))

/-- DEC_D2B (R114): dec.d2b converts a ten-digit decimal value to binary. -/
def execDecD2b (t : BitVec 5) (f : MoveForm) (s : State) : Out :=
  finish (runForm s t.toNat 0x69 f {} (decEff .d2b))

/-- DEC_ROUND (R115): dec.round rounds a 16-digit value by PLACES in the selected mode. -/
def execDecRound (t : BitVec 5) (f : MoveForm) (s : State) : Out :=
  finish (runForm s t.toNat 0x6C f {} (decEff .round))

/-- DEC_MULW (R117): dec.mulw starts the long decimal multiply micro-routine. -/
def execDecMulw (t : BitVec 5) (f : MoveForm) (s : State) : Out :=
  finish (runForm s t.toNat 0x6A f {} (decLongEff 0x6A))

/-- DEC_DIVW (R118): dec.divw starts the long decimal divide micro-routine or raises divide by zero. -/
def execDecDivw (t : BitVec 5) (f : MoveForm) (s : State) : Out :=
  finish (runForm s t.toNat 0x6B f {} (decLongEff 0x6B))

/-- LONG_ROUTINE_STEP (R163): One step of a long micro-routine completes and counts as one retirement. -/
def execLongRoutineStep (t : BitVec 5) (c : Circ) (s : State) : Out :=
  finish (stepOnly s t.toNat c)

end Sys2Proof.Machine
end

