-- ==== Sys2Proof/Machine/EventRows.lean ====
section
/-!
DEFINITION. The meanings of the event fabric, the real-time clock and the health converter (spec chapter 17).
-/

namespace Sys2Proof.Machine

/-- EVF_SWTRIG_WRITE (R460): A write to EVF_SWTRIG produces software events. -/
def execEvfSwtrigWrite (m : BitVec 6) (v : Word) (s : State) : Out :=
  finish (busWrite s m.toNat EVF_SWTRIG v)

/-- EVF_SEL_WRITE (R464): A write to EVF_SELi changes the producer that input i selects. -/
def execEvfSelWrite (m : BitVec 6) (i : BitVec 7) (v : Word) (s : State) : Out :=
  finish (busWrite s m.toNat (EVF_SEL i.toNat) v)

/-- RTC_SECOND (R471): The sub-second count rolls over, the seconds step and the alarm is compared. -/
def execRtcSecond (s : State) : Out :=
  finish (if secondDue s then slckEdge s else s)

/-- RTC_TRIM_CORRECTION (R470): A trim correction advances or holds the sub-second count. -/
def execRtcTrimCorrection (s : State) : Out :=
  finish (if correctionDue s then slckEdge s else s)

/-- RTC_LOAD (R468): A write of RTC_CTL.LOAD sets PEND for a staged load. -/
def execRtcLoad (m : BitVec 6) (v : Word) (s : State) : Out :=
  finish (busWrite s m.toNat RTC_CTL v)

/-- RTC_LOAD_APPLY (R468): At the next SLCK edge the staged value replaces the count. -/
def execRtcLoadApply (s : State) : Out :=
  finish (if flag s RTC_CTL RTC_CTL_PEND then slckEdge s else s)

/-- RTC_SUB_READ (R467): A read of RTC_SUB latches the seconds snapshot. -/
def execRtcSubRead (m : BitVec 6) (s : State) : Out :=
  finish (busRead s m.toNat RTC_SUB)

/-- MON_START (R473): A START write or event starts a conversion sequence. -/
def execMonStart (s : State) : Out :=
  finish (monStart s)

/-- MON_INTERVAL (R473): The continuous interval expires and starts the next sequence. -/
def execMonInterval (s : State) : Out :=
  finish (monInterval s)

/-- MON_CONVERSION (R474): A conversion ends, writing its result and checking its limits. -/
def execMonConversion (code : BitVec 12) (s : State) : Out :=
  finish (monConvert s code.toNat)

/-- EV_PIN_EDGE (R437): A qualified edge on pin EVk produces event 144 + k and acts as a kernel edge or capture input
where selected. -/
def execEvPinEdge (k : BitVec 3) (level : Bool) (periods : BitVec 32) (restart : BitVec 72) (s : State) : Out :=
  finish (pinApplied s k.toNat level periods.toNat restart)

/-- SLCK_EDGE (R467): Each SLCK edge advances the RTC sub-second count and updates the PCLK copy. -/
def execSlckEdge (s : State) : Out :=
  finish (slckEdge s)

end Sys2Proof.Machine
end

