-- ==== Sys2Proof/Machine/FlowRows.lean ====
section
/-!
DEFINITION. The meanings of branches, calls, returns and loops (spec chapter 06).
-/

namespace Sys2Proof.Machine

/-- CONDITIONAL_BRANCH (R81): A conditional branch tests fl and goes to its relative target when taken. -/
def execConditionalBranch (t : BitVec 5) (cond : BitVec 4) (off : BitVec 24) (s : State) : Out :=
  finish (runEnc s t.toNat (.long (encBranch cond off)) {})

/-- CALL_WITH_MASK (R154): A call with mask pushes a frame word and the masked registers, then jumps. -/
def execCallWithMask (t : BitVec 5) (mask : BitVec 16) (tgtSrc : Bool) (off : BitVec 12) (s : State) : Out :=
  finish (runEnc s t.toNat (.long (encCall mask tgtSrc off)) {})

/-- BR_JMP (R149): br.jmp sets the PC to the trigger value. -/
def execBrJmp (t : BitVec 5) (f : MoveForm) (s : State) : Out :=
  finish (runForm s t.toNat 0xA1 f {} jumpEff)

/-- BR_CALL (R149): br.call pushes a frame word and jumps. -/
def execBrCall (t : BitVec 5) (f : MoveForm) (s : State) : Out :=
  finish (runForm s t.toNat 0xA2 f {} brCallEff)

/-- BR_RET (R155): br.ret loads its call frame and restores registers, g31 and PC together. -/
def execBrRet (t : BitVec 5) (f : MoveForm) (s : State) : Out :=
  finish (runForm s t.toNat 0xA3 f {} (retEff {}))

/-- BR_RTI (R93): br.rti restores state from the entry frame and applies the resumption check. -/
def execBrRti (t : BitVec 5) (f : MoveForm) (s : State) : Out :=
  finish (runForm s t.toNat 0xA4 f {} (rtiEff {}))

/-- LP_GO (R157): lp.go opens a loop level, skips the body or raises loop overflow. -/
def execLpGo (t : BitVec 5) (f : MoveForm) (s : State) : Out :=
  finish (runForm s t.toNat 0xAC f {} loopGoEff)

/-- LP_EXIT (R160): lp.exit removes the innermost loop level. -/
def execLpExit (t : BitVec 5) (f : MoveForm) (s : State) : Out :=
  finish (runForm s t.toNat 0xAD f {} loopExitEff)

end Sys2Proof.Machine
end

