-- ==== Sys2Proof/Machine/HostRows.lean ====
section
/-!
DEFINITION. The meanings of the host function (spec chapter 20).
-/

namespace Sys2Proof.Machine

/-- PERST_ASSERT (R554): PERST# or hot reset resets the PCIE domain only. -/
def execPerstAssert (torn : Torn) (s : State) : Out :=
  finish (perst s torn)

/-- PERST_DEASSERT (R512): Deassertion of PERST# brings the link up and configuration into service. -/
def execPerstDeassert (speed : BitVec 4) (width : BitVec 6) (s : State) : Out :=
  finish (perstOff s speed.toNat width.toNat)

/-- FLR (R519): A function-level reset resets the host bridge. -/
def execFlr (torn : Torn) (s : State) : Out :=
  finish (flr s torn)

/-- HB_MSIGEN_WRITE (R517): A write to HB_MSIGEN sends a firmware MSI-X vector. -/
def execHbMsigenWrite (m : BitVec 6) (v : Word) (s : State) : Out :=
  finish (busWrite s m.toNat HB_MSIGEN v)

/-- PTM_DIALOGUE (R530): A completed PTM dialogue latches the master time with the RTC. -/
def execPtmDialogue (time : BitVec 64) (s : State) : Out :=
  finish (ptmDialogue s time)

/-- HB_PTMLO_READ (R531): A read of HB_PTMLO latches the rest of the PTM snapshot. -/
def execHbPtmloRead (m : BitVec 6) (s : State) : Out :=
  finish (busRead s m.toNat HB_PTMLO)

/-- DRAIN_WINDOW_WRITE (R516): A host write to the drain window is discarded and counted in LAT_STATUS.MWERR. -/
def execDrainWindowWrite (s : State) : Out :=
  finish (drainRow s)

/-- CONFIGURATION_REQUEST (R512): A host configuration request completes with retry status or normally, setting fields
such as Memory Space Enable, MSI-X Enable and the D-state. -/
def execConfigurationRequest (r : CfgReq) (s : State) : Out :=
  finish (configRequest s r)

/-- MSIX_VECTOR_UNMASK (R518): Unmasking a vector or the function sends the message whose PBA bit is pending. -/
def execMsixVectorUnmask (v : Option (BitVec 6)) (s : State) : Out :=
  finish (unmaskRow s v)

/-- PCIE_LINK_STATE_CHANGE (R513): The PCIe link retrains, recovers, enters or leaves L1, or goes down, taking the
limits set at the weave lock and raising shared source 99. -/
def execPcieLinkStateChange (c : LinkChange) (s : State) : Out :=
  finish (linkChange s c)

end Sys2Proof.Machine
end

