-- ==== Sys2Proof/Machine/LatticeRows.lean ====
section
/-!
DEFINITION. The meanings of the common store, the lattice and its priority commands (spec chapters 08 and 09).
-/

namespace Sys2Proof.Machine

/-- SCRUB_ROW (R247): A bank scrubs one 32-byte row, correcting or poisoning words. -/
def execScrubRow (spot : ScrubSpot) (u : Upset) (last : Bool) (s : State) : Out :=
  finish (matchEvery (scrubOne s spot u last))

/-- COMMON_STORE_ACCESS (R245): A bank performs one access in arrival order, bursts whole. -/
def execCommonStoreAccess (m : BitVec 6) (a : Word) (op : BankOp) (s : State) : Out :=
  finish (bankRow s m.toNat a.toNat op)

/-- LINK_FLIT_ERROR (R249): A flit failing its CRC is replayed, and repeated failures move the link to its spare or
fail it. -/
def execLinkFlitError (i : BitVec 5) (back again : Bool) (s : State) : Out :=
  finish (if i.toNat < 24 then flitError s i.toNat back again else s)

/-- PACKET_CRC_FAILURE (R250): A packet failing its end-to-end CRC is retransmitted once, or the route fails. -/
def execPacketCrcFailure (src dst : BitVec 4) (second : Bool) (s : State) : Out :=
  finish (packetError s src.toNat dst.toNat second)

/-- STOP_INTAKE (R255): The STOP-INTAKE command sets its sender's stop bit and the MACs drop datagrams. -/
def execStopIntake (who : BitVec 2) (s : State) : Out :=
  finish (stopIntake s who.toNat)

/-- RESUME_INTAKE (R255): The RESUME-INTAKE command clears its sender's stop bit. -/
def execResumeIntake (who : BitVec 2) (s : State) : Out :=
  finish (resumeIntake s who.toNat)

/-- THROTTLE_ON (R255): THROTTLE-ON starts intake back-pressure at the MACs. -/
def execThrottleOn (s : State) : Out :=
  finish (setThrottle s true)

/-- THROTTLE_OFF (R255): THROTTLE-OFF ends intake back-pressure. -/
def execThrottleOff (s : State) : Out :=
  finish (setThrottle s false)

/-- FATAL (R255): The FATAL command makes the host bridge and audit controller report safe halt. -/
def execFatal (s : State) : Out :=
  finish (fatalCommand s)

/-- HOST_FENCE (R244): A host write of LAT_HFENCE.GO holds later host accesses behind earlier ones. -/
def execHostFence (s : State) : Out :=
  finish (busWrite s 36 LAT_HFENCE 0x80000000)

/-- HOST_FENCE_DONE (R244): Once every earlier host access is performed, DONE rises and held accesses proceed. -/
def execHostFenceDone (s : State) : Out :=
  finish (fenceDone s)

/-- ROUTER_FAILURE (R250): A router's logic fails, every route through it becomes failed, and it is shown in
LAT_RTRFAIL. -/
def execRouterFailure (r : BitVec 4) (s : State) : Out :=
  finish (routerFail s r.toNat)

end Sys2Proof.Machine
end

