-- ==== Sys2Proof/Machine/LedgerRows.lean ====
section
/-!
DEFINITION. The meanings of the ledger engine and the power-fail sequence (spec chapter 13).
-/

namespace Sys2Proof.Machine

/-- LEDGER_COMMIT (R358): A commit request yields a chained record or a VOID record under its SEQ. -/
def execLedgerCommit (u v : QueueUpset) (s : State) : Out :=
  finish (ledgerCommit s u v)

/-- LEDGER_HEAD (R360): A direct HEAD request returns the durable head's SEQ and digest. -/
def execLedgerHead (u : QueueUpset) (s : State) : Out :=
  finish (ledgerDirect s u)

/-- RECORD_DURABLE (R364): A commit word becomes durable, the head advances and waiting results are pushed. -/
def execRecordDurable (s : State) : Out :=
  finish (advanceAll (writeRecord s))

/-- CAIRN_SIGNED (R369): The signature of a cairn completes and its slots are written. -/
def execCairnSigned (keyBad : Bool) (s : State) : Out :=
  finish (advanceAll (signCairn s keyBad))

/-- LED_ACKHI_WRITE (R371): A write to LED_ACKHI applies an acknowledgement, freeing slots or counting a refusal. -/
def execLedAckhiWrite (m : BitVec 6) (v : Word) (s : State) : Out :=
  finish (busWrite s m.toNat LED_ACKHI v)

/-- ANCHOR_DURABLE (R372): An anchor copy becomes durable and ANCHORPEND clears. -/
def execAnchorDurable (s : State) : Out :=
  finish (anchorDurable s)

/-- DRAIN_DMA_GO (R373): A GO starts a drain copy of ring slots to host memory or is refused. -/
def execDrainDmaGo (m : BitVec 6) (v : Word) (s : State) : Out :=
  finish (busWrite s m.toNat LED_DMACTL v)

/-- DRAIN_DMA_DONE (R373): A drain copy completes, sets DONE and sends the drain message. -/
def execDrainDmaDone (s : State) : Out :=
  finish (drainDone s)

/-- LED_DURSEQLO_READ (R386): A read of LED_DURSEQLO latches the ledger head snapshot. -/
def execLedDurseqloRead (m : BitVec 6) (s : State) : Out :=
  finish (busRead s m.toNat LED_DURSEQLO)

/-- POWER_FAIL (R374): A supply crossing below its threshold starts the power-fail sequence on hold-up energy. -/
def execPowerFail (s : State) : Out :=
  finish (powerFail s)

end Sys2Proof.Machine
end

