-- ==== Sys2Proof/Machine/LsuRows.lean ====
section
/-!
DEFINITION. The meanings of loads, stores and gather (spec chapter 05).
-/

namespace Sys2Proof.Machine

/-- LSU_LDB (R128): lsu.ldb loads a sign-extended byte. -/
def execLsuLdb (t : BitVec 5) (f : MoveForm) (c : Circ) (s : State) : Out :=
  finish (runForm s t.toNat 0x80 f c (loadEff 1 true c))

/-- LSU_LDBU (R128): lsu.ldbu loads a zero-extended byte. -/
def execLsuLdbu (t : BitVec 5) (f : MoveForm) (c : Circ) (s : State) : Out :=
  finish (runForm s t.toNat 0x81 f c (loadEff 1 false c))

/-- LSU_LDH (R128): lsu.ldh loads a sign-extended halfword. -/
def execLsuLdh (t : BitVec 5) (f : MoveForm) (c : Circ) (s : State) : Out :=
  finish (runForm s t.toNat 0x82 f c (loadEff 2 true c))

/-- LSU_LDHU (R128): lsu.ldhu loads a zero-extended halfword. -/
def execLsuLdhu (t : BitVec 5) (f : MoveForm) (c : Circ) (s : State) : Out :=
  finish (runForm s t.toNat 0x83 f c (loadEff 2 false c))

/-- LSU_LDW (R128): lsu.ldw loads a word. -/
def execLsuLdw (t : BitVec 5) (f : MoveForm) (c : Circ) (s : State) : Out :=
  finish (runForm s t.toNat 0x84 f c (loadEff 4 false c))

/-- LSU_STB (R128): lsu.stb stores a byte. -/
def execLsuStb (t : BitVec 5) (f : MoveForm) (s : State) : Out :=
  finish (runForm s t.toNat 0x85 f {} (storeEff 1))

/-- LSU_STH (R128): lsu.sth stores a halfword. -/
def execLsuSth (t : BitVec 5) (f : MoveForm) (s : State) : Out :=
  finish (runForm s t.toNat 0x86 f {} (storeEff 2))

/-- LSU_STW (R128): lsu.stw stores a word. -/
def execLsuStw (t : BitVec 5) (f : MoveForm) (s : State) : Out :=
  finish (runForm s t.toNat 0x87 f {} (storeEff 4))

/-- GTH_GO (R143): gth.go starts a gather from element 0. -/
def execGthGo (t : BitVec 5) (f : MoveForm) (s : State) : Out :=
  finish (runForm s t.toNat 0x8C f {} (gatherEff 0x8C))

/-- GTH_RESUME (R143): gth.resume continues a gather from gth.done. -/
def execGthResume (t : BitVec 5) (f : MoveForm) (s : State) : Out :=
  finish (runForm s t.toNat 0x8D f {} (gatherEff 0x8D))

/-- GATHER_ELEMENT (R144): One gather element is loaded or fails with the gather fault. -/
def execGatherElement (t : BitVec 5) (c : Circ) (s : State) : Out :=
  finish (gatherElement s t.toNat c)

end Sys2Proof.Machine
end

