-- ==== Sys2Proof/Machine/MailboxRows.lean ====
section
/-!
DEFINITION. The meanings of the mailbox, its commands and the doorbell (spec chapters 20 and 22).
-/

namespace Sys2Proof.Machine

/-- MBX_CMD_WORD (R522): A word written to MBX_CMD enters the frame assembler. -/
def execMbxCmdWord (v : Word) (be : BitVec 4) (s : State) : Out :=
  finish (placeWrite s 36 (.mailbox 0) v be)

/-- SERVICE_UART_WORD (R522): Four bytes received on the service UART form a word for the frame assembler. -/
def execServiceUartWord (bytes : List Byte) (s : State) : Out :=
  finish (serviceBytes s bytes)

/-- FRAME_ABANDON (R522): A frame incomplete 100 ms after its last word is discarded. -/
def execFrameAbandon (s : State) : Out :=
  finish (frameGap s)

/-- MBX_RSP_READ (R524): A read of MBX_RSP returns and removes the oldest response word. -/
def execMbxRspRead (s : State) : Out :=
  finish (placeRead s 36 (.mailbox 4))

/-- NOP (R526): NOP echoes its arguments. -/
def execNop (s : State) : Out :=
  finish (onFront s 0x01 cmdNop)

/-- STATUS (R526): STATUS returns six status registers as one snapshot. -/
def execStatus (s : State) : Out :=
  finish (onFront s 0x02 cmdStatus)

/-- SWITCH_PROFILE (R58): SWITCH_PROFILE performs a controlled restart into a profile. -/
def execSwitchProfile (st : SelfTest) (noise : List Byte) (s : State) : Out :=
  finish (onFront s 0x03 (cmdSwitchProfile st noise))

/-- KEY_LOAD (R528): KEY_LOAD stores a key in a slot and writes a KEYLOAD record. -/
def execKeyLoad (s : State) : Out :=
  finish (onFront s 0x10 cmdKeyLoad)

/-- KEY_ZERO (R528): KEY_ZERO clears the named key slots. -/
def execKeyZero (s : State) : Out :=
  finish (onFront s 0x11 cmdKeyZero)

/-- KEY_INFO (R526): KEY_INFO returns the presence bits and versions of the key slots. -/
def execKeyInfo (s : State) : Out :=
  finish (onFront s 0x12 cmdKeyInfo)

/-- UPD_BEGIN (R568): UPD_BEGIN records the target and length and enters DOWNLOAD. -/
def execUpdBegin (s : State) : Out :=
  finish (onFront s 0x20 cmdUpdBegin)

/-- UPD_DATA (R568): UPD_DATA writes image words into the staging slot. -/
def execUpdData (s : State) : Out :=
  finish (onFront s 0x21 cmdUpdData)

/-- UPD_VERIFY (R568): UPD_VERIFY checks the staged image. -/
def execUpdVerify (s : State) : Out :=
  finish (onFront s 0x22 cmdUpdVerify)

/-- UPD_ACTIVATE (R570): UPD_ACTIVATE copies the verified image into its slot and, for firmware, restarts. -/
def execUpdActivate (how : ActEnd) (st : SelfTest) (noise : List Byte) (s : State) : Out :=
  finish (onFront s 0x23 (cmdUpdActivate how st noise))

/-- UPD_CONFIRM (R568): UPD_CONFIRM marks the running firmware confirmed. -/
def execUpdConfirm (s : State) : Out :=
  finish (onFront s 0x24 cmdUpdConfirm)

/-- UPD_ABORT (R568): UPD_ABORT ends the update. -/
def execUpdAbort (s : State) : Out :=
  finish (onFront s 0x25 cmdUpdAbort)

/-- DOORBELL_STOP_INTAKE (R520): A DOORBELL write with code STOP-INTAKE sends that priority command. -/
def execDoorbellStopIntake (s : State) : Out :=
  finish (placeWrite s 36 (.mailbox 0x1000) 0x50440001 15)

/-- DOORBELL_RESUME_INTAKE (R520): A DOORBELL write with code RESUME-INTAKE sends that priority command. -/
def execDoorbellResumeIntake (s : State) : Out :=
  finish (placeWrite s 36 (.mailbox 0x1000) 0x50440002 15)

end Sys2Proof.Machine
end

