-- ==== Sys2Proof/Machine/MoveRows.lean ====
section
/-!
DEFINITION. The meanings of plain and immediate moves, ctl.mode and segment descriptor writes (spec chapter 03).
-/

namespace Sys2Proof.Machine

/-- PLAIN_MOVE (R60): A move transports 32 bits from a source port to a destination port. -/
def execPlainMove (t : BitVec 5) (e : Encoding) (c : Circ) (s : State) : Out :=
  finish (runEnc s t.toNat e c)

/-- IMMEDIATE_MOVE (R80): An immediate move writes a sign-extended immediate, or the upper half of a general register. -/
def execImmediateMove (t : BitVec 5) (dst : BitVec 8) (hi : Bool) (imm : BitVec 20) (s : State) : Out :=
  finish (runEnc s t.toNat (.long (encImm dst.toNat hi imm)) {})

/-- CTL_MODE_WRITE (R187): A supervisor write to ctl.mode changes DET at the next move, with cache effects. -/
def execCtlModeWrite (t : BitVec 5) (f : MoveForm) (s : State) : Out :=
  finish (runForm s t.toNat 0xDA f {} writeEff)

/-- SEGMENT_DESCRIPTOR_WRITE (R122): A write to a segment descriptor applies to every later access and refetches the
fetch segment. -/
def execSegmentDescriptorWrite (t : BitVec 5) (port : BitVec 8) (f : MoveForm) (s : State) : Out :=
  finish (runForm s t.toNat port.toNat f {} (unitEff port.toNat .none {}))

end Sys2Proof.Machine
end

