-- ==== Sys2Proof/Machine/NetRows.lean ====
section
/-!
DEFINITION. The meanings of the Ethernet ports and the serial line (spec chapter 21).
-/

namespace Sys2Proof.Machine

/-- ETH_FRAME_RECEIVE (R536): A received frame is checked and pushed as a datagram, sent to the slow path or dropped. -/
def execEthFrameReceive (p : BitVec 1) (frame : List Byte) (corr uncorr : BitVec 16) (s : State) : Out :=
  finish (ethReceive s p.toNat frame corr.toNat uncorr.toNat)

/-- ETH_LINK_CHANGE (R532): A port's link goes up or down. -/
def execEthLinkChange (p : BitVec 1) (blk fec ok los : Bool) (s : State) : Out :=
  finish (linkUpdate s p.toNat blk fec ok los)

/-- TX_FAULT (R534): A module reporting TX_FAULT makes the card drive TX_DISABLE high. -/
def execTxFault (p : BitVec 1) (level : Bool) (s : State) : Out :=
  finish (txFault s p.toNat level)

/-- MOD_ABS_CHANGE (R535): A change of module presence raises the SFP source. -/
def execModAbsChange (p : BitVec 1) (absent : Bool) (s : State) : Out :=
  finish (modAbs s p.toNat absent)

/-- SFP_READ (R535): ETH_SFPCMD.GO starts a module read. -/
def execSfpRead (m : BitVec 6) (p : BitVec 1) (v : Word) (s : State) : Out :=
  finish (busWrite s m.toNat (ETH_SFPCMD p.toNat) v)

/-- SFP_READ_DONE (R535): A module read completes with data or NAK. -/
def execSfpReadDone (p : BitVec 1) (data : Option Word) (s : State) : Out :=
  finish (sfpDone s p.toNat data)

/-- EGRESS_DISPATCH (R545): An egress dispatch pops a sealed receipt, builds its frame and answers the weft. -/
def execEgressDispatch (port : BitVec 2) (u v : QueueUpset) (s : State) : Out :=
  finish (if port.toNat < 3 then egressDispatch s port.toNat u v else s)

/-- EGRESS_RAW_FRAME (R547): A raw frame packet is sent or discarded without a result. -/
def execEgressRawFrame (port : BitVec 2) (u : QueueUpset) (s : State) : Out :=
  finish (if port.toNat < 3 then egressRaw s port.toNat u else s)

/-- SER_FRAME_RECEIVE (R551): A serial frame addressed to the card is taken as a datagram or slow-path packet. -/
def execSerFrameReceive (line : List Bool) (before : Bool) (s : State) : Out :=
  finish (serReceive s line before)

/-- ETH_PEERST_READ (R553): A read of ETH_PEERST latches the selected peer entry. -/
def execEthPeerstRead (m : BitVec 6) (p : BitVec 1) (s : State) : Out :=
  finish (busRead s m.toNat (ETH_PEERST p.toNat))

end Sys2Proof.Machine
end

