-- ==== Sys2Proof/Machine/PicRows.lean ====
section
/-!
DEFINITION. The meanings of the interrupt controller (spec chapter 15).
-/

namespace Sys2Proof.Machine

/-- PIC_SSET_WRITE (R409): A write to PIC_SSET sets software shared sources pending. -/
def execPicSsetWrite (m : BitVec 6) (v : Word) (s : State) : Out :=
  finish (busWrite s m.toNat PIC_SSET v)

/-- PIC_PSET_WRITE (R409): A write to PIC_PSETj sets software private sources pending. -/
def execPicPsetWrite (m : BitVec 6) (t : BitVec 5) (v : Word) (s : State) : Out :=
  finish (busWrite s m.toNat (PIC_PSET (t.toNat / 4) (t.toNat % 4)) v)

/-- MODERATION_TIMER (R427): A holding moderation group's timer reaches MOD_TIME and releases the group. -/
def execModerationTimer (g : BitVec 5) (s : State) : Out :=
  finish (modTimerDue s g.toNat)

/-- PIC_MOD_WRITE (R429): A write to PIC_MODm changes limits and may release a holding group. -/
def execPicModWrite (m : BitVec 6) (g : BitVec 5) (v : Word) (s : State) : Out :=
  finish (busWrite s m.toNat (PIC_MOD g.toNat) v)

end Sys2Proof.Machine
end

