-- ==== Sys2Proof/Machine/PowerRows.lean ====
section
/-!
DEFINITION. The meanings of power domains and clocks (spec chapters 18 and 19).
-/

namespace Sys2Proof.Machine

/-- PD_VOTEA_WRITE (R478): A write to PD_VOTEA changes the writing triad's bit or the whole word. -/
def execPdVoteaWrite (m : BitVec 6) (d : BitVec 5) (v : Word) (s : State) : Out :=
  finish (busWrite s m.toNat (PD_VOTEA d.toNat) v)

/-- PD_VOTEB_WRITE (R479): A write to PD_VOTEB changes HOST or clears WAKE or BOOT. -/
def execPdVotebWrite (m : BitVec 6) (d : BitVec 5) (v : Word) (s : State) : Out :=
  finish (busWrite s m.toNat (PD_VOTEB d.toNat) v)

/-- DOMAIN_ENTRY (R477): With every vote 0 and the entry condition met, a domain enters RET or OFF. -/
def execDomainEntry (d : BitVec 5) (wake : BitVec 4) (s : State) : Out :=
  finish (domainEntry s d.toNat wake.toNat)

/-- DOMAIN_EXIT (R484): A vote or wake request returns a domain to ON and reloads it. -/
def execDomainExit (d : BitVec 5) (reserveOk : Bool) (s : State) : Out :=
  finish (domainExit s d.toNat reserveOk)

/-- RAIL_FAULT (R493): A cluster rail leaving its window trips and stops the cluster's triads. -/
def execRailFault (n : BitVec 3) (s : State) : Out :=
  finish (railFault s n.toNat)

/-- CLK_SRC_WRITE (R499): A write to CLK_SRC switches a domain's clock source or sets SWPEND. -/
def execClkSrcWrite (m : BitVec 6) (d : BitVec 5) (v : Word) (s : State) : Out :=
  finish (busWrite s m.toNat (CLK_SRC d.toNat) v)

/-- PLL_LOCK (R495): PLLA locks and pending switches take place. -/
def execPllLock (s : State) : Out :=
  finish (pllLock s)

/-- CLOCK_FAILURE (R508): A failed root or PLLA forces domains to FIO. -/
def execClockFailure (root : Bool) (s : State) : Out :=
  finish (clockFailure s root)

/-- CLKSTOP_TIMEOUT (R505): An access at a stopped clock times out and ends in CLKSTOP or is captured. -/
def execClkstopTimeout (m : BitVec 6) (a : Word) (wr : Bool) (v : Word) (captured : Bool) (s : State) : Out :=
  finish (timeoutRow s m.toNat a.toNat wr v captured)

end Sys2Proof.Machine
end

