-- ==== Sys2Proof/Machine/QueueRows.lean ====
section
/-!
DEFINITION. The meanings of the engine port, the stale timer and the commands of the queue engine (spec chapter 10).
-/

namespace Sys2Proof.Machine

/-- ENGINE_PORT_PUSH (R277): An engine-port push burst is applied word by word once whole. -/
def execEnginePortPush (m : BitVec 6) (q : BitVec 20) (ws : List (Word × Bool)) (s : State) : Out :=
  finish (enginePushRow s m.toNat q.toNat ws)

/-- ENGINE_PORT_POP (R277): An engine-port pop takes up to 120 words, stopping after the first EOP. -/
def execEnginePortPop (m : BitVec 6) (q : BitVec 20) (n : BitVec 7) (u : QueueUpset) (s : State) : Out :=
  finish (enginePopRow s m.toNat q.toNat n.toNat u)

/-- ENGINE_PORT_STAT (R277): An engine-port stat returns a queue snapshot. -/
def execEnginePortStat (m : BitVec 6) (q : BitVec 20) (u : QueueUpset) (s : State) : Out :=
  finish (engineStatRow s m.toNat q.toNat u)

/-- STALE_TIMER_DUE (R289): An armed queue's stale timer falls due and posts a STALE notice. -/
def execStaleTimerDue (q : BitVec 20) (s : State) : Out :=
  finish (staleDue s q.toNat)

/-- QCMD_RESET (R297): The RESET command empties a queue and sets it NORMAL. -/
def execQcmdReset (m : BitVec 6) (q : BitVec 20) (s : State) : Out :=
  finish (busWrite s m.toNat QE_QCMD (0x10000000 + q.setWidth 32))

/-- QCMD_INSPECT (R297): The INSPECT command copies a descriptor into QE_DINSP0–3. -/
def execQcmdInspect (m : BitVec 6) (q : BitVec 20) (u : QueueUpset) (s : State) : Out :=
  finish (busWrite (upsetDesc s q.toNat u) m.toNat QE_QCMD (0x20000000 + q.setWidth 32))

/-- QCMD_INVALID (R297): A QE_QCMD write with an invalid OP sets RESULT to invalid. -/
def execQcmdInvalid (m : BitVec 6) (v : Word) (s : State) : Out :=
  finish (busWrite s m.toNat QE_QCMD v)

end Sys2Proof.Machine
end

