-- ==== Sys2Proof/Machine/Registers.lean ====
section
/-!
DEFINITION. The meanings of register accesses that have no row of their own.
-/

namespace Sys2Proof.Machine

/-- REGISTER_WRITE (R7): A write to a register that has no row of its own stores or ignores each field by its type. -/
def execRegisterWrite (m : BitVec 6) (p : Place) (v : Word) (be : BitVec 4) (s : State) : Out :=
  finish (placeWrite s m.toNat p v be)

/-- REGISTER_READ (R9): A read of an RC field returns and clears it, and a host read of a hole returns zero and is
counted in MOD_HOLECNT. -/
def execRegisterRead (m : BitVec 6) (p : Place) (s : State) : Out :=
  finish (placeRead s m.toNat p)

end Sys2Proof.Machine
end

