-- ==== Sys2Proof/Machine/TallyRows.lean ====
section
/-!
DEFINITION. The meanings of the tally engine (spec chapter 12).
-/

namespace Sys2Proof.Machine

/-- TALLY_BEGIN (R332): The BEGIN message sets a slot's TID and EPOCH in the tally engine. -/
def execTallyBegin (s : State) : Out :=
  finish (tallyTake s isBegin)

/-- TALLY_HEAD (R332): The HEAD message tells the tally engine which transaction is at the head. -/
def execTallyHead (s : State) : Out :=
  finish (tallyTake s isHead)

/-- TALLY_COMMIT (R343): The COMMIT message adds a transaction's deltas to the committed values. -/
def execTallyCommit (s : State) : Out :=
  finish (tallyTake s isCommit)

/-- TALLY_ABORT (R344): The ABORT message discards a transaction's deltas and reports readers. -/
def execTallyAbort (s : State) : Out :=
  finish (tallyTake s isAbort)

/-- TALLY_REWIND (R339): The REWIND message sets a new EPOCH and releases a held slot. -/
def execTallyRewind (s : State) : Out :=
  finish (tallyTake s isRewind)

/-- TALLY_END (R332): The END message frees a slot in the tally engine. -/
def execTallyEnd (s : State) : Out :=
  finish (tallyTake s isEnd)

/-- TALLY_ADD (R330): An ADD request adds a delta to a tally or is refused. -/
def execTallyAdd (u : QueueUpset) (s : State) : Out :=
  finish (tallyFront s 1 u)

/-- TALLY_READSPEC (R334): A READSPEC request returns the speculative sum and records the read. -/
def execTallyReadspec (u : QueueUpset) (s : State) : Out :=
  finish (tallyFront s 2 u)

/-- TALLY_READCOMM (R334): A READCOMM request returns the committed value. -/
def execTallyReadcomm (u : QueueUpset) (s : State) : Out :=
  finish (tallyFront s 3 u)

/-- TLY_LDCMD_GO (R346): A load sets a tally's committed value and writes a TALLYLOAD record. -/
def execTlyLdcmdGo (m : BitVec 6) (v : Word) (s : State) : Out :=
  finish (busWrite s m.toNat TLY_LDCMD v)

/-- TLY_CTRL_OPEN (R346): Setting OPEN starts request processing and ends loading. -/
def execTlyCtrlOpen (m : BitVec 6) (v : Word) (s : State) : Out :=
  finish (busWrite s m.toNat TLY_CTRL v)

/-- TLY_SEL_WRITE (R348): A write to TLY_SEL latches the selected tally's snapshot. -/
def execTlySelWrite (m : BitVec 6) (v : Word) (s : State) : Out :=
  finish (busWrite s m.toNat TLY_SEL v)

end Sys2Proof.Machine
end

