-- ==== Sys2Proof/Machine/TamperRows.lean ====
section
/-!
DEFINITION. The meanings of tamper response and the island (spec chapter 23).
-/

namespace Sys2Proof.Machine

/-- COVER_LOOP (R581): An open cover loop with LOOPEN set triggers zeroisation. -/
def execCoverLoop (ohms : BitVec 12) (s : State) : Out :=
  finish (coverOpen s ohms.toNat)

/-- TEMPERATURE (R581): The AON sensor outside its window triggers zeroisation. -/
def execTemperature (code : BitVec 12) (s : State) : Out :=
  finish (temperatureOut s code.toNat)

/-- VAON_GLITCH (R581): A VAON excursion of 20 ns or longer triggers zeroisation. -/
def execVaonGlitch (mv : BitVec 16) (merged : Bool) (s : State) : Out :=
  finish (vaonGlitch s mv.toNat merged)

/-- AONFAULT (R584): The duplicated AON logic disagrees and AONFAULT is set. -/
def execAonfault (s : State) : Out :=
  finish (aonFault s)

/-- SUPPLY_SWITCHOVER (R575): The AON switches between AUX3V3 and the cell. -/
def execSupplySwitchover (cell : Bool) (s : State) : Out :=
  finish (supplyChange s cell)

/-- BATGONE (R578): A VBAT excursion stops the charger and sets BATGONE. -/
def execBatgone (s : State) : Out :=
  finish (batteryGone s)

/-- BATGONE_CLEAR (R579): A write of 1 to BATGONE clears it when VBAT is in range and restarts the charger. -/
def execBatgoneClear (m : BitVec 6) (inRange : Bool) (s : State) : Out :=
  finish (busWrite { s with vbatIn := inRange } m.toNat TMP_STATUS 0x10)

/-- LOOPEN (R583): A write of 1 to LOOPEN arms the cover loop permanently. -/
def execLoopen (m : BitVec 6) (s : State) : Out :=
  finish (busWrite s m.toNat TMP_CTL (reg s TMP_CTL ||| BitVec.ofNat 32 (2 ^ TMP_CTL_LOOPEN.lo)))

/-- ISLAND_POWER_LOSS (R580): Loss of both AON sources loses the RTC, keys and tamper log. -/
def execIslandPowerLoss (s : State) : Out :=
  finish (powerOnReset (islandLost s) 0)

/-- TMP_LOGD0_READ (R590): A read of TMP_LOGD0 latches the selected tamper log entry. -/
def execTmpLogd0Read (m : BitVec 6) (s : State) : Out :=
  finish (busRead s m.toNat (TMP_LOGD 0))

/-- ISLAND_POWER_UP (R580): The AON regains a supply after losing both sources, and sets RTCINV and KEYLOST and
restarts TMP_LOGCNT. -/
def execIslandPowerUp (cell : Bool) (s : State) : Out :=
  finish (islandBack s cell)

/-- COVER_LOOP_CLOSED (R582): The tamper loop reads 500 Ω or less again, clearing LOOPOPEN and re-arming the trigger
after 1 ms. -/
def execCoverLoopClosed (ohms : BitVec 12) (s : State) : Out :=
  finish (coverClosed s ohms.toNat)

/-- TAMPER_TEMPERATURE_NORMAL (R582): The AON sensor returns to −25 °C to 90 °C, clearing TEMPOUT and re-arming the
temperature trigger. -/
def execTamperTemperatureNormal (code : BitVec 12) (s : State) : Out :=
  finish (temperatureBack s code.toNat)

end Sys2Proof.Machine
end

