-- ==== Sys2Proof/Machine/TimerRows.lean ====
section
/-!
DEFINITION. The meanings of the timers (spec chapter 16).
-/

namespace Sys2Proof.Machine

/-- TG_START (R442): TG_GCTL.START sets EN of the named channels together. -/
def execTgStart (m : BitVec 6) (g : BitVec 4) (c : BitVec 8) (s : State) : Out :=
  finish (busWrite s m.toNat (TG_GCTL g.toNat) (c.setWidth 32))

/-- TG_STOP (R442): TG_GCTL.STOP clears EN of the named channels. -/
def execTgStop (m : BitVec 6) (g : BitVec 4) (c : BitVec 8) (s : State) : Out :=
  finish (busWrite s m.toNat (TG_GCTL g.toNat) (c.setWidth 32 <<< 8))

/-- TIMER_MATCH (R445): A step makes the count equal to the compare value, raising the match. -/
def execTimerMatch (g : BitVec 4) (c : BitVec 3) (s : State) : Out :=
  finish (if g.toNat < 9 then timerMatch s g.toNat c.toNat else s)

/-- TIMER_OVERFLOW (R439): A step wraps the count to 0, raising the overflow event and a reload point. -/
def execTimerOverflow (g : BitVec 4) (c : BitVec 3) (s : State) : Out :=
  finish (if g.toNat < 9 then timerOverflow s g.toNat c.toNat else s)

/-- TIMER_CAPTURE (R448): A passed capture edge copies the count into TMR_CAP. -/
def execTimerCapture (g : BitVec 4) (c : BitVec 3) (s : State) : Out :=
  finish (if g.toNat < 9 then timerCapture s g.toNat c.toNat else s)

/-- LINK_RESTART (R451): A RESTART link event sets the count and accumulator to 0. -/
def execLinkRestart (g : BitVec 4) (c : BitVec 3) (k : BitVec 1) (s : State) : Out :=
  finish (if g.toNat < 9 then linkRow s g.toNat c.toNat k.toNat 1 else s)

/-- LINK_OPEN (R451): An OPEN link event opens the gate. -/
def execLinkOpen (g : BitVec 4) (c : BitVec 3) (k : BitVec 1) (s : State) : Out :=
  finish (if g.toNat < 9 then linkRow s g.toNat c.toNat k.toNat 2 else s)

/-- LINK_SHUT (R451): A SHUT link event shuts the gate. -/
def execLinkShut (g : BitVec 4) (c : BitVec 3) (k : BitVec 1) (s : State) : Out :=
  finish (if g.toNat < 9 then linkRow s g.toNat c.toNat k.toNat 3 else s)

/-- LINK_ARM (R451): An ARM link event sets EN. -/
def execLinkArm (g : BitVec 4) (c : BitVec 3) (k : BitVec 1) (s : State) : Out :=
  finish (if g.toNat < 9 then linkRow s g.toNat c.toNat k.toNat 4 else s)

/-- LINK_FOLLOW (R451): A change of TI opens or shuts the gate under FOLLOW. -/
def execLinkFollow (g : BitVec 4) (c : BitVec 3) (level : Bool) (s : State) : Out :=
  finish (if g.toNat < 9 then followTi s g.toNat c.toNat level else s)

/-- TMR_KICK_ZERO (R439): TMR_KICK.ZERO loads the count with 0 and marks a reload point. -/
def execTmrKickZero (m : BitVec 6) (g : BitVec 4) (c : BitVec 3) (s : State) : Out :=
  finish (busWrite s m.toNat (TMR_KICK g.toNat c.toNat) 1)

/-- TMR_KICK_SNAP (R448): TMR_KICK.SNAP makes a software capture. -/
def execTmrKickSnap (m : BitVec 6) (g : BitVec 4) (c : BitVec 3) (s : State) : Out :=
  finish (busWrite s m.toNat (TMR_KICK g.toNat c.toNat) 2)

/-- TMR_CNTHI_WRITE (R444): A write to TMR_CNTHI loads the count while stopped or sets WERR. -/
def execTmrCnthiWrite (m : BitVec 6) (g : BitVec 4) (c : BitVec 3) (v : Word) (s : State) : Out :=
  finish (busWrite s m.toNat (TMR_CNTHI g.toNat c.toNat) v)

/-- TMR_CNTLO_READ (R443): A read of TMR_CNTLO returns the latched count and latches TMR_CNTHI. -/
def execTmrCntloRead (m : BitVec 6) (g : BitVec 4) (c : BitVec 3) (s : State) : Out :=
  finish (busRead s m.toNat (TMR_CNTLO g.toNat c.toNat))

/-- TMR_CAPLO_READ (R449): A read of TMR_CAPLO latches TMR_CAPHI and clears CAPF. -/
def execTmrCaploRead (m : BitVec 6) (g : BitVec 4) (c : BitVec 3) (s : State) : Out :=
  finish (busRead s m.toNat (TMR_CAPLO g.toNat c.toNat))

/-- TMR_CMPHI_WRITE (R446): A write to TMR_CMPHI applies the 48-bit compare now or at the reload point. -/
def execTmrCmphiWrite (m : BitVec 6) (g : BitVec 4) (c : BitVec 3) (v : Word) (s : State) : Out :=
  finish (busWrite s m.toNat (TMR_CMPHI g.toNat c.toNat) v)

/-- TMR_TOPHI_WRITE (R446): A write to TMR_TOPHI applies the 48-bit TOP now or at the reload point. -/
def execTmrTophiWrite (m : BitVec 6) (g : BitVec 4) (c : BitVec 3) (v : Word) (s : State) : Out :=
  finish (busWrite s m.toNat (TMR_TOPHI g.toNat c.toNat) v)

/-- TMR_PSC_WRITE (R440): A write to TMR_PSC takes effect at the next reload point. -/
def execTmrPscWrite (m : BitVec 6) (g : BitVec 4) (c : BitVec 3) (v : Word) (s : State) : Out :=
  finish (busWrite s m.toNat (TMR_PSC g.toNat c.toNat) v)

/-- TMR_LINK_WRITE (R450): A write to TMR_LINK sets the links, or is ignored with WERR while EN = 1. -/
def execTmrLinkWrite (m : BitVec 6) (g : BitVec 4) (c : BitVec 3) (v : Word) (s : State) : Out :=
  finish (busWrite s m.toNat (TMR_LINK g.toNat c.toNat) v)

/-- KERNEL_EDGE (R438): Each counted kernel edge adds 256 to the accumulator and steps the count when the accumulator
reaches D. -/
def execKernelEdge (g : BitVec 4) (c : BitVec 3) (s : State) : Out :=
  finish (if g.toNat < 9 then kernelEdge s g.toNat c.toNat else s)

/-- TMR_CTRL_WRITE (R441): A write of TMR_CTRLc starts the channel (A := 0, gate open) or stops it and latches the
count, or sets WERR for a field written while EN = 1. -/
def execTmrCtrlWrite (m : BitVec 6) (g : BitVec 4) (c : BitVec 3) (v : Word) (s : State) : Out :=
  finish (busWrite s m.toNat (TMR_CTRL g.toNat c.toNat) v)

/-- TMR_IEN_WRITE (R454): Writing an enable bit of TMR_IENc to 1 while its flag is 1 produces the channel interrupt
event. -/
def execTmrIenWrite (m : BitVec 6) (g : BitVec 4) (c : BitVec 3) (v : Word) (s : State) : Out :=
  finish (busWrite s m.toNat (TMR_IEN g.toNat c.toNat) v)

/-- TMR_CAPCTL_WRITE (R448): A write of TMR_CAPCTLc that takes CAPEN from 0 to 1 restarts the edge prescaler count. -/
def execTmrCapctlWrite (m : BitVec 6) (g : BitVec 4) (c : BitVec 3) (v : Word) (s : State) : Out :=
  finish (busWrite s m.toNat (TMR_CAPCTL g.toNat c.toNat) v)

end Sys2Proof.Machine
end

