-- ==== Sys2Proof/Machine/TriadRows.lean ====
section
/-!
DEFINITION. The meanings of the cluster voter, divergence, the supervisors, compared logic (spec chapter 08).
-/

namespace Sys2Proof.Machine

/-- VOTER_EFFECT (R199): The voter releases an effect once two positions present identical copies. -/
def execVoterEffect (t : BitVec 5) (p : BitVec 2) (e : EffCopy) (s : State) : Out :=
  finish (voterEffect s t.toNat p.toNat e)

/-- VOTED_READ (R202): A read is issued once two positions match and its result goes to all three cores. -/
def execVotedRead (t : BitVec 5) (p : BitVec 2) (r : ReadCopy) (s : State) : Out :=
  finish (votedRead s t.toNat p.toNat r)

/-- RETIREMENT_CHECK (R209): At each multiple of 64 retirements the voter compares the cores' checks. -/
def execRetirementCheck (t : BitVec 5) (d0 d1 d2 : BitVec 64) (s : State) : Out :=
  finish (matchUp (compareChecks s t.toNat (fun p => if p = 0 then d0 else if p = 1 then d1 else d2)) t.toNat)

/-- LAG_TIMEOUT (R200): A position that retires nothing for 4 µs while another leads diverges. -/
def execLagTimeout (t : BitVec 5) (p : BitVec 2) (s : State) : Out :=
  finish (matchUp (lagTimeout s t.toNat p.toNat) t.toNat)

/-- REBUILD (R215): A rebuild copies state and local store from the source core and readmits the target. -/
def execRebuild (t : BitVec 5) (e : RebuildEnd) (s : State) : Out :=
  finish (matchUp (rebuildDone s t.toNat e) t.toNat)

/-- INTERRUPT_ENTRY (R207): The voter accepts an interrupt, chooses N and the triad enters the vector. -/
def execInterruptEntry (t : BitVec 5) (s : State) : Out :=
  finish (interruptEntry s t.toNat)

/-- VOTER_COPY_MISMATCH (R220): A disagreeing voter copy is masked and reloaded. -/
def execVoterCopyMismatch (n : BitVec 3) (v : BitVec 2) (s : State) : Out :=
  finish (voterCopy s n.toNat v.toNat)

/-- ENGINE_COPY_MISMATCH (R221): A disagreeing engine control copy is masked and reloaded at the next idle handshake. -/
def execEngineCopyMismatch (e : BitVec 4) (torn : Torn) (s : State) : Out :=
  finish (engineMismatch s e.toNat torn)

/-- SUPERVISOR_ACTION (R223): A recovery action is carried out when two supervisors present it identically. -/
def execSupervisorAction (a0 a1 a2 : Option SupAct) (s : State) : Out :=
  finish (matchEvery (supVote s (fun i => if i = 0 then a0 else if i = 1 then a1 else a2)))

/-- SUPERVISOR_VOTE_TIMEOUT (R223): A supervisor that presents no action within 2 µs is fenced. -/
def execSupervisorVoteTimeout (late : Option (BitVec 2)) (s : State) : Out :=
  finish (supTimeout s late)

/-- SUPERVISOR_REBUILD (R224): A fenced supervisor is rebuilt and rejoins the vote. -/
def execSupervisorRebuild (i : BitVec 2) (ok : Bool) (torn : Torn) (s : State) : Out :=
  finish (supRebuilt s i.toNat ok torn)

/-- SUP_FLOGD0_READ (R234): A read of SUP_FLOGD0 latches the selected fault-log entry. -/
def execSupFlogd0Read (m : BitVec 6) (s : State) : Out :=
  finish (busRead s m.toNat (SUP_FLOGD 0))

/-- CLV_RCNTLO_READ (R235): A read of CLV_RCNTLO latches the matching count and check. -/
def execClvRcntloRead (m : BitVec 6) (t : BitVec 5) (s : State) : Out :=
  finish (busRead s m.toNat (CLV_RCNTLO (t.toNat / 4) (t.toNat % 4)))

/-- DUPLICATED_LOGIC_MISMATCH (R231): The compared duplicate logic of the interrupt controller, event fabric, timers,
RTC, health converter or a host or network interface disagrees, and a DETECT entry is logged. -/
def execDuplicatedLogicMismatch (s : State) : Out :=
  finish (logFault s .detect noElem noElem 0)

/-- INGRESS_COMPARATOR_DISAGREEMENT (R220): The two halves of a cluster's ingress comparator disagree, and the
cluster's four triads stop. -/
def execIngressComparatorDisagreement (n : BitVec 3) (s : State) : Out :=
  finish (comparatorSplit s n.toNat)

end Sys2Proof.Machine
end

