-- ==== Sys2Proof/Machine/WeftRows.lean ====
section
/-!
DEFINITION. The meanings of the weft sequencer (spec chapter 11).
-/

namespace Sys2Proof.Machine

/-- WS_CTRL_EN_WRITE (R323): A write of WS_CTRL.EN starts the sequencer or is refused for a bad context area. -/
def execWsCtrlEnWrite (m : BitVec 6) (v : Word) (s : State) : Out :=
  finish (busWrite s m.toNat WS_CTRL v)

/-- TOKEN_CREATE (R307): The sequencer pops a START notice and creates a token for a READY or STALE notice. -/
def execTokenCreate (u : QueueUpset) (s : State) : Out :=
  finish (tokenCreate s u)

/-- STAGE_DISPATCH (R309): Once its waits clear and room exists, the sequencer pushes a stage's dispatch packet. -/
def execStageDispatch (slot : BitVec 16) (s : State) : Out :=
  finish (stageDispatch s slot.toNat)

/-- STAGE_RESULT (R312): A handler's result packet is accepted or discarded and the next stage selected. -/
def execStageResult (u : QueueUpset) (s : State) : Out :=
  finish (stageResult s u)

/-- STAGE_TIMEOUT (R314): A stage timer fires and the transaction aborts with TIMEOUT or ends after commit. -/
def execStageTimeout (slot : BitVec 16) (s : State) : Out :=
  finish (stageTimeout s slot.toNat)

/-- INTAKE_PACKET_DISCARD (R316): In its turn the sequencer pops and discards an aborted transaction's intake packet. -/
def execIntakePacketDiscard (slot : BitVec 16) (u : QueueUpset) (s : State) : Out :=
  finish (intakeDiscard s slot.toNat u)

/-- READER_REPORT (R318): A reader reported by the tally engine is rewound to its checkpoint stage. -/
def execReaderReport (s : State) : Out :=
  finish (readerReport s)

/-- WS_SEQLO_READ (R325): A read of WS_SEQLO latches WS_SEQHI. -/
def execWsSeqloRead (m : BitVec 6) (s : State) : Out :=
  finish (busRead s m.toNat WS_SEQLO)

/-- WS_SLOTST_READ (R326): A read of WS_SLOTST latches the selected slot's token. -/
def execWsSlotstRead (m : BitVec 6) (s : State) : Out :=
  finish (busRead s m.toNat WS_SLOTST)

end Sys2Proof.Machine
end

