-- ==== Sys2Proof/Machine/Dispatch.lean ====
section
/-!
DEFINITION. The dispatch: one arm for each command.
-/

namespace Sys2Proof.Machine

def exec (i : Instr) (s : State) : Host.Outcome State Fault Refusal :=
  match i with
  | .registerWrite m p v be => Sys2Proof.Machine.execRegisterWrite m p v be s
  | .powerOnResetRelease psel st noise => Sys2Proof.Machine.execPowerOnResetRelease psel st noise s
  | .bootCtlWrite m v => Sys2Proof.Machine.execBootCtlWrite m v s
  | .bootCtlDurable => Sys2Proof.Machine.execBootCtlDurable s
  | .plainMove t e c => Sys2Proof.Machine.execPlainMove t e c s
  | .immediateMove t dst hi imm => Sys2Proof.Machine.execImmediateMove t dst hi imm s
  | .ctlModeWrite t f => Sys2Proof.Machine.execCtlModeWrite t f s
  | .segmentDescriptorWrite t port f => Sys2Proof.Machine.execSegmentDescriptorWrite t port f s
  | .conditionalBranch t cond off => Sys2Proof.Machine.execConditionalBranch t cond off s
  | .callWithMask t mask tgtSrc off => Sys2Proof.Machine.execCallWithMask t mask tgtSrc off s
  | .aluAdd t f => Sys2Proof.Machine.execAluAdd t f s
  | .aluAdc t f => Sys2Proof.Machine.execAluAdc t f s
  | .aluSub t f => Sys2Proof.Machine.execAluSub t f s
  | .aluSbc t f => Sys2Proof.Machine.execAluSbc t f s
  | .aluAnd t f => Sys2Proof.Machine.execAluAnd t f s
  | .aluOr t f => Sys2Proof.Machine.execAluOr t f s
  | .aluXor t f => Sys2Proof.Machine.execAluXor t f s
  | .aluAndn t f => Sys2Proof.Machine.execAluAndn t f s
  | .aluShl t f => Sys2Proof.Machine.execAluShl t f s
  | .aluShr t f => Sys2Proof.Machine.execAluShr t f s
  | .aluSar t f => Sys2Proof.Machine.execAluSar t f s
  | .aluRol t f => Sys2Proof.Machine.execAluRol t f s
  | .aluRor t f => Sys2Proof.Machine.execAluRor t f s
  | .aluCmp t f => Sys2Proof.Machine.execAluCmp t f s
  | .aluTst t f => Sys2Proof.Machine.execAluTst t f s
  | .decAdd t f => Sys2Proof.Machine.execDecAdd t f s
  | .decAdc t f => Sys2Proof.Machine.execDecAdc t f s
  | .decSub t f => Sys2Proof.Machine.execDecSub t f s
  | .decSbc t f => Sys2Proof.Machine.execDecSbc t f s
  | .decAdj t f => Sys2Proof.Machine.execDecAdj t f s
  | .decCmp t f => Sys2Proof.Machine.execDecCmp t f s
  | .decShl t f => Sys2Proof.Machine.execDecShl t f s
  | .decShr t f => Sys2Proof.Machine.execDecShr t f s
  | .decB2d t f => Sys2Proof.Machine.execDecB2d t f s
  | .decD2b t f => Sys2Proof.Machine.execDecD2b t f s
  | .decRound t f => Sys2Proof.Machine.execDecRound t f s
  | .decMulw t f => Sys2Proof.Machine.execDecMulw t f s
  | .decDivw t f => Sys2Proof.Machine.execDecDivw t f s
  | .longRoutineStep t c => Sys2Proof.Machine.execLongRoutineStep t c s
  | .mulMulu t f => Sys2Proof.Machine.execMulMulu t f s
  | .mulMuls t f => Sys2Proof.Machine.execMulMuls t f s
  | .mulMac t f => Sys2Proof.Machine.execMulMac t f s
  | .lsuLdb t f c => Sys2Proof.Machine.execLsuLdb t f c s
  | .lsuLdbu t f c => Sys2Proof.Machine.execLsuLdbu t f c s
  | .lsuLdh t f c => Sys2Proof.Machine.execLsuLdh t f c s
  | .lsuLdhu t f c => Sys2Proof.Machine.execLsuLdhu t f c s
  | .lsuLdw t f c => Sys2Proof.Machine.execLsuLdw t f c s
  | .lsuStb t f => Sys2Proof.Machine.execLsuStb t f s
  | .lsuSth t f => Sys2Proof.Machine.execLsuSth t f s
  | .lsuStw t f => Sys2Proof.Machine.execLsuStw t f s
  | .gthGo t f => Sys2Proof.Machine.execGthGo t f s
  | .gthResume t f => Sys2Proof.Machine.execGthResume t f s
  | .gatherElement t c => Sys2Proof.Machine.execGatherElement t c s
  | .brJmp t f => Sys2Proof.Machine.execBrJmp t f s
  | .brCall t f => Sys2Proof.Machine.execBrCall t f s
  | .brRet t f => Sys2Proof.Machine.execBrRet t f s
  | .brRti t f => Sys2Proof.Machine.execBrRti t f s
  | .lpGo t f => Sys2Proof.Machine.execLpGo t f s
  | .lpExit t f => Sys2Proof.Machine.execLpExit t f s
  | .qpPush t f u => Sys2Proof.Machine.execQpPush t f u s
  | .qpPop t f u => Sys2Proof.Machine.execQpPop t f u s
  | .qpDrop t f u => Sys2Proof.Machine.execQpDrop t f u s
  | .qpStat t f u => Sys2Proof.Machine.execQpStat t f u s
  | .ctlEoi t f => Sys2Proof.Machine.execCtlEoi t f s
  | .ctlWait t f => Sys2Proof.Machine.execCtlWait t f s
  | .ctlFlush t f => Sys2Proof.Machine.execCtlFlush t f s
  | .ctlFence t f => Sys2Proof.Machine.execCtlFence t f s
  | .ctlUsave t f => Sys2Proof.Machine.execCtlUsave t f s
  | .ctlUrest t f => Sys2Proof.Machine.execCtlUrest t f s
  | .ctlTrap t f => Sys2Proof.Machine.execCtlTrap t f s
  | .ctlClaim t dst => Sys2Proof.Machine.execCtlClaim t dst s
  | .voterEffect t p e => Sys2Proof.Machine.execVoterEffect t p e s
  | .votedRead t p r => Sys2Proof.Machine.execVotedRead t p r s
  | .retirementCheck t d0 d1 d2 => Sys2Proof.Machine.execRetirementCheck t d0 d1 d2 s
  | .lagTimeout t p => Sys2Proof.Machine.execLagTimeout t p s
  | .rebuild t e => Sys2Proof.Machine.execRebuild t e s
  | .interruptEntry t => Sys2Proof.Machine.execInterruptEntry t s
  | .voterCopyMismatch n v => Sys2Proof.Machine.execVoterCopyMismatch n v s
  | .engineCopyMismatch e torn => Sys2Proof.Machine.execEngineCopyMismatch e torn s
  | .supervisorAction a0 a1 a2 => Sys2Proof.Machine.execSupervisorAction a0 a1 a2 s
  | .supervisorVoteTimeout late => Sys2Proof.Machine.execSupervisorVoteTimeout late s
  | .supervisorRebuild i0 ok torn => Sys2Proof.Machine.execSupervisorRebuild i0 ok torn s
  | .scrubRow spot u last => Sys2Proof.Machine.execScrubRow spot u last s
  | .commonStoreAccess m a op => Sys2Proof.Machine.execCommonStoreAccess m a op s
  | .linkFlitError i0 back again => Sys2Proof.Machine.execLinkFlitError i0 back again s
  | .packetCrcFailure src dst second => Sys2Proof.Machine.execPacketCrcFailure src dst second s
  | .stopIntake who => Sys2Proof.Machine.execStopIntake who s
  | .resumeIntake who => Sys2Proof.Machine.execResumeIntake who s
  | .throttleOn => Sys2Proof.Machine.execThrottleOn s
  | .throttleOff => Sys2Proof.Machine.execThrottleOff s
  | .fatal => Sys2Proof.Machine.execFatal s
  | .hostFence => Sys2Proof.Machine.execHostFence s
  | .hostFenceDone => Sys2Proof.Machine.execHostFenceDone s
  | .enginePortPush m q ws => Sys2Proof.Machine.execEnginePortPush m q ws s
  | .enginePortPop m q n u => Sys2Proof.Machine.execEnginePortPop m q n u s
  | .enginePortStat m q u => Sys2Proof.Machine.execEnginePortStat m q u s
  | .staleTimerDue q => Sys2Proof.Machine.execStaleTimerDue q s
  | .qcmdReset m q => Sys2Proof.Machine.execQcmdReset m q s
  | .qcmdInspect m q u => Sys2Proof.Machine.execQcmdInspect m q u s
  | .qcmdInvalid m v => Sys2Proof.Machine.execQcmdInvalid m v s
  | .wsCtrlEnWrite m v => Sys2Proof.Machine.execWsCtrlEnWrite m v s
  | .tokenCreate u => Sys2Proof.Machine.execTokenCreate u s
  | .stageDispatch slot => Sys2Proof.Machine.execStageDispatch slot s
  | .stageResult u => Sys2Proof.Machine.execStageResult u s
  | .stageTimeout slot => Sys2Proof.Machine.execStageTimeout slot s
  | .intakePacketDiscard slot u => Sys2Proof.Machine.execIntakePacketDiscard slot u s
  | .readerReport => Sys2Proof.Machine.execReaderReport s
  | .tallyBegin => Sys2Proof.Machine.execTallyBegin s
  | .tallyHead => Sys2Proof.Machine.execTallyHead s
  | .tallyCommit => Sys2Proof.Machine.execTallyCommit s
  | .tallyAbort => Sys2Proof.Machine.execTallyAbort s
  | .tallyRewind => Sys2Proof.Machine.execTallyRewind s
  | .tallyEnd => Sys2Proof.Machine.execTallyEnd s
  | .tallyAdd u => Sys2Proof.Machine.execTallyAdd u s
  | .tallyReadspec u => Sys2Proof.Machine.execTallyReadspec u s
  | .tallyReadcomm u => Sys2Proof.Machine.execTallyReadcomm u s
  | .tlyLdcmdGo m v => Sys2Proof.Machine.execTlyLdcmdGo m v s
  | .tlyCtrlOpen m v => Sys2Proof.Machine.execTlyCtrlOpen m v s
  | .tlySelWrite m v => Sys2Proof.Machine.execTlySelWrite m v s
  | .ledgerCommit u v => Sys2Proof.Machine.execLedgerCommit u v s
  | .ledgerHead u => Sys2Proof.Machine.execLedgerHead u s
  | .recordDurable => Sys2Proof.Machine.execRecordDurable s
  | .cairnSigned keyBad => Sys2Proof.Machine.execCairnSigned keyBad s
  | .ledAckhiWrite m v => Sys2Proof.Machine.execLedAckhiWrite m v s
  | .anchorDurable => Sys2Proof.Machine.execAnchorDurable s
  | .drainDmaGo m v => Sys2Proof.Machine.execDrainDmaGo m v s
  | .drainDmaDone => Sys2Proof.Machine.execDrainDmaDone s
  | .ledDurseqloRead m => Sys2Proof.Machine.execLedDurseqloRead m s
  | .powerFail => Sys2Proof.Machine.execPowerFail s
  | .cryptoVerify n u v mismatch keyBad => Sys2Proof.Machine.execCryptoVerify n u v mismatch keyBad s
  | .cryptoSeal n u v mismatch keyBad => Sys2Proof.Machine.execCryptoSeal n u v mismatch keyBad s
  | .cryptoHash n u v mismatch keyBad => Sys2Proof.Machine.execCryptoHash n u v mismatch keyBad s
  | .drawRange u noise bad keyBad => Sys2Proof.Machine.execDrawRange u noise bad keyBad s
  | .drawKofn u noise bad keyBad => Sys2Proof.Machine.execDrawKofn u noise bad keyBad s
  | .drawHealth u => Sys2Proof.Machine.execDrawHealth u s
  | .picSsetWrite m v => Sys2Proof.Machine.execPicSsetWrite m v s
  | .picPsetWrite m t v => Sys2Proof.Machine.execPicPsetWrite m t v s
  | .moderationTimer g => Sys2Proof.Machine.execModerationTimer g s
  | .picModWrite m g v => Sys2Proof.Machine.execPicModWrite m g v s
  | .tgStart m g c => Sys2Proof.Machine.execTgStart m g c s
  | .tgStop m g c => Sys2Proof.Machine.execTgStop m g c s
  | .timerMatch g c => Sys2Proof.Machine.execTimerMatch g c s
  | .timerOverflow g c => Sys2Proof.Machine.execTimerOverflow g c s
  | .timerCapture g c => Sys2Proof.Machine.execTimerCapture g c s
  | .linkRestart g c k => Sys2Proof.Machine.execLinkRestart g c k s
  | .linkOpen g c k => Sys2Proof.Machine.execLinkOpen g c k s
  | .linkShut g c k => Sys2Proof.Machine.execLinkShut g c k s
  | .linkArm g c k => Sys2Proof.Machine.execLinkArm g c k s
  | .linkFollow g c level => Sys2Proof.Machine.execLinkFollow g c level s
  | .tmrKickZero m g c => Sys2Proof.Machine.execTmrKickZero m g c s
  | .tmrKickSnap m g c => Sys2Proof.Machine.execTmrKickSnap m g c s
  | .tmrCnthiWrite m g c v => Sys2Proof.Machine.execTmrCnthiWrite m g c v s
  | .tmrCntloRead m g c => Sys2Proof.Machine.execTmrCntloRead m g c s
  | .tmrCaploRead m g c => Sys2Proof.Machine.execTmrCaploRead m g c s
  | .tmrCmphiWrite m g c v => Sys2Proof.Machine.execTmrCmphiWrite m g c v s
  | .tmrTophiWrite m g c v => Sys2Proof.Machine.execTmrTophiWrite m g c v s
  | .tmrPscWrite m g c v => Sys2Proof.Machine.execTmrPscWrite m g c v s
  | .tmrLinkWrite m g c v => Sys2Proof.Machine.execTmrLinkWrite m g c v s
  | .evfSwtrigWrite m v => Sys2Proof.Machine.execEvfSwtrigWrite m v s
  | .evfSelWrite m i0 v => Sys2Proof.Machine.execEvfSelWrite m i0 v s
  | .rtcSecond => Sys2Proof.Machine.execRtcSecond s
  | .rtcTrimCorrection => Sys2Proof.Machine.execRtcTrimCorrection s
  | .rtcLoad m v => Sys2Proof.Machine.execRtcLoad m v s
  | .rtcLoadApply => Sys2Proof.Machine.execRtcLoadApply s
  | .rtcSubRead m => Sys2Proof.Machine.execRtcSubRead m s
  | .monStart => Sys2Proof.Machine.execMonStart s
  | .monInterval => Sys2Proof.Machine.execMonInterval s
  | .monConversion code => Sys2Proof.Machine.execMonConversion code s
  | .pdVoteaWrite m d v => Sys2Proof.Machine.execPdVoteaWrite m d v s
  | .pdVotebWrite m d v => Sys2Proof.Machine.execPdVotebWrite m d v s
  | .domainEntry d wake => Sys2Proof.Machine.execDomainEntry d wake s
  | .domainExit d reserveOk => Sys2Proof.Machine.execDomainExit d reserveOk s
  | .railFault n => Sys2Proof.Machine.execRailFault n s
  | .clkSrcWrite m d v => Sys2Proof.Machine.execClkSrcWrite m d v s
  | .pllLock => Sys2Proof.Machine.execPllLock s
  | .clockFailure root => Sys2Proof.Machine.execClockFailure root s
  | .clkstopTimeout m a wr v captured => Sys2Proof.Machine.execClkstopTimeout m a wr v captured s
  | .perstAssert torn => Sys2Proof.Machine.execPerstAssert torn s
  | .perstDeassert speed width => Sys2Proof.Machine.execPerstDeassert speed width s
  | .flr torn => Sys2Proof.Machine.execFlr torn s
  | .hbMsigenWrite m v => Sys2Proof.Machine.execHbMsigenWrite m v s
  | .ptmDialogue time => Sys2Proof.Machine.execPtmDialogue time s
  | .hbPtmloRead m => Sys2Proof.Machine.execHbPtmloRead m s
  | .mbxCmdWord v be => Sys2Proof.Machine.execMbxCmdWord v be s
  | .serviceUartWord bytes => Sys2Proof.Machine.execServiceUartWord bytes s
  | .frameAbandon => Sys2Proof.Machine.execFrameAbandon s
  | .mbxRspRead => Sys2Proof.Machine.execMbxRspRead s
  | .nop => Sys2Proof.Machine.execNop s
  | .status => Sys2Proof.Machine.execStatus s
  | .switchProfile st noise => Sys2Proof.Machine.execSwitchProfile st noise s
  | .keyLoad => Sys2Proof.Machine.execKeyLoad s
  | .keyZero => Sys2Proof.Machine.execKeyZero s
  | .keyInfo => Sys2Proof.Machine.execKeyInfo s
  | .updBegin => Sys2Proof.Machine.execUpdBegin s
  | .updData => Sys2Proof.Machine.execUpdData s
  | .updVerify => Sys2Proof.Machine.execUpdVerify s
  | .updActivate bad st noise => Sys2Proof.Machine.execUpdActivate bad st noise s
  | .updConfirm => Sys2Proof.Machine.execUpdConfirm s
  | .updAbort => Sys2Proof.Machine.execUpdAbort s
  | .doorbellStopIntake => Sys2Proof.Machine.execDoorbellStopIntake s
  | .doorbellResumeIntake => Sys2Proof.Machine.execDoorbellResumeIntake s
  | .ethFrameReceive p frame corr uncorr => Sys2Proof.Machine.execEthFrameReceive p frame corr uncorr s
  | .ethLinkChange p blk fec ok los => Sys2Proof.Machine.execEthLinkChange p blk fec ok los s
  | .txFault p level => Sys2Proof.Machine.execTxFault p level s
  | .modAbsChange p absent => Sys2Proof.Machine.execModAbsChange p absent s
  | .sfpRead m p v => Sys2Proof.Machine.execSfpRead m p v s
  | .sfpReadDone p data => Sys2Proof.Machine.execSfpReadDone p data s
  | .egressDispatch port u v => Sys2Proof.Machine.execEgressDispatch port u v s
  | .egressRawFrame port u => Sys2Proof.Machine.execEgressRawFrame port u s
  | .serFrameReceive frame abort => Sys2Proof.Machine.execSerFrameReceive frame abort s
  | .coverLoop ohms => Sys2Proof.Machine.execCoverLoop ohms s
  | .temperature code => Sys2Proof.Machine.execTemperature code s
  | .vaonGlitch mv merged => Sys2Proof.Machine.execVaonGlitch mv merged s
  | .aonfault => Sys2Proof.Machine.execAonfault s
  | .supplySwitchover cell => Sys2Proof.Machine.execSupplySwitchover cell s
  | .batgone => Sys2Proof.Machine.execBatgone s
  | .batgoneClear m inRange => Sys2Proof.Machine.execBatgoneClear m inRange s
  | .loopen m => Sys2Proof.Machine.execLoopen m s
  | .islandPowerLoss => Sys2Proof.Machine.execIslandPowerLoss s
  | .tmpLogd0Read m => Sys2Proof.Machine.execTmpLogd0Read m s
  | .supFlogd0Read m => Sys2Proof.Machine.execSupFlogd0Read m s
  | .clvRcntloRead m t => Sys2Proof.Machine.execClvRcntloRead m t s
  | .wsSeqloRead m => Sys2Proof.Machine.execWsSeqloRead m s
  | .wsSlotstRead m => Sys2Proof.Machine.execWsSlotstRead m s
  | .ethPeerstRead m p => Sys2Proof.Machine.execEthPeerstRead m p s
  | .auditOpen n => Sys2Proof.Machine.execAuditOpen n s
  | .auditClose n => Sys2Proof.Machine.execAuditClose n s
  | .auditRead a n => Sys2Proof.Machine.execAuditRead a n s
  | .auditTrace n => Sys2Proof.Machine.execAuditTrace n s
  | .auditSessionTimeout => Sys2Proof.Machine.execAuditSessionTimeout s
  | .audTrcselWrite m v => Sys2Proof.Machine.execAudTrcselWrite m v s
  | .halt m t => Sys2Proof.Machine.execHalt m t s
  | .step m t => Sys2Proof.Machine.execStep m t s
  | .resume m t => Sys2Proof.Machine.execResume m t s
  | .dbgAccGo m v => Sys2Proof.Machine.execDbgAccGo m v s
  | .tapReset => Sys2Proof.Machine.execTapReset s
  | .samplePreload sampled load => Sys2Proof.Machine.execSamplePreload sampled load s
  | .idcode => Sys2Proof.Machine.execIdcode s
  | .extest load => Sys2Proof.Machine.execExtest load s
  | .clamp => Sys2Proof.Machine.execClamp s
  | .highz => Sys2Proof.Machine.execHighz s
  | .dbgacc w => Sys2Proof.Machine.execDbgacc w s
  | .keytab w => Sys2Proof.Machine.execKeytab w s
  | .seal v => Sys2Proof.Machine.execSeal v s
  | .bypass => Sys2Proof.Machine.execBypass s
  | .registerRead m p => Sys2Proof.Machine.execRegisterRead m p s
  | .kernelEdge g c => Sys2Proof.Machine.execKernelEdge g c s
  | .evPinEdge k level held accept => Sys2Proof.Machine.execEvPinEdge k level held accept s
  | .slckEdge => Sys2Proof.Machine.execSlckEdge s
  | .tmrCtrlWrite m g c v => Sys2Proof.Machine.execTmrCtrlWrite m g c v s
  | .tmrIenWrite m g c v => Sys2Proof.Machine.execTmrIenWrite m g c v s
  | .tmrCapctlWrite m g c v => Sys2Proof.Machine.execTmrCapctlWrite m g c v s
  | .drwEntinWrite m v => Sys2Proof.Machine.execDrwEntinWrite m v s
  | .drainWindowWrite => Sys2Proof.Machine.execDrainWindowWrite s
  | .configurationRequest r => Sys2Proof.Machine.execConfigurationRequest r s
  | .msixVectorUnmask v => Sys2Proof.Machine.execMsixVectorUnmask v s
  | .pcieLinkStateChange c => Sys2Proof.Machine.execPcieLinkStateChange c s
  | .routerFailure r => Sys2Proof.Machine.execRouterFailure r s
  | .duplicatedLogicMismatch => Sys2Proof.Machine.execDuplicatedLogicMismatch s
  | .ingressComparatorDisagreement n => Sys2Proof.Machine.execIngressComparatorDisagreement n s
  | .islandPowerUp cell => Sys2Proof.Machine.execIslandPowerUp cell s
  | .coverLoopClosed ohms => Sys2Proof.Machine.execCoverLoopClosed ohms s
  | .tamperTemperatureNormal code => Sys2Proof.Machine.execTamperTemperatureNormal code s

end Sys2Proof.Machine
end

