-- ==== Sys2Proof/Safety.lean ====
section
/-!
DEFINITION. What a safe run is, in the terms that statements use: no step stops, every table of the state stays in its
canonical form, and the predicates that say what a command changes and what it leaves.
-/

namespace Sys2Proof.Machine

/-- The command completes: it answers a next state. -/
def Completes (i : Instr) (s : State) : Prop := ∃ t, exec i s = .next t

/-- The tables that commands write byte by byte, register by register or tally by tally are in their canonical form: memory, the
poison marks, the registers of the fabric, the tallies. -/
def State.wf (s : State) : Bool :=
  Memory.wf s.mem && twf (fun _ => false) s.poison && twf regRst s.csr && twf (fun _ => {}) s.tly.tallies

/-- What follows a command's own effect before the command ends: an access that DBG_ACC asked for, then everything the
card does of itself. -/
def afterwards (s : State) : State := settle (debugAccess s)

/-- Command c has the effect that leads from s to u, and the card then does what it does of itself. -/
def Does (c : Instr) (s u : State) : Prop := exec c s = .next (afterwards u)

/-! ### What stays -/

/-- Record y of a triad is x but for what debug does to it of itself: a halt that was due, which parts a pair. -/
def SameButHalt (x y : Triad) : Prop :=
  y = { x with halted := y.halted, stepping := y.stepping, haltDue := y.haltDue, haltAt := y.haltAt, pairA := y.pairA }

/-- The parts of the card outside memory, triads and the units that react of themselves are in w as in u. -/
structure CardSame (u w : State) : Prop where
  pending : w.pending = u.pending
  rdata : w.rdata = u.rdata
  rwords : w.rwords = u.rwords
  rstat : w.rstat = u.rstat
  nPfail : w.nPfail = u.nPfail
  slck : w.slck = u.slck
  flog : w.flog = u.flog
  flogLatch : w.flogLatch = u.flogLatch
  clvLatch : w.clvLatch = u.clvLatch
  weft : w.weft = u.weft
  tly : w.tly = u.tly
  cry : w.cry = u.cry
  drw : w.drw = u.drw
  rtc : w.rtc = u.rtc
  net : w.net = u.net
  upd : w.upd = u.upd
  keys : w.keys = u.keys
  tlog : w.tlog = u.tlog
  tlogLatch : w.tlogLatch = u.tlogLatch
  tacted : w.tacted = u.tacted
  islandOff : w.islandOff = u.islandOff
  vbatIn : w.vbatIn = u.vbatIn
  aud : w.aud = u.aud

/-- Every byte of memory and every poison mark reads in w as in u. -/
def MemSame (u w : State) : Prop :=
  (∀ k, getByte w k = getByte u k) ∧ ∀ k, poisoned w k = poisoned u k

/-- Every triad but t is in w as in u. -/
def OthersSame (u w : State) (t : Nat) : Prop := ∀ j, j ≠ t → SameButHalt (getT u j) (getT w j)

/-! ### Counters and logs -/

/-- The saturating counter f of the register at a is one higher in e than in s, or at its highest value. -/
def OneMore (s e : State) (a : Nat) (f : Fld) : Prop := getF e a f = min (getF s a f + 1) (2 ^ (f.hi + 1 - f.lo) - 1)

/-- From s to e the supervisors have logged the entry that SUP_FLOGCNT points at in s (R233): its kind, element, triad, detail. -/
def Logs (s e : State) (k : FKind) (elem triad detail : Nat) : Prop :=
  (tget (fun _ => 0) e.flog ((reg s SUP_FLOGCNT).toNat % 1024)).toNat % 2 ^ 32 =
    fkindCode k * 2 ^ 24 + elem % 256 * 2 ^ 16 + triad % 256 * 2 ^ 8 + detail % 256

/-! ### Register accesses -/

/-- Master m's access to the register at fabric address a reaches its block, in state u: the host bridge answers and holds
nothing behind a fence, the route works, the domain is awake (or was held until it was) and its clock runs. -/
structure Reaches (s : State) (m a : Nat) (u : State) : Prop where
  host : m = 36 → hostReady s = true ∧ s.lat.fences = 0
  block : deviceReach s m a = .ok u

/-- The write command c puts w into block registers: its effect leads from u, where the access arrives, to e, and the access ends
normally. -/
def Writes (c : Instr) (s e : State) : Prop := Does c s { e with rstat := 0 }

/-- The read command c returns v and leaves e, and the access ends normally. -/
def Reads (c : Instr) (s : State) (v : Word) (e : State) : Prop := Does c s { e with rdata := v, rstat := 0 }

/-! ### Moves -/

/-- Triad record x waits for nothing: no interrupt point is agreed, its positions stand together, no local store copy has
failed. -/
def Settled (x : Triad) : Prop := x.point = none ∧ together x = true ∧ x.split = none

/-- Triad t performs the move m with transported value v under circumstances c: it issues, no position trails, nothing is due in
it (`Settled`), no long micro-routine is under way, no breakpoint falls here, the fetch succeeds, no port of the move raises an
exception (R83, R70), no resumption is to be checked (R166). u is the state once the move is fetched and its source read; no
trace record has been made and no debug access waits. -/
structure Performs (s : State) (t : Nat) (m : Move) (v : Word) (u : State) (c : Circ := {}) : Prop where
  issues : issues s t = true
  abreast : latePos s t c.late = none
  before : Settled (getT s t)
  free : (getT s t).run = none
  passes : breakHere s t = false
  fetched : ∃ s1, fetchMove s t m.len c.fetch c.fetch2 = .ok s1 ∧ (getT s1 t).rtiCheck = false ∧
    portExc (supervisor (getT s1 t)) m.op = none ∧ readSrc s1 t (srcOf m.op) = (v, u)
  after : Settled (getT u t)
  untraced : u.aud.made = []
  noAccess : u.aud.acc = false

/-- Triad t takes up the move at the PC, under circumstances c: it issues, no position trails, nothing is due in it, no long
micro-routine is under way, no breakpoint falls here. -/
structure Ready (s : State) (t : Nat) (c : Circ) : Prop where
  issues : issues s t = true
  abreast : latePos s t c.late = none
  before : Settled (getT s t)
  free : (getT s t).run = none
  passes : breakHere s t = false

/-- From e to w triad t has entered the vector of exception x (R89, R91): y is its record before the frame was stored, e the state
after. ctl.cause, ctl.fadr and ctl.ksp are set, ctl.prog is cleared, supervisor mode is on with DET as it was, the loop stack is
empty, the fetch goes on at the vector. Nothing has retired, and nothing else is changed. -/
structure Entered (y : Triad) (e w : State) (t : Nat) (x : Exc) (pair : Bool) : Prop where
  pc : (getT w t).pc = port (getT e t) 0xD8 + BitVec.ofNat 32 (0x40 * x.vec)
  cause : port (getT w t) 0xDC =
    BitVec.ofNat 32 (x.vec + 256 * x.sub + 2 ^ 16 * b2n x.fetch + 2 ^ 17 * b2n x.wr + 2 ^ 18 * b2n pair)
  fadr : port (getT w t) 0xDD = x.fadr
  ksp : port (getT w t) 0xD9 = port y 0xD9 - 64
  mode : port (getT w t) 0xDA = port (getT e t) 0xDA ||| 1
  prog : port (getT w t) 0xDB = 0
  record : (getT w t).loops = [] ∧ (getT w t).run = none ∧ (getT w t).entered = true ∧ (getT w t).waiting = false ∧
    (getT w t).rcount = (getT e t).rcount ∧ (getT w t).lcnt = (getT e t).lcnt ∧ (getT w t).dec = (getT e t).dec ∧
    (getT w t).gth = (getT e t).gth
  ports : ∀ id, id ∉ [0xD9, 0xDA, 0xDB, 0xDC, 0xDD] → port (getT w t) id = port (getT e t) id
  others : OthersSame e w t
  memory : MemSame e w
  card : CardSame e w

/-- Command c makes triad t enter the vector of exception x, with the PC as it stands in s1 for the return, wherever its frame can
be stored; s is the state before the command. No trace record has been made, no debug access waits. -/
def Enters (c : Instr) (s s1 : State) (t : Nat) (x : Exc) : Prop :=
  let u := excSeen s1 t x
  let y := getT u t
  ∀ e, pushFrame t (frameWords y y.pc x.vec) (port y 0xD9 - 64) u = (e, true) → e.aud.made = [] → e.aud.acc = false →
    Settled (getT e t) → ∃ w pair, exec c s = .next w ∧ Entered y e w t x pair

/-- Record y is x after one retirement, but for ports: PC and loop stack by R158 from next PC `npc`, one more retirement;
check, pairing and debug release may change, and no resumption is left to check. -/
structure RetiredTo (x y : Triad) (npc : Word) : Prop where
  rest : y = { x with ports := y.ports, pc := y.pc, loops := y.loops, rcount := y.rcount, rcheck := y.rcheck, entered := false,
                      run := none, rtiCheck := y.rtiCheck, pairA := y.pairA, bptPass := y.bptPass, halted := y.halted,
                      stepping := y.stepping, haltDue := y.haltDue, haltAt := y.haltAt, landed := y.landed, group := y.group }
  next : (y.loops, y.pc) = loopBack x.loops npc
  count : y.rcount = x.rcount + 1

/-- From u to w triad t has retired one move with next PC `npc`. Its record before the retirement was x but for its ports, of
which none outside `ps` has changed; memory, the other triads and the rest of the card are as in u. -/
structure MoveFrame (u w : State) (t : Nat) (x : Triad) (ps : List Nat) (npc : Word) : Prop where
  triad : RetiredTo x (getT w t) npc
  ports : ∀ id, id ∉ ps → port (getT w t) id = port (getT u t) id
  others : OthersSame u w t
  memory : MemSame u w
  card : CardSame u w

/-- Command c of triad t retires a move with next PC `npc` after an effect that leads from s to e; x is triad t's record in e,
whose ports the retirement leaves. -/
def DoesMove (c : Instr) (s e : State) (t : Nat) (x : Triad) (npc : Word) : Prop :=
  ∃ y, Does c s (counted e t y) ∧ RetiredTo x y npc ∧ y.ports = x.ports

/-- From e to w one step of the routine r of triad t has been counted as a retirement (R163): y is the triad's record in which the
step's results stand. The `last` step retires the trigger move with next PC `npc`, and clears ctl.prog of a resumed one (R165);
after any other the routine is under way as `r'`. -/
structure Stepped (e w : State) (t : Nat) (r r' : Running) (y : Triad) (last : Bool) (npc : Word) : Prop where
  count : (getT w t).rcount = y.rcount + 1
  ports : ∀ id, id ≠ 0xDB → port (getT w t) id = port y id
  prog : port (getT w t) 0xDB = if last && r.resumed then 0 else port y 0xDB
  units : (getT w t).dec = y.dec ∧ (getT w t).gth = y.gth
  ends : last = true → (getT w t).run = none ∧ ((getT w t).loops, (getT w t).pc) = loopBack y.loops npc
  goes : last = false → (getT w t).run = some r' ∧ (getT w t).pc = y.pc ∧ (getT w t).loops = y.loops
  others : OthersSame e w t
  memory : MemSame e w
  card : CardSame e w

/-- A step of the routine r of triad t can be made in s: the triad issues, nothing is due in it, no position trails. -/
structure StepsOn (s : State) (t : Nat) (r : Running) (c : Circ) : Prop where
  issues : issues s t = true
  abreast : latePos s t c.late = none
  settled : Settled (getT s t)
  under : (getT s t).run = some r
  untraced : s.aud.made = []
  noAccess : s.aud.acc = false

/-- The PC after move m, where it does not jump. -/
def nextPc (u : State) (t : Nat) (m : Move) : Word := (getT u t).pc + BitVec.ofNat 32 m.len

end Sys2Proof.Machine
end

