-- ==== Sys2Proof/Certificates/Slice0/Obligations.lean ====
section
/-!
DEFINITION. The statements about the model.
-/

open Sys2Proof Sys2Proof.Machine

/-! ### The queue, reset, the whole machine -/

/-- A step of a state with command c at the front of its queue is exec of c with the queue's rest; every command completes, in every state;
on an empty queue the block idles, but for the pulses of EV pins, which end, and the serial driver, which is released.
The model's choices: log entries 1, 6, 7, 32. -/
def Obligations.StepRunsFrontCommand : Prop :=
  (∀ (c : Instr) (rest : List Instr) (s : State), s.pending = c :: rest → step s = exec c { s with pending := rest }) ∧
  (∀ (c : Instr) (s : State), Completes c s) ∧
  ∀ s : State, s.pending = [] → step s = .next (idle s) ∧ (pulsing s = false → s.net.driving = false → step s = .next s)

/-- R26, R66, R257: what reset leaves. INTAKE is 0 and READY is 0, boot's stop bit alone is set, no queue holds a word, every port of
a triad is zero but ctl.mode, which has S = 1, and no command waits.
The model's choices: log entries 3, 4. -/
def Obligations.ResetState : Prop :=
  let s := State.reset
  s.pending = [] ∧ flag s MOD_STATUS MOD_STATUS_INTAKE = false ∧ flag s MOD_STATUS MOD_STATUS_READY = false ∧
    flag s MOD_STOP MOD_STOP_BOOTSTOP = true ∧ flag s MOD_STOP MOD_STOP_HOSTSTOP = false ∧ flag s MOD_STOP MOD_STOP_SUPSTOP = false ∧
    flag s MOD_STOP MOD_STOP_SCANLOCK = false ∧ getF s BOOT_STATUS BOOT_STATUS_STEP = 1 ∧ getF s LAT_TORN LAT_TORN_SRC = 0xFF ∧
    (∀ q, qWords s q = 0) ∧ ∀ t id, port (getT s t) id = if id = 0xDA then 1 else 0

/-- R26: every step leaves INTAKE = 0 wherever SAFEHALT or KEYLOST is 1 or READY is 0, from every state where it is so; the state
after reset is one. -/
def Obligations.IntakeInvariant : Prop :=
  let inv (s : State) : Prop := flag s MOD_STATUS MOD_STATUS_SAFEHALT = true ∨ flag s MOD_STATUS MOD_STATUS_KEYLOST = true ∨
    flag s MOD_STATUS MOD_STATUS_READY = false → flag s MOD_STATUS MOD_STATUS_INTAKE = false
  inv State.reset ∧ ∀ s t, inv s → step s = .next t → inv t

/-- R78 to R82: every move reads back from its encoding, at every value of its fields; a field that R82 forbids is the
illegal-encoding exception with the encoding in ctl.fadr. -/
def Obligations.MovesReadBack : Prop :=
  ∀ (dst src : BitVec 8) (dc c : BitVec 6) (last tgtSrc : Bool) (seg : BitVec 3) (imm : BitVec 20) (cond : BitVec 4)
    (off : BitVec 24) (mask : BitVec 16) (o : BitVec 12),
    let h := encShort dc.toNat c last
    let w := encPort dst.toNat src seg
    let hi := encImm dst.toNat true imm
    let call := encCall mask tgtSrc o
    (decodeMove (.short h) = if last && decide (23 < c.toNat) then .error (excIllegal (h.setWidth 32))
      else .ok { op := .mv (shortDst dc.toNat) (if c.toNat < 48 then .port (shortSrc c.toNat) else .imm (shortImm c.toNat)) 0,
                 len := 2, enc := h.setWidth 32 }) ∧
    (decodeMove (.long w) = if seg != 0 && !segAllowed dst.toNat then .error (excIllegal w)
      else .ok { op := .mv dst.toNat (.port src.toNat) seg, len := 4, enc := w }) ∧
    (decodeMove (.long (encImm dst.toNat false imm)) =
      .ok { op := .mv dst.toNat (.imm (imm.signExtend 32)) 0, len := 4, enc := encImm dst.toNat false imm }) ∧
    (decodeMove (.long hi) = if 0x1F < dst.toNat ∨ 65536 ≤ imm.toNat then .error (excIllegal hi)
      else .ok { op := .hi dst.toNat (imm.setWidth 16), len := 4, enc := hi }) ∧
    (decodeMove (.long (encBranch cond off)) = .ok { op := .branch cond off, len := 4, enc := encBranch cond off }) ∧
    (decodeMove (.long call) = if tgtSrc && o != 0 then .error (excIllegal call)
      else .ok { op := .call mask tgtSrc o, len := 4, enc := call })

/-- The frame of commands on timers, interrupt controller, event fabric, converter, clocks, votes and intake: memory, the triads (but
for a halt that was due), logs, keys, clock, sequencer, tally, crypto engines and draw unit stay, and each of them completes.
The model's choices: log entry 7. -/
def Obligations.BlockCommandsFrame : Prop :=
  ∀ (c : Instr) (s : State) (g : BitVec 4) (b : BitVec 3) (k : BitVec 1) (x : Bool) (m : BitVec 6) (v : Word) (q : BitVec 8)
    (i : BitVec 7) (p : BitVec 2) (n : BitVec 5) (y : BitVec 12) (z : BitVec 32) (a : BitVec 72),
    c ∈ [.kernelEdge g b, .timerMatch g b, .timerOverflow g b, .timerCapture g b, .linkFollow g b x, .linkRestart g b k, .linkOpen g b k,
      .linkShut g b k, .linkArm g b k, .tgStart m g q, .tgStop m g q, .tmrKickZero m g b, .tmrKickSnap m g b, .tmrCnthiWrite m g b v,
      .tmrTophiWrite m g b v, .tmrCmphiWrite m g b v, .tmrPscWrite m g b v, .tmrLinkWrite m g b v, .tmrCtrlWrite m g b v,
      .tmrIenWrite m g b v, .tmrCapctlWrite m g b v, .evfSwtrigWrite m v, .evfSelWrite m i v, .evPinEdge b x z a, .monStart,
      .monInterval, .monConversion y, .pdVoteaWrite m n v, .pdVotebWrite m n v, .clkSrcWrite m n v, .pllLock, .stopIntake p,
      .resumeIntake p, .throttleOn, .throttleOff, .hostFence, .hbMsigenWrite m v, .drainWindowWrite, .configurationRequest (.memory x),
      .msixVectorUnmask none, .rtcLoad m v] →
    s.aud.acc = false → ∃ w, exec c s = .next w ∧ MemSame s w ∧ (∀ t, SameButHalt (getT s t) (getT w t)) ∧
      CardSame { s with rdata := w.rdata, rstat := w.rstat, net := { s.net with stops := w.net.stops } } w

/-! ### Arithmetic of a Ferlet core -/

/-- R97 to R100: the fifteen ALU triggers. `a` is alu.a, v the transported value, c the flag C before; a sum has 33 bits, and
bit i of alu.nc is the carry out of nibble i. alu.cmp and alu.tst write neither alu.r nor alu.nc. No other port changes.
R102: the three MUL triggers; none changes a flag. -/
def Obligations.AluTriggers : Prop :=
  (∀ (t : BitVec 5) (f : MoveForm) (s u : State) (m : Move) (v : Word), Performs s t.toNat m v u →
      let a := port (getT u t.toNat) 0x30
      let fl := port (getT u t.toNat) 0x20
      let k := v.toNat % 32
      let sum (w : Word) (cin : Bool) : Nat := a.toNat + w.toNat + b2n cin
      let res (w : Word) (cin : Bool) : Word := BitVec.ofNat 32 (sum w cin)
      let ovf (w : Word) (cin : Bool) : Bool :=
        decide (a.getLsbD 31 = w.getLsbD 31) && decide ((res w cin).getLsbD 31 ≠ a.getLsbD 31)
      let nc (w : Word) (cin : Bool) (i : Nat) : Bool :=
        decide (i < 8 ∧ 2 ^ (4 * i + 4) ≤ a.toNat % 2 ^ (4 * i + 4) + w.toNat % 2 ^ (4 * i + 4) + b2n cin)
      let flags (r : Word) (c o : Bool) : Word := flMk (decide (r = 0)) (r.getLsbD 31) c o (flD fl)
      let carry (c : Bool) : Bool := if k = 0 then flC fl else c
      (∀ p ∈ [(0x40, Instr.aluAdd t f, v, false), (0x41, .aluAdc t f, v, flC fl), (0x42, .aluSub t f, ~~~v, true),
          (0x43, .aluSbc t f, ~~~v, flC fl)],
        moveOf p.1 f = .ok m → ∃ w, exec p.2.1 s = .next w ∧ MoveFrame u w t.toNat (getT u t.toNat) [0x31, 0x32, 0x20] (nextPc u t.toNat m) ∧
          port (getT w t.toNat) 0x31 = res p.2.2.1 p.2.2.2 ∧
          (∀ i, (port (getT w t.toNat) 0x32).getLsbD i = nc p.2.2.1 p.2.2.2 i) ∧
          port (getT w t.toNat) 0x20 =
            flags (res p.2.2.1 p.2.2.2) (decide (2 ^ 32 ≤ sum p.2.2.1 p.2.2.2)) (ovf p.2.2.1 p.2.2.2)) ∧
      (∀ p ∈ [(0x44, Instr.aluAnd t f, a &&& v, flC fl), (0x45, .aluOr t f, a ||| v, flC fl),
          (0x46, .aluXor t f, a ^^^ v, flC fl), (0x47, .aluAndn t f, a &&& ~~~v, flC fl),
          (0x48, .aluShl t f, a <<< k, carry (a.getLsbD (32 - k))), (0x49, .aluShr t f, a >>> k, carry (a.getLsbD (k - 1))),
          (0x4A, .aluSar t f, a.sshiftRight k, carry (a.getLsbD (k - 1))),
          (0x4B, .aluRol t f, a.rotateLeft k, carry ((a.rotateLeft k).getLsbD 0)),
          (0x4C, .aluRor t f, a.rotateRight k, carry ((a.rotateRight k).getLsbD 31))],
        moveOf p.1 f = .ok m → ∃ w, exec p.2.1 s = .next w ∧ MoveFrame u w t.toNat (getT u t.toNat) [0x31, 0x32, 0x20] (nextPc u t.toNat m) ∧
          port (getT w t.toNat) 0x31 = p.2.2.1 ∧ port (getT w t.toNat) 0x32 = 0 ∧
          port (getT w t.toNat) 0x20 = flags p.2.2.1 p.2.2.2 (flV fl)) ∧
      (∀ p ∈ [(0x4D, Instr.aluCmp t f, flags (res (~~~v) true) (decide (2 ^ 32 ≤ sum (~~~v) true)) (ovf (~~~v) true)),
          (0x4E, .aluTst t f, flags (a &&& v) (flC fl) (flV fl))],
        moveOf p.1 f = .ok m → ∃ w, exec p.2.1 s = .next w ∧ MoveFrame u w t.toNat (getT u t.toNat) [0x20] (nextPc u t.toNat m) ∧
          port (getT w t.toNat) 0x20 = p.2.2)) ∧
  (∀ (t : BitVec 5) (f : MoveForm) (s u : State) (m : Move) (v : Word), Performs s t.toNat m v u →
      let x := getT u t.toNat
      let a := port x 0x70
      let b := port x 0x71
      let acc := (port x 0x73).toNat * 2 ^ 32 + (port x 0x72).toNat
      ∀ p ∈ [(0x74, Instr.mulMulu t f, (a.toNat * b.toNat : Int)), (0x75, .mulMuls t f, a.toInt * b.toInt),
          (0x76, .mulMac t f, ((acc + a.toNat * b.toNat : Nat) : Int))],
        moveOf p.1 f = .ok m → ∃ w, exec p.2.1 s = .next w ∧ MoveFrame u w t.toNat (getT u t.toNat) [0x72, 0x73] (nextPc u t.toNat m) ∧
          (port (getT w t.toNat) 0x73).toNat * 2 ^ 32 + (port (getT w t.toNat) 0x72).toNat = (p.2.2 % 2 ^ 64).toNat)

/-! ### Canonical form -/

/-- The tables of memory, poison marks, registers and tallies are in their canonical form after reset, and every step
keeps them so: an address or register is listed once, in rising order, and only where it differs from what it reads as unlisted.
The model's choices: log entry 3. -/
def Obligations.CanonicalState : Prop :=
  State.reset.wf = true ∧ ∀ s t, s.wf = true → step s = .next t → t.wf = true

/-! ### Decimal unit, memory, control flow -/

/-- R109, R110: dec.add, dec.adc, dec.sub, dec.sbc and dec.cmp. Operands read under R106; dec.r holds decimal digits alone; the
DEC unit writes D and no other flag, dec.rh stays, BAD is sticky, and a suspended routine is forgotten (R167).
R112 to R115: dec.shl, dec.shr, dec.b2d, dec.d2b and dec.round. `hi` and `lo` are what dec.rh and dec.r hold: decimal
digits, but for dec.d2b a binary word in dec.r with dec.rh unchanged. -/
def Obligations.DecArithmetic : Prop :=
  (∀ (t : BitVec 5) (f : MoveForm) (s u : State) (m : Move) (v : Word), Performs s t.toNat m v u →
      let x := getT u t.toNat
      let a : Int := decWord (port x 0x50)
      let b : Int := decWord v
      let fl := port x 0x20
      let d : Int := b2n (flD fl)
      let scmp := (port x 0x52).getLsbD 2
      let signed (w : Word) : Int := if scmp ∧ 5 ≤ digitAt w.toNat 7 then decWord w - 10 ^ 8 else decWord w
      let a' := signed (port x 0x50)
      let b' := signed v
      ∀ p ∈ [(0x60, Instr.decAdd t f, (a + b) % 10 ^ 8, decide (10 ^ 8 ≤ a + b)),
          (0x61, .decAdc t f, (a + b + d) % 10 ^ 8, decide (10 ^ 8 ≤ a + b + d)),
          (0x62, .decSub t f, (a - b) % 10 ^ 8, decide (a - b < 0)),
          (0x63, .decSbc t f, (a - b - d) % 10 ^ 8, decide (a - b - d < 0)),
          (0x65, .decCmp t f, if a' = b' then 0 else if b' < a' then 1 else 99999999, decide (a' < b'))],
        moveOf p.1 f = .ok m → ∃ w, exec p.2.1 s = .next w ∧
          MoveFrame u w t.toNat { x with dec := { x.dec with susp := false } } [0x53, 0x20, 0x52] (nextPc u t.toNat m) ∧
          let y := getT w t.toNat
          (decWord (port y 0x53) : Int) = p.2.2.1 ∧ badWord (port y 0x53) = false ∧
          port y 0x20 = flMk (flZ fl) (flN fl) (flC fl) (flV fl) p.2.2.2 ∧
          port y 0x52 = if badWord (port x 0x50) || badWord v then port x 0x52 ||| 0x100 else port x 0x52) ∧
  (∀ (t : BitVec 5) (f : MoveForm) (s u : State) (m : Move) (v : Word), Performs s t.toNat m v u →
      let x := getT u t.toNat
      let a := decWord (port x 0x50)
      let b := decWord v
      let fl := port x 0x20
      let mode := (port x 0x52).toNat
      let k := v.toNat % 8
      let frame (w : State) (d bad : Bool) : Prop :=
        MoveFrame u w t.toNat { x with dec := { x.dec with susp := false } } [0x53, 0x54, 0x20, 0x52] (nextPc u t.toNat m) ∧
          port (getT w t.toNat) 0x20 = flMk (flZ fl) (flN fl) (flC fl) (flV fl) d ∧
          port (getT w t.toNat) 0x52 = if bad then port x 0x52 ||| 0x100 else port x 0x52
      let whole := a * 10 ^ 8 + b
      let places := mode / 16 % 16
      let q := whole / 10 ^ places
      let rest := whole % 10 ^ places
      let half := 5 * 10 ^ (places - 1)
      let rounded := if places = 0 then whole
        else if mode % 4 = 0 then (if half ≤ rest then q + 1 else q)
        else if mode % 4 = 1 then (if half < rest ∨ (rest = half ∧ q % 2 = 1) then q + 1 else q)
        else q
      (∀ p ∈ [(0x66, Instr.decShl t f, a * 10 ^ k / 10 ^ 8, a * 10 ^ k % 10 ^ 8, decide (a * 10 ^ k / 10 ^ 8 ≠ 0),
            badWord (port x 0x50)),
          (0x67, .decShr t f, a % 10 ^ k * 10 ^ (8 - k), a / 10 ^ k, decide (a % 10 ^ k ≠ 0), badWord (port x 0x50)),
          (0x68, .decB2d t f, v.toNat / 10 ^ 8, v.toNat % 10 ^ 8, decide (10 ^ 8 ≤ v.toNat), false),
          (0x6C, .decRound t f, rounded / 10 ^ 8, rounded % 10 ^ 8, decide (places ≠ 0 ∧ rest ≠ 0),
            badWord (port x 0x50) || badWord v)],
        moveOf p.1 f = .ok m → ∃ w, exec p.2.1 s = .next w ∧ frame w p.2.2.2.2.1 p.2.2.2.2.2 ∧
          decWord (port (getT w t.toNat) 0x54) = p.2.2.1 % 10 ^ 8 ∧ badWord (port (getT w t.toNat) 0x54) = false ∧
          decWord (port (getT w t.toNat) 0x53) = p.2.2.2.1 ∧ badWord (port (getT w t.toNat) 0x53) = false) ∧
      (moveOf 0x69 f = .ok m →
        let n := decVal 2 (port x 0x50).toNat * 10 ^ 8 + b
        ∃ w, exec (.decD2b t f) s = .next w ∧ frame w (decide (2 ^ 32 ≤ n)) (decBad 2 (port x 0x50).toNat || badWord v) ∧
          port (getT w t.toNat) 0x54 = port x 0x54 ∧ (port (getT w t.toNat) 0x53).toNat = n % 2 ^ 32))

/-- R111: dec.adj after an ALU addition. It reads alu.nc, changes neither BAD nor dec.rh, and when the trigger value and
alu.nc are those of alu.add on two words of valid digits, dec.r is their decimal sum modulo 10^8 and D the decimal carry. -/
def Obligations.DecAdjusts : Prop :=
  ∀ (t : BitVec 5) (f : MoveForm) (s u : State) (m : Move) (v : Word), Performs s t.toNat m v u → moveOf 0x64 f = .ok m →
    let x := getT u t.toNat
    let fl := port x 0x20
    ∃ w d, exec (.decAdj t f) s = .next w ∧
      MoveFrame u w t.toNat { x with dec := { x.dec with susp := false } } [0x53, 0x20] (nextPc u t.toNat m) ∧
      port (getT w t.toNat) 0x20 = flMk (flZ fl) (flN fl) (flC fl) (flV fl) d ∧
      ∀ a b : Word, badWord a = false → badWord b = false → v = a + b →
        (∀ i, i < 8 → (port x 0x32).getLsbD i = decide (2 ^ (4 * i + 4) ≤ a.toNat % 2 ^ (4 * i + 4) + b.toNat % 2 ^ (4 * i + 4))) →
        decWord (port (getT w t.toNat) 0x53) = (decWord a + decWord b) % 10 ^ 8 ∧
        badWord (port (getT w t.toNat) 0x53) = false ∧ d = decide (10 ^ 8 ≤ decWord a + decWord b)

/-- R117: the steps of dec.mulw leave the product of the two values as read under R106, the upper eight digits in dec.rh and
the lower eight in dec.r, and D says that dec.rh is not 0; there are 2(h + 1) of them.
R118: where the quotient fits, the 40 steps of dec.divw leave quotient and remainder of the 16-digit dividend; where it
does not, the one step sets D and leaves both ports. -/
def Obligations.DecProducts : Prop :=
  (∀ (a v : Word) (st : DecStep),
      let e := (List.range (decSteps 0x6A a v)).foldl (fun st k => mulwStep (k + 1) a v st) st
      decWord e.rh * 10 ^ 8 + decWord e.r = decWord a * decWord v ∧ badWord e.rh = false ∧ badWord e.r = false ∧
        e.d = some (decide (e.rh ≠ 0)) ∧ e.q = st.q ∧ e.rm = st.rm ∧
        ∃ h, h < 8 ∧ decSteps 0x6A a v = 2 * (h + 1) ∧ (h = 0 ∨ digitAt v.toNat h ≠ 0) ∧
          ∀ j, h < j → j < 8 → digitAt v.toNat j = 0) ∧
  (∀ (a b v : Word) (st : DecStep), decWord v ≠ 0 →
      let e := (List.range (decSteps 0x6B a v)).foldl (fun st k => divwStep (k + 1) a b v st) st
      e.r = st.r ∧ e.rh = st.rh ∧
      if decWord v ≤ decWord a then decSteps 0x6B a v = 1 ∧ e.d = some true ∧ e.q = st.q ∧ e.rm = st.rm
      else decSteps 0x6B a v = 40 ∧ e.d = some false ∧ decWord e.rm < decWord v ∧ badWord e.q = false ∧ badWord e.rm = false ∧
        decWord e.q * decWord v + decWord e.rm = decWord a * 10 ^ 8 + decWord b)

/-- R117, R118, R62, R163: dec.mulw, and dec.divw with a divisor that does not read as 0, sample their operands, keep the
transported value and make step 1 of their routine, which counts as one retirement; the PC moves on after the last step.
R163, R116: one further step of dec.mulw or dec.divw under way is done and counts as one retirement; the last retires the
trigger move, so that the PC moves on.
The model's choices: log entry 56. -/
def Obligations.LongDecimals : Prop :=
  (∀ (t : BitVec 5) (f : MoveForm) (s u : State) (m : Move) (v : Word), Performs s t.toNat m v u →
      ∀ p ∈ [(0x6A, Instr.decMulw t f), (0x6B, .decDivw t f)], moveOf p.1 f = .ok m → (p.1 = 0x6B → decWord v ≠ 0) →
        let trig := BitVec.ofNat 8 p.1
        let x := getT u t.toNat
        let y := (decStep (beginRoutine x v (.dec trig))).1
        ∃ w r, exec p.2 s = .next w ∧
          Stepped u w t.toNat r r y (decSteps trig (port x 0x50) v == 1) (nextPc u t.toNat m) ∧
          r.routine = .dec trig ∧ r.value = v ∧ r.len = m.len ∧ r.enc = m.enc ∧ r.resumed = false ∧
          y.dec.a = port x 0x50 ∧ y.dec.b = port x 0x51 ∧ y.dec.v = v ∧ y.dec.step = 1) ∧
  (∀ (t : BitVec 5) (c : Circ) (s : State) (r : Running) (trig : BitVec 8), StepsOn s t.toNat r c → r.routine = .dec trig →
      let x := getT s t.toNat
      let y := (decStep x).1
      let n := decSteps x.dec.trig x.dec.a x.dec.v
      x.dec.step < n →
      ∃ w, exec (.longRoutineStep t c) s = .next w ∧
        Stepped s w t.toNat r r y (x.dec.step + 1 == n) (x.pc + BitVec.ofNat 32 r.len) ∧ y.dec.step = x.dec.step + 1)

/-- R128: a load whose access is performed, under circumstances c. u1 is the state after the access and r the word of its bytes;
lsu.r receives them sign-extended for lsu.ldb and lsu.ldh, zero-extended for lsu.ldbu and lsu.ldhu, whole for lsu.ldw; the trace
records nothing of it. No other port changes.
R121, R128, R131, R132: a checked load of 1, 2 or 4 bytes from the local store, or uncached from the common store or the MRAM
window, of a word that is not poisoned and has no storage error, answers its bytes little-endian with the upper bits zero and
changes nothing; with a single-bit error of its local store word it answers the same, and counts and logs the
correction.
The model's choices: log entries 49, 50, 59, 68. -/
def Obligations.Loads : Prop :=
  (∀ (t : BitVec 5) (f : MoveForm) (c : Circ) (s u u1 : State) (m : Move) (v r : Word), Performs s t.toNat m v u c →
      let x := getT u t.toNat
      ∀ p ∈ [(0x80, Instr.lsuLdb t f c, 1, (r.setWidth 8).signExtend 32), (0x81, .lsuLdbu t f c, 1, (r.setWidth 8).zeroExtend 32),
          (0x82, .lsuLdh t f c, 2, (r.setWidth 16).signExtend 32), (0x83, .lsuLdhu t f c, 2, (r.setWidth 16).zeroExtend 32),
          (0x84, .lsuLdw t f c, 4, r)],
        moveOf p.1 f = .ok m →
        let o := port x 0x78 + v
        segLoad u t.toNat (supervisor x) 0 (segOf m.op).toNat o p.2.2.1 (Circ.load c 0) = .ok (r, u1) →
        noteLoad u1 t.toNat 1 (port x (0xC0 + (segOf m.op).toNat) + o).toNat p.2.2.2 = u1 → u1.aud = u.aud → Settled (getT u1 t.toNat) →
        ∃ w, exec p.2.1 s = .next w ∧ MoveFrame u1 w t.toNat (getT u1 t.toNat) [0x7A] (nextPc u1 t.toNat m) ∧
          port (getT w t.toNat) 0x7A = p.2.2.2) ∧
  (∀ (s : State) (t kind seg z : Nat) (sup : Bool) (o : Word) (fa : Nat) (m : Meet), z = 1 ∨ z = 2 ∨ z = 4 →
      segCheck (getT s t) sup seg o z .load = .ok fa → poisoned s (memKey t fa) = false → traced s t = false →
      (getT s t).voter.late = none →
      let w := BitVec.ofNat 32 (leNat (getBytes s (memKey t fa) z))
      (m.upset = .none → (regionOf fa = .localStore ∨ (cacheable (getT s t) seg fa = false ∧ accessFailed s t fa = false ∧
          (regionOf fa = .common ∨ (regionOf fa = .mram ∧ domOn s 3 = true)))) →
        segLoad s t sup kind seg o z m = .ok (w, s)) ∧
      (m.upset = .single → regionOf fa = .localStore →
        segLoad s t sup kind seg o z m = .ok (w, maskedFault (incSat s (CLV_LSCNT (t / 4)) CLV_LSCNT_CORR 1) t)))

/-- R128, R134, R136: a store to the local store or the common store. The address stored to is the one that the segment check
answers; the low bytes of lsu.d lie there little-endian, every other byte reads as before; a word store makes its word
readable again, other poison marks stay; a line that the data cache holds follows, and nothing else of the triad changes.
R134: a store of one or two bytes to a poisoned word of the local store or the common store is discarded and counted,
and the move retires: no byte of memory and no mark changes.
R123, R127: a word store that a device register takes.
R121: the checks of an access in their order: alignment, limit, attribute and mode, hole, store to the MRAM window.
The model's choices: log entries 8, 49, 50, 79. -/
def Obligations.Stores : Prop :=
  (∀ (t : BitVec 5) (f : MoveForm) (s u : State) (m : Move) (v : Word) (fa : Nat), Performs s t.toNat m v u →
      let x := getT u t.toNat
      ∀ p ∈ [(0x85, Instr.lsuStb t f, 1), (0x86, .lsuSth t f, 2), (0x87, .lsuStw t f, 4)], moveOf p.1 f = .ok m →
        segCheck x (supervisor x) (segOf m.op).toNat (port x 0x78 + v) p.2.2 .store = .ok fa →
        (regionOf fa = .localStore ∨ (regionOf fa = .common ∧ accessFailed u t.toNat fa = false)) →
        (p.2.2 = 4 ∨ poisoned u (memKey t.toNat fa) = false) →
        ∃ w d, exec p.2.1 s = .next w ∧
          RetiredTo { x with dcache := d } (getT w t.toNat) (nextPc u t.toNat m) ∧
          (∀ id, port (getT w t.toNat) id = port x id) ∧
          (regionOf fa = .localStore ∨ cacheable x (segOf m.op).toNat fa = false → d = x.dcache) ∧
          (∀ i, i < p.2.2 → getByte w (memKey t.toNat fa + i) = BitVec.ofNat 8 ((port x 0x79).toNat / 2 ^ (8 * i))) ∧
          (∀ k, (k < memKey t.toNat fa ∨ memKey t.toNat fa + p.2.2 ≤ k) → getByte w k = getByte u k) ∧
          (∀ k, poisoned w k = (poisoned u k && !(p.2.2 = 4 && k / 4 == memKey t.toNat fa / 4))) ∧
          OthersSame u w t.toNat ∧ CardSame u w) ∧
  (∀ (t : BitVec 5) (f : MoveForm) (s u : State) (m : Move) (v : Word) (fa : Nat), Performs s t.toNat m v u →
      let x := getT u t.toNat
      ∀ p ∈ [(0x85, Instr.lsuStb t f, 1), (0x86, .lsuSth t f, 2)], moveOf p.1 f = .ok m →
        segCheck x (supervisor x) (segOf m.op).toNat (port x 0x78 + v) p.2.2 .store = .ok fa →
        (regionOf fa = .localStore ∨ (regionOf fa = .common ∧ accessFailed u t.toNat fa = false)) →
        poisoned u (memKey t.toNat fa) = true →
        ∃ w, exec p.2.1 s = .next w ∧ MoveFrame u w t.toNat (getT u t.toNat) [] (nextPc u t.toNat m) ∧
          (regionOf fa = .localStore → OneMore u w (CLV_LSCNT (t.toNat / 4)) CLV_LSCNT_DISC) ∧
          (regionOf fa = .common → OneMore u w (CS_BANK (bankOf fa)) CS_BANK_DISC)) ∧
  (∀ (t : BitVec 5) (f : MoveForm) (s u u1 : State) (m : Move) (v : Word) (fa : Nat), Performs s t.toNat m v u →
      let x := getT u t.toNat
      moveOf 0x87 f = .ok m → segCheck x (supervisor x) (segOf m.op).toNat (port x 0x78 + v) 4 .store = .ok fa →
      regionOf fa = .device → deviceReach u t.toNat fa = .ok u1 →
      (deviceWrite u1 t.toNat fa (port x 0x79)).aud = u.aud → Settled (getT (deviceWrite u1 t.toNat fa (port x 0x79)) t.toNat) →
      ∃ w, exec (.lsuStw t f) s = .next w ∧
        MoveFrame (deviceWrite u1 t.toNat fa (port x 0x79)) w t.toNat
          (getT (deviceWrite u1 t.toNat fa (port x 0x79)) t.toNat) []
          (nextPc (deviceWrite u1 t.toNat fa (port x 0x79)) t.toNat m)) ∧
  (∀ (x : Triad) (sup : Bool) (seg z : Nat) (o : Word) (k : Access),
      let fa := (port x (0xC0 + seg) + o).toNat
      let att := port x (0xD0 + seg)
      let wr := decide (k = .store)
      let ft := decide (k = .fetch)
      let bit := match k with | .load => 0 | .store => 1 | .fetch => 2
      let misaligned := fa % (if k = .fetch then 2 else z) ≠ 0
      let outside := (port x (0xC8 + seg)).toNat < o.toNat + z
      let denied := att.getLsbD bit = false ∨ (att.getLsbD 3 = true ∧ sup = false)
      segCheck x sup seg o z k =
        if misaligned then .error { vec := 4, fadr := o, wr := wr, fetch := ft }
        else if outside then .error { vec := 2, fadr := o, wr := wr, fetch := ft }
        else if denied then .error { vec := 3, fadr := o, wr := wr, fetch := ft }
        else if regionOf fa = .hole then .error { vec := 7, sub := 0, fadr := BitVec.ofNat 32 fa, wr := wr, fetch := ft }
        else if regionOf fa = .mram ∧ k = .store then
          .error { vec := 7, sub := 1, fadr := BitVec.ofNat 32 fa, wr := wr, fetch := ft }
        else .ok fa)

/-- R143, R148: gth.go and gth.resume. With an element left to load they sample their ports and the segment (R74) and load the first
of them, index and word, into its port, as one retirement; with none they complete at once, gth.go with gth.done 0.
R143, R144, R163: one element of the gather under way is loaded, by GATHER_ELEMENT as by LONG_ROUTINE_STEP. Its index is a halfword
of the local store, its word a checked load at the base plus four times the index; the word goes to gb(k), gth.done becomes
k + 1, and it counts as one retirement; the last element retires the trigger move.
The model's choices: log entries 56, 59. -/
def Obligations.Gathers : Prop :=
  (∀ (t : BitVec 5) (f : MoveForm) (s u s1 : State) (m : Move) (v wd : Word), Performs s t.toNat m v u →
      let x := getT u t.toNat
      let n := min (port x 0x8A).toNat 16
      ∀ p ∈ [(0x8C, Instr.gthGo t f, 0), (0x8D, .gthResume t f, (port x 0x8B).toNat)], moveOf p.1 f = .ok m →
        let trig := BitVec.ofNat 8 p.1
        let r : Running := { routine := .gth trig (segOf m.op), value := v, enc := m.enc, len := m.len, resumed := false,
                             pair := pairNow s t.toNat (.ok m) m.len }
        let s0 := setT u t.toNat { beginRoutine x v r.routine with run := some r, pairA := none }
        let ia := ((port x 0x89).toNat + 2 * p.2.2) % 0x20000
        (p.2.2 < n → poisoned u (lsKey t.toNat ia) = false →
          segLoad s0 t.toNat (supervisor x) 2 (segOf m.op).toNat
            (port x 0x88 + BitVec.ofNat 32 (4 * leNat (getBytes u (lsKey t.toNat ia) 2))) 4 {} = .ok (wd, s1) →
          s1.aud = u.aud → Settled (getT s1 t.toNat) → (getT s1 t.toNat).gth = (beginRoutine x v r.routine).gth →
          (port (getT s1 t.toNat) 0x8B).toNat = p.2.2 →
          ∃ w, exec p.2.1 s = .next w ∧
            Stepped s1 w t.toNat r r (setPort (setPort (getT s1 t.toNat) (0x90 + p.2.2) wd) 0x8B (BitVec.ofNat 32 (p.2.2 + 1)))
              (p.2.2 + 1 == n) (nextPc s1 t.toNat m)) ∧
        (n ≤ p.2.2 → ∃ w g, exec p.2.1 s = .next w ∧
          MoveFrame u w t.toNat { x with gth := g } (if p.1 = 0x8C then [0x8B] else []) (nextPc u t.toNat m) ∧
          g.base = port x 0x88 ∧ g.idx = port x 0x89 ∧ g.n = port x 0x8A ∧ g.seg = segOf m.op ∧ g.susp = false ∧
          (p.1 = 0x8C → port (getT w t.toNat) 0x8B = 0))) ∧
  (∀ (t : BitVec 5) (c : Circ) (s s1 : State) (r : Running) (trig : BitVec 8) (seg : BitVec 3) (wd : Word),
      StepsOn s t.toNat r c → r.routine = .gth trig seg → s1.aud = s.aud → Settled (getT s1 t.toNat) →
      let x := getT s t.toNat
      let k := (port x 0x8B).toNat
      let n := min x.gth.n.toNat 16
      let ia := (x.gth.idx.toNat + 2 * k) % 0x20000
      let s0 := meetWord s t.toNat (lsKey t.toNat ia) (Circ.load c 0)
      k < n → poisoned s0 (lsKey t.toNat ia) = false →
      segLoad s0 t.toNat (supervisor x) 2 x.gth.seg.toNat
        (x.gth.base + BitVec.ofNat 32 (4 * leNat (getBytes s0 (lsKey t.toNat ia) 2))) 4 (Circ.load c 1) = .ok (wd, s1) →
      (getT s1 t.toNat).gth = x.gth → (port (getT s1 t.toNat) 0x8B).toNat = k →
      ∀ i ∈ [Instr.gatherElement t c, .longRoutineStep t c], ∃ w, exec i s = .next w ∧
        Stepped s1 w t.toNat r r (setPort (setPort (getT s1 t.toNat) (0x90 + k) wd) 0x8B (BitVec.ofNat 32 (k + 1)))
          (k + 1 == n) ((getT s1 t.toNat).pc + BitVec.ofNat 32 r.len))

/-- R69, R81: a conditional branch tests fl and goes to the address of the branch plus twice its offset when the condition
holds, to the next move otherwise; it writes no port.
R149, R152: br.jmp to an even target, and br.call, which first stores one frame word with an empty mask at g31 - 4 in s2.
The model's choices: log entry 51. -/
def Obligations.Branches : Prop :=
  (∀ (t : BitVec 5) (cond : BitVec 4) (off : BitVec 24) (s u : State) (m : Move) (v : Word),
      decodeMove (.long (encBranch cond off)) = .ok m → Performs s t.toNat m v u →
      let fl := port (getT u t.toNat) 0x20
      let z := fl.getLsbD 0
      let n := fl.getLsbD 1
      let c := fl.getLsbD 2
      let o := fl.getLsbD 3
      let taken := [true, z, !z, c, !c, n, !n, o, !o, c && !z, !c || z, n == o, n != o, !z && n == o, z || n != o,
        fl.getLsbD 4].getD cond.toNat false
      let pc := (getT u t.toNat).pc
      ∃ w, exec (.conditionalBranch t cond off) s = .next w ∧
        MoveFrame u w t.toNat (getT u t.toNat) [] (if taken then pc + 2 * off.signExtend 32 else pc + 4)) ∧
  (∀ (t : BitVec 5) (f : MoveForm) (s u : State) (m : Move) (v : Word), Performs s t.toNat m v u → v.getLsbD 0 = false →
      let x := getT u t.toNat
      (moveOf 0xA1 f = .ok m → ∃ w, exec (.brJmp t f) s = .next w ∧ MoveFrame u w t.toNat x [] v) ∧
      (∀ u1, moveOf 0xA2 f = .ok m → (x.pc + 4).toNat < 0x20000 → u1.aud = u.aud → Settled (getT u1 t.toNat) →
        segStore u t.toNat (supervisor x) 2 (port x 0x1F - 4) 4 (BitVec.ofNat 32 ((x.pc + 4).toNat / 2)) = .ok u1 →
        ∃ w, exec (.brCall t f) s = .next w ∧ MoveFrame u1 w t.toNat (getT u1 t.toNat) [0x1F] v ∧
          port (getT w t.toNat) 0x1F = port x 0x1F - 4))

/-- R154: a call with mask with an even target and a return address below 0x20000 makes its first step; step 1 stores the frame
word with mask and return address at g31 - 4(1 + m) and lowers g31, step 1 + i stores the i-th masked register above it (for
g31 its value before the call), each counts as one retirement, and the last sets the PC to the target. s1 is the state after
a step's store.
The model's choices: log entries 50, 51, 56. -/
def Obligations.MaskedCalls : Prop :=
  ∀ (t : BitVec 5) (mask : BitVec 16) (b : Bool) (off : BitVec 12) (s1 : State),
    let regs := maskRegs mask
    let n := regs.length
    let x1 := getT s1 t.toNat
    let target (x : Triad) : Word := if b then port x 0xA0 else x.pc + 2 * off.signExtend 32
    (∀ (s u : State) (m : Move) (v : Word), decodeMove (.long (encCall mask b off)) = .ok m → Performs s t.toNat m v u →
      let x := getT u t.toNat
      let low := port x 0x1F - BitVec.ofNat 32 (4 * (1 + n))
      let r (k : Nat) : Running := { routine := .call mask b off k, value := v, enc := m.enc, len := m.len, resumed := false,
                                     pair := pairNow s t.toNat (.ok m) m.len }
      (target x).getLsbD 0 = false → (x.pc + 4).toNat < 0x20000 →
      segStore (setT u t.toNat { x with run := some (r 0), pairA := none }) t.toNat (supervisor x) 2 low 4
        (BitVec.ofNat 32 (mask.toNat * 2 ^ 16 + (x.pc + 4).toNat / 2 % 2 ^ 16)) = .ok s1 →
      s1.aud = u.aud → Settled x1 →
      ∃ w, exec (.callWithMask t mask b off) s = .next w ∧
        Stepped s1 w t.toNat (r 0) (r 1) (setPort x1 0x1F low) (n == 0) (target x1)) ∧
    (∀ (s : State) (c : Circ) (r : Running) (k : Nat), StepsOn s t.toNat r c → r.routine = .call mask b off k →
      s1.aud = s.aud → Settled x1 → 1 ≤ k → k ≤ n →
      let x := getT s t.toNat
      let g31 := port x 0x1F
      let reg := regs.getD (k - 1) 16
      segStore s t.toNat (supervisor x) 2 (g31 + BitVec.ofNat 32 (4 * k)) 4
        (if reg = 31 then g31 + BitVec.ofNat 32 (4 * (1 + n)) else port x reg) = .ok s1 →
      ∃ w, exec (.longRoutineStep t c) s = .next w ∧
        Stepped s1 w t.toNat r { r with routine := .call mask b off (k + 1) } x1 (k == n) (target x1))

/-- R155: br.ret loads the frame word at g31 and one word for each register of its mask, and they, g31 and the PC change
together; no other port changes.
R93, R92, R161: br.rti restores fl, mode, loop levels, ctl.prog and the PC from the sixteen words of the entry frame and
raises ctl.ksp by 64; the loop-back does not apply, and the move at the restored PC is checked for a resumption (R166).
The model's choices: log entries 51, 52. -/
def Obligations.ReturnMoves : Prop :=
  (∀ (t : BitVec 5) (f : MoveForm) (s u u1 u2 : State) (m : Move) (v fw : Word) (l : List Word),
      Performs s t.toNat m v u → moveOf 0xA3 f = .ok m →
      let x := getT u t.toNat
      let regs := maskRegs (BitVec.ofNat 16 (fw.toNat / 2 ^ 16))
      segLoad u t.toNat (supervisor x) 1 2 (port x 0x1F) 4 {} = .ok (fw, u1) →
      popAll u1 t.toNat (supervisor x) 1 2 {} regs.length 1 (port x 0x1F + 4) = .ok (l, u2) → u2.aud = u.aud →
      Settled (getT u2 t.toNat) →
      ∃ w, exec (.brRet t f) s = .next w ∧
        MoveFrame u2 w t.toNat (getT u2 t.toNat) (0x1F :: regs) (BitVec.ofNat 32 (fw.toNat % 2 ^ 16 * 2)) ∧
        l.length = regs.length ∧ (∀ p ∈ regs.zip l, port (getT w t.toNat) p.1 = p.2) ∧
        (0x1F ∉ regs → port (getT w t.toNat) 0x1F = port x 0x1F + BitVec.ofNat 32 (4 * (1 + regs.length)))) ∧
  (∀ (t : BitVec 5) (f : MoveForm) (s u u1 : State) (m : Move) (v : Word) (l : List Word),
      Performs s t.toNat m v u → moveOf 0xA4 f = .ok m →
      popAll u t.toNat true 0 7 {} 16 0 (port (getT u t.toNat) 0xD9) = .ok (l, u1) → u1.aud = u.aud → Settled (getT u1 t.toNat) →
      let x := getT u1 t.toNat
      let mode := (l.getD 2 0).toNat
      let offset (i : Nat) : Word := l.getD i 0 &&& 0xFFFFFFFE
      ∃ w, exec (.brRti t f) s = .next w ∧
        let y := getT w t.toNat
        y.pc = offset 0 ∧ port y 0x20 = (l.getD 1 0 &&& 0x1F) ∧ port y 0xDA = BitVec.ofNat 32 (mode % 4) ∧
        port y 0xDB = (l.getD 3 0 &&& 0x8FFF00FF) ∧ port y 0xD9 = port x 0xD9 + 64 ∧
        y.loops.length = min (mode / 4 % 8) 4 ∧
        (∀ i, i < y.loops.length → y.loops[y.loops.length - 1 - i]? =
          some { start := offset (4 + 3 * i), stop := offset (5 + 3 * i), count := l.getD (6 + 3 * i) 0 }) ∧
        (∀ id, id ∉ [0x20, 0xDA, 0xDB, 0xD9] → port y id = port x id) ∧
        y.rcount = x.rcount + 1 ∧ y.rtiCheck = true ∧ y.lcnt = x.lcnt ∧ y.dec = x.dec ∧ y.gth = x.gth ∧
        OthersSame u1 w t.toNat ∧ MemSame u1 w ∧ CardSame u1 w)

/-- R157, R160: lp.go with a free level and an even end E: a count of 0 skips to E, an end at or before the body makes no level,
and otherwise a level opens; lp.exit removes the innermost level, if there is one.
R158, R159: the loop-back of a retirement whose next PC is the end of the innermost level: a count above 1 is lowered and
the PC becomes the level's start; otherwise the level is removed and the check repeats against the next one.
The model's choices: log entry 51. -/
def Obligations.LoopMoves : Prop :=
  (∀ (t : BitVec 5) (f : MoveForm) (s u : State) (m : Move) (v : Word), Performs s t.toNat m v u →
      let x := getT u t.toNat
      let start := nextPc u t.toNat m
      (moveOf 0xAC f = .ok m → x.loops.length < 4 → v.getLsbD 0 = false → ∃ w, exec (.lpGo t f) s = .next w ∧
        if x.lcnt = 0 then MoveFrame u w t.toNat x [] v
        else if v.toNat ≤ start.toNat then MoveFrame u w t.toNat x [] start
        else MoveFrame u w t.toNat { x with loops := { start := start, stop := v, count := x.lcnt } :: x.loops } [] start) ∧
      (moveOf 0xAD f = .ok m → ∃ w, exec (.lpExit t f) s = .next w ∧
        MoveFrame u w t.toNat { x with loops := x.loops.tail } [] start)) ∧
  (
    (∀ pc, loopBack [] pc = ([], pc)) ∧
    ∀ (l : LoopLevel) (r : List LoopLevel) (pc : Word),
      (l.stop ≠ pc → loopBack (l :: r) pc = (l :: r, pc)) ∧
      (l.stop = pc → 1 < l.count.toNat → loopBack (l :: r) pc = ({ l with count := l.count - 1 } :: r, l.start)) ∧
      (l.stop = pc → l.count.toNat ≤ 1 → loopBack (l :: r) pc = loopBack r pc))

/-- R60, R61, R80: a plain move, and an immediate move without HI, to a port that stores what it is given takes the bits of the
value that the port holds; lp.count keeps its own register; an immediate move with HI writes the upper half of a general
register. No other port changes.
R60, R62: a plain move whose destination is a trigger or a port with a command of its own is that command, a load under the
same circumstances.
The model's choices: log entry 8. -/
def Obligations.PlainMoves : Prop :=
  (∀ (t : BitVec 5) (c : Circ) (s u : State) (m : Move) (v : Word), Performs s t.toNat m v u c →
      let x := getT u t.toNat
      let stores (dst : Nat) : Prop := portKind dst = some .rw ∧ dst ≠ 0xA8 ∧ dst ≠ 0xDA ∧ ¬ (0xC0 ≤ dst ∧ dst ≤ 0xD7)
      let written (w : State) (dst : Nat) : Prop :=
        MoveFrame u w t.toNat x [dst] (nextPc u t.toNat m) ∧ port (getT w t.toNat) dst = (v &&& portMask dst)
      (∀ e dst src, decodeMove e = .ok m → m.op = .mv dst src 0 → stores dst →
        ∃ w, exec (.plainMove t e c) s = .next w ∧ written w dst) ∧
      (∀ e src, decodeMove e = .ok m → m.op = .mv 0xA8 src 0 →
        ∃ w, exec (.plainMove t e c) s = .next w ∧ MoveFrame u w t.toNat { x with lcnt := v } [] (nextPc u t.toNat m)) ∧
      (∀ (dst : BitVec 8) (imm : BitVec 20), c = {} → decodeMove (.long (encImm dst.toNat false imm)) = .ok m → stores dst.toNat →
        ∃ w, exec (.immediateMove t dst false imm) s = .next w ∧ written w dst.toNat ∧ v = imm.signExtend 32) ∧
      (∀ (dst : BitVec 8) (imm : BitVec 20), c = {} → decodeMove (.long (encImm dst.toNat true imm)) = .ok m →
        ∃ w, exec (.immediateMove t dst true imm) s = .next w ∧
          MoveFrame u w t.toNat x [dst.toNat] (nextPc u t.toNat m) ∧ dst.toNat < 32 ∧
          (port (getT w t.toNat) dst.toNat).toNat = imm.toNat * 2 ^ 16 + (port x dst.toNat).toNat % 2 ^ 16)) ∧
  (∀ (t : BitVec 5) (f : MoveForm) (c : Circ) (s : State),
      (∀ p ∈ [(0x40, Instr.aluAdd t f), (0x41, .aluAdc t f), (0x42, .aluSub t f), (0x43, .aluSbc t f), (0x44, .aluAnd t f),
          (0x45, .aluOr t f), (0x46, .aluXor t f), (0x47, .aluAndn t f), (0x48, .aluShl t f), (0x49, .aluShr t f),
          (0x4A, .aluSar t f), (0x4B, .aluRol t f), (0x4C, .aluRor t f), (0x4D, .aluCmp t f), (0x4E, .aluTst t f),
          (0x60, .decAdd t f), (0x61, .decAdc t f), (0x62, .decSub t f), (0x63, .decSbc t f), (0x64, .decAdj t f),
          (0x65, .decCmp t f), (0x66, .decShl t f), (0x67, .decShr t f), (0x68, .decB2d t f), (0x69, .decD2b t f),
          (0x6A, .decMulw t f), (0x6B, .decDivw t f), (0x6C, .decRound t f), (0x74, .mulMulu t f), (0x75, .mulMuls t f),
          (0x76, .mulMac t f), (0x85, .lsuStb t f), (0x86, .lsuSth t f), (0x87, .lsuStw t f), (0x8C, .gthGo t f),
          (0x8D, .gthResume t f), (0xA1, .brJmp t f), (0xA2, .brCall t f), (0xA3, .brRet t f), (0xA4, .brRti t f),
          (0xAC, .lpGo t f), (0xAD, .lpExit t f), (0xB8, .qpPush t f .none), (0xB9, .qpPop t f .none),
          (0xBA, .qpDrop t f .none), (0xBB, .qpStat t f .none), (0xDA, .ctlModeWrite t f), (0xE0, .ctlEoi t f),
          (0xE1, .ctlWait t f), (0xE2, .ctlFlush t f), (0xE3, .ctlFence t f), (0xE4, .ctlUsave t f), (0xE5, .ctlUrest t f),
          (0xE6, .ctlTrap t f)],
        ((shortDstCode p.1).isSome = true ∨ ∀ src last, f ≠ .short src last) →
        exec (.plainMove t (encForm p.1 f) {}) s = exec p.2 s) ∧
      ∀ p ∈ [(0x80, Instr.lsuLdb t f c), (0x81, .lsuLdbu t f c), (0x82, .lsuLdh t f c), (0x83, .lsuLdhu t f c), (0x84, .lsuLdw t f c)],
        exec (.plainMove t (encForm p.1 f) c) s = exec p.2 s)

/-- R139, R76, R122: ctl.mode takes DET and keeps S, and leaving DET invalidates both caches (R139). A segment descriptor port takes
its bits unless the weave lock freezes it (R76), and the next move is fetched anew where it is the fetch segment's (R122). -/
def Obligations.ModeAndSegmentWrites : Prop :=
  ∀ (t : BitVec 5) (f : MoveForm) (s u : State) (m : Move) (v : Word), Performs s t.toNat m v u →
    let x := getT u t.toNat
    (moveOf 0xDA f = .ok m → ∃ w, exec (.ctlModeWrite t f) s = .next w ∧
      MoveFrame u w t.toNat
        (if (port x 0xDA).getLsbD 1 = true ∧ v.getLsbD 1 = false then { x with icache := [], dcache := [], group := none }
          else { x with group := none })
        [0xDA] (nextPc u t.toNat m) ∧
      port (getT w t.toNat) 0xDA = ((v &&& 2) ||| (port x 0xDA &&& 1))) ∧
    (∀ id : BitVec 8, 0xC0 ≤ id.toNat → id.toNat ≤ 0xD7 → moveOf id.toNat f = .ok m →
      let frozen := port x (0xD0 + id.toNat % 8) &&& 0x100 ≠ 0
      ∃ w, exec (.segmentDescriptorWrite t id f) s = .next w ∧
        MoveFrame u w t.toNat (if ¬ frozen ∧ id.toNat % 8 = (if supervisor x then 6 else 1) then { x with group := none } else x)
          [id.toNat] (nextPc u t.toNat m) ∧
        port (getT w t.toNat) id.toNat =
          if frozen then port x id.toNat else if id.toNat < 0xD0 then v else v &&& 0x3F)

/-- R140, R142, R419: ctl.flush invalidates what its operation names, ctl.fence waits for nothing in a card that performs
commands whole, and ctl.wait retires and stops the triad's issue.
R168 to R170: ctl.usave stores the image of a unit's ports and internal state in the local store, wrapping at its end, and
changes no other byte, no other poison mark and no port; ctl.urest of an image without a poisoned word writes every port of the
image.
The model's choices: log entries 8, 53. -/
def Obligations.UnitControl : Prop :=
  (∀ (t : BitVec 5) (f : MoveForm) (s u : State) (m : Move) (v : Word), Performs s t.toNat m v u →
      let x := getT u t.toNat
      let op := v.toNat % 8
      let without (c : Tab (List CacheLine)) (d : Tab (List CacheLine)) : Prop :=
        tget (fun _ => []) d (setOf v.toNat) = (tget (fun _ => []) c (setOf v.toNat)).filter (fun l => l.line != v.toNat / 32) ∧
          ∀ k, k ≠ setOf v.toNat → tget (fun _ => []) d k = tget (fun _ => []) c k
      (moveOf 0xE2 f = .ok m → ∃ w d i, exec (.ctlFlush t f) s = .next w ∧
        MoveFrame u w t.toNat { x with dcache := d, icache := i, group := if op = 1 ∨ op = 2 ∨ op = 4 then none else x.group } [] (nextPc u t.toNat m) ∧
        (if op = 0 ∨ op = 2 then d = [] else if op = 3 then without x.dcache d else d = x.dcache) ∧
        (if op = 1 ∨ op = 2 then i = [] else if op = 4 then without x.icache i else i = x.icache)) ∧
      (moveOf 0xE3 f = .ok m → ∃ w, exec (.ctlFence t f) s = .next w ∧ MoveFrame u w t.toNat x [] (nextPc u t.toNat m)) ∧
      (moveOf 0xE1 f = .ok m → ∃ w, exec (.ctlWait t f) s = .next w ∧
        MoveFrame u w t.toNat { x with waiting := true } [] (nextPc u t.toNat m) ∧ (getT w t.toNat).waiting = true)) ∧
  (∀ (t : BitVec 5) (f : MoveForm) (s u : State) (m : Move) (v : Word), Performs s t.toNat m v u →
      let x := getT u t.toNat
      let unit := v.toNat / 2 ^ 28
      let a := v.toNat % 2 ^ 17
      let image := unitImage x unit
      a % 4 = 0 →
      (moveOf 0xE4 f = .ok m → ∃ w, exec (.ctlUsave t f) s = .next w ∧ RetiredTo x (getT w t.toNat) (nextPc u t.toNat m) ∧
        (∀ id, port (getT w t.toNat) id = port x id) ∧
        (∀ i, i < image.length → getWord w (lsKey t.toNat (a + 4 * i)) = image.getD i 0 ∧
          poisoned w (lsKey t.toNat (a + 4 * i)) = false) ∧
        (∀ k, (∀ i, i < 4 * image.length → k ≠ lsKey t.toNat (a + i)) →
          getByte w k = getByte u k ∧ poisoned w k = poisoned u k) ∧
        OthersSame u w t.toNat ∧ CardSame u w) ∧
      (moveOf 0xE5 f = .ok m → (∀ i, i < image.length → poisoned u (lsKey t.toNat (a + 4 * i)) = false) →
        let words := (List.range image.length).map (fun i => getWord u (lsKey t.toNat (a + 4 * i)))
        let y := restoreUnit x unit words
        ∃ w, exec (.ctlUrest t f) s = .next w ∧ MoveFrame u w t.toNat { y with ports := x.ports }
            (match unit with
              | 0 => [0x30, 0x31, 0x32] | 1 => [0x50, 0x51, 0x52, 0x53, 0x54, 0x55, 0x56] | 2 => [0x70, 0x71, 0x72, 0x73]
              | 3 => [0x78, 0x79, 0x7A] | 4 => gthPorts | 5 => [0xA0] | 7 => [0xB0, 0xB1, 0xB2, 0xB3, 0xB4, 0xB5] | _ => [])
            (nextPc u t.toNat m) ∧
          (∀ id, port (getT w t.toNat) id = port y id) ∧
          (∀ p ∈ [(0, 0x30, 0), (1, 0x50, 0), (1, 0x53, 3), (1, 0x56, 6), (2, 0x72, 2), (2, 0x73, 3), (3, 0x7A, 2), (4, 0x90, 4),
            (5, 0xA0, 0), (7, 0xB2, 2)], unit = p.1 → port y p.2.1 = words.getD p.2.2 0)))

/-- R71: ctl.trap retires and then enters vector 11 with SUB 1 and the transported value in ctl.fadr; the frame's return PC is
the move after it. The frame is stored where s7 puts it, without a fault.
R83, R70: which exception the ports of a move raise: the source before the destination, an unassigned ID before an access that
the port has not, and in task mode what is reserved to supervisor mode. ctl.fadr holds the port's ID.
R89 to R93: a move that raises an exception enters its vector and does not retire. Its frame's return PC is its own; what it had
read and done is undone but for what the failing access left. So it is for a failing fetch outside an entry, an illegal encoding, a
port exception, a zero divisor, a fifth loop level, odd targets, misaligned images, and every load and store that fails.
R92, R73: the sixteen words of an entry frame, and a frame that lies in the local store within s7: it is stored, whatever the
mode, and nothing else of the card changes but its bytes.
The model's choices: log entries 50, 78. -/
def Obligations.Traps : Prop :=
  (∀ (t : BitVec 5) (f : MoveForm) (s u e : State) (m : Move) (v : Word), Performs s t.toNat m v u → moveOf 0xE6 f = .ok m →
      let r := retire u t.toNat (getT u t.toNat) m (some v) (nextPc u t.toNat m) (pairNow s t.toNat (.ok m) m.len) false
      let y := getT r t.toNat
      pushFrame t.toNat (frameWords y y.pc 11) (port y 0xD9 - 64) r = (e, true) → e.aud = u.aud → Settled (getT e t.toNat) →
      y.pc = (loopBack (getT u t.toNat).loops (nextPc u t.toNat m)).2 ∧ y.rcount = (getT u t.toNat).rcount + 1 ∧
      ∃ w, exec (.ctlTrap t f) s = .next w ∧
        let z := getT w t.toNat
        z.pc = port (getT e t.toNat) 0xD8 + 0x2C0 ∧ port z 0xDD = v ∧ (port z 0xDC).toNat % 2 ^ 16 = 11 + 256 ∧
        port z 0xD9 = port y 0xD9 - 64 ∧ (port z 0xDA).getLsbD 0 = true ∧ z.loops = [] ∧ z.run = none ∧ port z 0xDB = 0 ∧
        (∀ id, id ∉ [0xD9, 0xDA, 0xDB, 0xDC, 0xDD] → port z id = port (getT e t.toNat) id) ∧
        OthersSame e w t.toNat ∧ MemSame e w ∧ CardSame e w) ∧
  (∀ (sup : Bool) (dst src : Nat) (seg : BitVec 3),
      let op := MoveOp.mv dst (.port src) seg
      let raises (vec sub id : Nat) : Prop := portExc sup op = some { vec := vec, sub := sub, fadr := BitVec.ofNat 32 id }
      (portKind src = none → raises 1 0 src) ∧ (portKind src = some .t → raises 1 1 src) ∧
      (portKind src ≠ none → portKind src ≠ some .t →
        (portKind dst = none → raises 1 0 dst) ∧ (portKind dst = some .r → raises 1 2 dst) ∧
        (portKind dst ≠ none → portKind dst ≠ some .r →
          (sup = true → portExc sup op = none) ∧
          (sup = false → portMode src = .s → raises 11 0 src) ∧
          (sup = false → portMode src ≠ .s → portMode dst ≠ .any → raises 11 0 dst) ∧
          (sup = false → portMode src ≠ .s → portMode dst = .any → portExc sup op = none)))) ∧
  (∀ (t : BitVec 5) (c : Circ) (s s1 u : State) (f : MoveForm) (m : Move) (v : Word) (x : Exc), Ready s t.toNat c →
      (∀ e, fetchMove s t.toNat (encLen e) c.fetch c.fetch2 = .error x → (getT s t.toNat).entered = false →
        Enters (.plainMove t e c) s s t.toNat (fetchExc (getT s t.toNat) x)) ∧
      (∀ e, decodeMove e = .error x → fetchMove s t.toNat (encLen e) c.fetch c.fetch2 = .ok s1 →
        Enters (.plainMove t e c) s s1 t.toNat x) ∧
      (∀ e, decodeMove e = .ok m → fetchMove s t.toNat m.len c.fetch c.fetch2 = .ok s1 →
        portExc (supervisor (getT s1 t.toNat)) m.op = some x → Enters (.plainMove t e c) s s1 t.toNat x) ∧
      (fetchMove s t.toNat m.len c.fetch c.fetch2 = .ok s1 → (getT s1 t.toNat).rtiCheck = false →
        portExc (supervisor (getT s1 t.toNat)) m.op = none → readSrc s1 t.toNat (srcOf m.op) = (v, u) →
        let y := getT u t.toNat
        let o := port y 0x78 + v
        let odd := v.getLsbD 0 = true
        (c = {} → ∀ p ∈ [(0x6B, Instr.decDivw t f, decide (decWord v = 0), ({ vec := 10 } : Exc)),
            (0xAC, .lpGo t f, decide (4 ≤ y.loops.length), { vec := 9 }),
            (0xAC, .lpGo t f, decide (y.loops.length < 4 ∧ odd), { vec := 4, fadr := v, fetch := true }),
            (0xA1, .brJmp t f, decide odd, { vec := 4, fadr := v, fetch := true }),
            (0xA2, .brCall t f, decide odd, { vec := 4, fadr := v, fetch := true }),
            (0xE4, .ctlUsave t f, decide (v.toNat % 4 ≠ 0), { vec := 4, fadr := BitVec.ofNat 32 (v.toNat % 2 ^ 17) }),
            (0xE5, .ctlUrest t f, decide (v.toNat % 4 ≠ 0), { vec := 4, fadr := BitVec.ofNat 32 (v.toNat % 2 ^ 17) })],
          moveOf p.1 f = .ok m → p.2.2.1 = true → Enters p.2.1 s s1 t.toNat p.2.2.2) ∧
        (∀ p ∈ [(0x80, Instr.lsuLdb t f c, 1), (0x81, .lsuLdbu t f c, 1), (0x82, .lsuLdh t f c, 2), (0x83, .lsuLdhu t f c, 2),
            (0x84, .lsuLdw t f c, 4)],
          moveOf p.1 f = .ok m → segLoad u t.toNat (supervisor y) 0 (segOf m.op).toNat o p.2.2 (Circ.load c 0) = .error x →
          Enters p.2.1 s s1 t.toNat x) ∧
        (c = {} → ∀ p ∈ [(0x85, Instr.lsuStb t f, 1), (0x86, .lsuSth t f, 2), (0x87, .lsuStw t f, 4)],
          moveOf p.1 f = .ok m → segStore u t.toNat (supervisor y) (segOf m.op).toNat o p.2.2 (port y 0x79) = .error x →
          Enters p.2.1 s s1 t.toNat x))) ∧
  (∀ (s : State) (t vec fa : Nat) (ret : Word), vec < 32 → (getT s t).loops.length ≤ 4 →
      let x := getT s t
      let o := port x 0xD9 - 64
      let frame := frameWords x ret vec
      frame.length = 16 ∧ frame.getD 0 0 = ret ∧ frame.getD 1 0 = port x 0x20 ∧ frame.getD 3 0 = port x 0xDB ∧
      (frame.getD 2 0).toNat = b2n (supervisor x) + 2 * b2n (detMode x) + 4 * x.loops.length + 256 * vec ∧
      (∀ (i : Nat) (l : LoopLevel), i < 4 → x.loops.reverse[i]? = some l →
        frame.getD (4 + 3 * i) 0 = l.start ∧ frame.getD (5 + 3 * i) 0 = l.stop ∧ frame.getD (6 + 3 * i) 0 = l.count) ∧
      (∀ i, x.loops.length ≤ i → i < 4 →
        frame.getD (4 + 3 * i) 0 = 0 ∧ frame.getD (5 + 3 * i) 0 = 0 ∧ frame.getD (6 + 3 * i) 0 = 0) ∧
      ((port x 0xC7 + o).toNat = fa → fa % 4 = 0 → fa + 64 ≤ 0x20000 → o.toNat + 64 ≤ (port x 0xCF).toNat →
        (port x 0xD7).getLsbD 1 = true →
        ∃ e, pushFrame t frame o s = (e, true) ∧ e = { s with mem := e.mem, poison := e.poison } ∧
          (∀ i, i < 16 → getWord e (lsKey t (fa + 4 * i)) = frame.getD i 0 ∧ poisoned e (lsKey t (fa + 4 * i)) = false) ∧
          ∀ k, (k < lsKey t fa ∨ lsKey t fa + 64 ≤ k) → getByte e k = getByte s k ∧ poisoned e k = poisoned s k))

/-! ### Queues -/

/-- R279 to R285, R264: what one pushed word does to queue q of class c by the queue's mode, and the notices it causes; the null
queue discards it.
R273 to R276, R265, R232: a pop of a queue whose descriptor is sound: nothing from a broken or an empty queue; otherwise the head
word as it is read, with EOP and GAP in its tag, leaves, and the last word's cell returns to the pool. A word whose slot fails its
parity sets POISON, counts, and is logged as a detected fault; any other leaves the rest of the card.
The model's choices: log entries 68, 74. -/
def Obligations.QueueModes : Prop :=
  (∀ (s : State) (q c : Nat) (w : Word) (eop : Bool), pushCore s 0xFFFFF c w eop = (s, []) ∧ (q ≠ 0xFFFFF →
      let d := getQ s q
      let r := pushCore s q c w eop
      let d' := getQ r.1 q
      (d.mode = .normal → 0 < room s q c → d'.mode = .normal ∧ d'.words = d.words + 1 ∧ d'.pkts = d.pkts + b2n eop ∧
        d'.inpkt = !eop ∧ slotGet r.1 d'.tail d'.wslot = slotWord w eop false ∧ r.2 = (if eop then [.ready] else [])) ∧
      (d.mode = .normal → room s q c = 0 → d'.mode = (if eop then .pend else .gap) ∧ d'.words = d.words ∧ d'.pkts = d.pkts ∧
        d'.armed = false ∧ r.2 = [.gap]) ∧
      (d.mode = .gap → d'.mode = (if eop then .pend else .gap) ∧ d'.words = d.words ∧
        d'.count = (if d.count = 0xFFFFFFFF then d.count else d.count + 1) ∧ r.2 = []) ∧
      (d.mode = .pend → room s q c < 2 → d'.mode = (if eop then .pend else .gap) ∧ d'.words = d.words ∧
        d'.count = (if d.count = 0xFFFFFFFF then d.count else d.count + 1) ∧ r.2 = []) ∧
      (d.mode = .pend → 2 ≤ room s q c → d'.mode = .normal ∧ d'.words = d.words + 2 ∧ d'.pkts = d.pkts + 1 + b2n eop ∧
        d'.count = 0 ∧ slotGet r.1 d'.tail d'.wslot = slotWord w eop false ∧
        r.2 = (if eop then [.ready, .ready] else [.ready])) ∧
      (d.mode = .disc → d'.mode = (if eop then .normal else .disc) ∧ d'.words = d.words ∧ r.2 = []) ∧
      (d.mode = .broken → r.1.qe = s.qe ∧ r.2 = []))) ∧
  (∀ (s : State) (q c : Nat) (up : QueueUpset), qClass s q = some c → tget (fun _ => false) s.qe.badDescs q = false →
      (up = .none ∨ ∃ b, up = .parity 0 b) →
      let d := getQ s q
      let w := BitVec.ofNat 36 (headSlot s q up 0)
      let fails := parityBits 34 w.toNat != w.getLsbD 34
      let r := popCore s q c up
      (d.mode = .broken → r.1 = 0 ∧ r.2.1 = 0x200 ∧ getQ r.2.2 q = d) ∧
      (d.mode ≠ .broken → d.words = 0 → r.1 = 0 ∧ r.2.1 = 0 ∧ getQ r.2.2 q = d) ∧
      (d.mode ≠ .broken → 0 < d.words → tget (fun _ => false) s.qe.badLinks d.head = false →
        r.1 = w.setWidth 32 ∧ r.2.1 = BitVec.ofNat 32 (popTag fails (w.getLsbD 33) (w.getLsbD 32)) ∧
        (getQ r.2.2 q).words = d.words - 1 ∧ (getQ r.2.2 q).mode = d.mode ∧
        (getQ r.2.2 q).pkts = (if d.words = 1 then 0 else d.pkts - b2n (w.getLsbD 32)) ∧
        (∀ q', q' ≠ q → getQ r.2.2 q' = getQ s q') ∧ MemSame s r.2.2 ∧
        (if fails then Logs s r.2.2 .detect noElem noElem 0 ∧ OneMore s r.2.2 (QE_CERR c) QE_CERR_POISON else CardSame s r.2.2)))

/-- R263, R271, R285, R286: the four queue operations of a triad on a queue that it may reach, over a route that works to a queue
engine that is powered: the descriptor is read, and breaks the queue when it fails; a push is the mode table's push, its notices
and the pool's state after it; a pop fills qp.data and qp.tag, and a dispatch queue's word is noted as the triad's; a drop
discards, and the next word of a dispatch queue begins a packet; a stat answers mode, packets and words. No other port changes.
The model's choices: log entry 21. -/
def Obligations.QueueMoves : Prop :=
  ∀ (t : BitVec 5) (f : MoveForm) (up : QueueUpset) (s u : State) (m : Move) (v : Word) (c : Nat), Performs s t.toNat m v u →
    let x := getT u t.toNat
    let q := (port x 0xB0).toNat
    let h := heldAccess u 2
    let mayPush := triadAccess q t.toNat = .any ∨ triadAccess q t.toNat = .push
    let mayPop := triadAccess q t.toNat = .any ∨ triadAccess q t.toNat = .pop
    let next := nextPc u t.toNat m
    accessFailed u t.toNat 0x41000000 = false → domState u 2 ≠ 2 → qClass h q = some c →
    (moveOf 0xB8 f = .ok m → mayPush →
      let r := pushCore (checkDesc (checkDesc h q c up) q c .none) q c v ((port x 0xB1).getLsbD 0)
      DoesMove (.qpPush t f up) s (poolCheck (postNotices r.1 q c r.2)) t.toNat x next) ∧
    (moveOf 0xB9 f = .ok m → mayPop → traced (popCore h q c up).2.2 t.toNat = false →
      let r := popCore h q c up
      let e := if 0xFF000 ≤ q ∧ q < 0xFF010 ∧ r.2.1.getLsbD 0 = true then noteHandler r.2.2 t.toNat q r.1 r.2.1 else r.2.2
      ∃ w, exec (.qpPop t f up) s = .next w ∧ MoveFrame e w t.toNat x [0xB2, 0xB3] next ∧
        port (getT w t.toNat) 0xB2 = r.1 ∧ port (getT w t.toNat) 0xB3 = r.2.1) ∧
    (moveOf 0xBA f = .ok m → mayPop →
      DoesMove (.qpDrop t f up) s (packetOpen (dropCore h q c up) q false) t.toNat x next) ∧
    (moveOf 0xBB f = .ok m → traced (checkDesc h q c up) t.toNat = false →
      let e := checkDesc h q c up
      let d := getQ e q
      ∃ w, exec (.qpStat t f up) s = .next w ∧ MoveFrame e w t.toNat x [0xB4, 0xB5] next ∧
        port (getT w t.toNat) 0xB4 = BitVec.ofNat 32 (qmodeCode d.mode * 2 ^ 24 + d.pkts) ∧
        port (getT w t.toNat) 0xB5 = BitVec.ofNat 32 d.words)

/-- R277, R285, R250: the engine port of a master other than a core, whose route to the powered QE works, out of safe halt. A burst
of 1 to 120 words is pushed word by word; a pop answers words with their tags through the first EOP, or one tag of a broken or
an empty queue; a stat answers mode, packets and words.
R289 to R291: the stale timer of an armed queue in NORMAL that holds words falls due: the queue is disarmed and one STALE
notice is posted. -/
def Obligations.EnginePort : Prop :=
  (∀ (m : BitVec 6) (q : BitVec 20) (s : State) (c : Nat), 32 ≤ m.toNat → safeHalt s = false →
      qeRoute s (masterRouter m.toNat) = true → domState s 2 ≠ 2 →
      let h := heldAccess s 2
      let answered (e : State) (l : List (Word × Word)) : State := { e with rwords := l, rdata := (l.map (·.1)).headD 0 }
      qClass h q.toNat = some c →
      (∀ ws : List (Word × Bool), ws ≠ [] → ws.length ≤ 120 →
        Does (.enginePortPush m q ws) s (ws.foldl (fun s p => pushOne s q.toNat c p.1 p.2) h)) ∧
      (∀ (n : BitVec 7) (up : QueueUpset), n.toNat ≠ 0 → n.toNat ≤ 120 →
        let e := checkDesc h q.toNat c up
        let d := getQ e q.toNat
        let r := popWords q.toNat c up n.toNat 0 e
        (d.mode = .broken → Does (.enginePortPop m q n up) s (answered e [(0, 0x200)])) ∧
        (d.mode ≠ .broken → d.words = 0 → Does (.enginePortPop m q n up) s (answered e [(0, 0)])) ∧
        (d.mode ≠ .broken → d.words ≠ 0 → Does (.enginePortPop m q n up) s
            (answered (packetOpen r.2 q.toNat (!(r.1.getLastD (0, 0)).2.getLsbD 1)) r.1) ∧ r.1.length ≤ n.toNat ∧
          (∀ i, i < r.1.length → ((r.1.getD i (0, 0)).2.getLsbD 0 = true ∧
            ((r.1.getD i (0, 0)).2.getLsbD 1 = true → i + 1 = r.1.length))))) ∧
      (∀ up : QueueUpset,
        let e := checkDesc h q.toNat c up
        let d := getQ e q.toNat
        Does (.enginePortStat m q up) s
          (answered e [(BitVec.ofNat 32 (qmodeCode d.mode * 2 ^ 24 + d.pkts), BitVec.ofNat 32 d.words)]))) ∧
  (∀ (q : BitVec 20) (s : State) (c : Nat), qClass s q.toNat = some c → domOn s 2 = true → safeHalt s = false →
      let d := getQ s q.toNat
      d.armed = true → d.mode = .normal → d.words ≠ 0 → tget (fun _ => false) s.qe.badDescs q.toNat = false →
      let e := setQ (descRead s q.toNat) q.toNat { d with armed := false, listed := false }
      let nq := 0xFFF00 + getF e (QE_COWN c) QE_COWN_NOTIFY
      ∃ e', Does (.staleTimerDue q) s e' ∧
        e' = poolCheck (if c < 64 then (pushCore (noticeQueue e nq) nq 65 (BitVec.ofNat 32 (2 ^ 30 + q.toNat)) true).1 else e) ∧
        MemSame s e' ∧ CardSame s e')

/-- R297, R296: QE_QCMD. RESET returns the queue to an empty NORMAL one, INSPECT shows its descriptor in QE_DINSP0 to 3, which read
zero for a closed queue; RESULT is 0, 1 of a closed queue, 3 of any other operation; a command ends with source 36 pending. A
descriptor that fails breaks its queue first (R286).
The model's choices: log entries 36, 74. -/
def Obligations.QueueCommands : Prop :=
  ∀ (m : BitVec 6) (q : BitVec 20) (s u : State) (c : Nat), Reaches s m.toNat QE_QCMD u →
    let ends (e : State) (r : Nat) : Prop := getF e QE_QCMDST QE_QCMDST_RESULT = r ∧ bit512 e.pic.pend 36 = true
    (qClass u q.toNat = some c → ∃ e, Writes (.qcmdReset m q) s e ∧ getQ e q.toNat = {} ∧ ends e 0) ∧
    (qClass u q.toNat = none → ∃ e, Writes (.qcmdReset m q) s e ∧ e.qe = u.qe ∧ ends e 1 ∧
      ∀ i, i < 4 → reg e (QE_DINSP i) = 0) ∧
    (∀ v : Word, v.toNat / 2 ^ 28 ≠ 1 → v.toNat / 2 ^ 28 ≠ 2 → ∃ e, Writes (.qcmdInvalid m v) s e ∧ e.qe = u.qe ∧ ends e 3) ∧
    (∀ (up : QueueUpset) (u' : State), Reaches (upsetDesc s q.toNat up) m.toNat QE_QCMD u' →
      (qClass u' q.toNat = some c → ∃ e, Writes (.qcmdInspect m q up) s e ∧ ends e 0 ∧
        ∀ i, i < 4 → reg e (QE_DINSP i) =
          BitVec.ofNat 32 (packDesc (getQ (checkDesc u' q.toNat c .none) q.toNat) / 2 ^ (32 * i))) ∧
      (qClass u' q.toNat = none → ∃ e, Writes (.qcmdInspect m q up) s e ∧ ends e 1 ∧ ∀ i, i < 4 → reg e (QE_DINSP i) = 0))

/-! ### Registers, voters, supervisors, interrupts -/

/-- R7, R9, R10: what a write and a read do to each field of a register by the field's type, and to its reserved bits. -/
def Obligations.FieldTypes : Prop :=
  ∀ (s : State) (a : Nat) (v : Word) (r : RegRow) (f : Fld), regRow? a = some r → f ∈ r.flds →
    let old := getF s a f
    let new := bitsOf v.toNat f.hi f.lo
    let w := plainWrite s a v
    let (x, y) := plainRead s a
    (f.ty = .rw → getF w a f = new) ∧
    (f.ty = .lk → getF w a f = if weaveLocked s then old else new) ∧
    (f.ty = .w1c → ∀ i, (getF w a f).testBit i = (old.testBit i && !new.testBit i)) ∧
    (f.ty = .w1s → ∀ i, (getF w a f).testBit i = (old.testBit i || new.testBit i)) ∧
    (f.ty = .ro ∨ f.ty = .wo ∨ f.ty = .rc → getF w a f = old) ∧
    bitsOf x.toNat f.hi f.lo = (if f.ty = .wo then 0 else old) ∧
    getF y a f = (if f.ty = .rc then f.rst else old) ∧
    (∀ i, i < 32 → (∀ g ∈ r.flds, i < g.lo ∨ g.hi < i) →
      x.getLsbD i = false ∧ (reg w a).getLsbD i = (reg s a).getLsbD i ∧ (reg y a).getLsbD i = (reg s a).getLsbD i) ∧
    (∀ b, b ≠ a → reg w b = reg s b ∧ reg y b = reg s b)

/-- R6, R11, R25, R248, R514, R516: a register access that reaches its block is the block's write or read, which in the supervisor
block is by the fields' types; a host read of a hole returns 0 and counts in MOD_HOLECNT; a host write with byte enables is
counted; a write of a master other than a core into the MRAM window is refused and counted. -/
def Obligations.RegisterAccesses : Prop :=
  ∀ (m : BitVec 6) (a v : Word) (be : BitVec 4) (s u : State),
    let b := a.toNat / 4 * 4
    (regionOf b = .device → (m = 36 → be = 15) → ¬ (m = 36 ∧ b = LAT_HFENCE) → Reaches s m.toNat b u →
      Writes (.registerWrite m (.fabric a) v be) s (deviceWrite u m.toNat b v) ∧
      Reads (.registerRead m (.fabric a)) s (deviceRead u b).1 (deviceRead u b).2 ∧
      (0x40080000 ≤ b ∧ b < 0x40090000 → deviceWrite u m.toNat b v = plainWrite u b v) ∧
      (regRow? b = none → plainWrite u b v = u ∧ plainRead u b = (0, u))) ∧
    (hostReady s = true → s.lat.fences = 0 → 0x40000000 ≤ b → regionOf b = .hole →
      Does (.registerRead 36 (.fabric a)) s (incSat { s with rdata := 0, rstat := 0 } MOD_HOLECNT MOD_HOLECNT_COUNT 1)) ∧
    (hostReady s = true → s.lat.fences = 0 →
      (be ≠ 15 → regionOf b ≠ .mram → Does (.registerWrite 36 (.fabric a) v be) s (hbErr s HB_ERR_PARTIAL)) ∧
      (regionOf b = .mram → Does (.registerWrite 36 (.fabric a) v be) s (incSat s LAT_STATUS LAT_STATUS_MWERR 1))) ∧
    (32 ≤ m.toNat → m ≠ 36 → regionOf b = .mram →
      Does (.registerWrite m (.fabric a) v be) s { incSat s LAT_STATUS LAT_STATUS_MWERR 1 with rstat := 2 })

/-- R199 to R205, R218: positions p, q and r of a triad, all live, and an effect or a read i that p presents. While a read of p
waits, p presents nothing. What p owes is compared: its held result is delivered, or p diverges. Otherwise i joins p's stream. Where
q has presented the same, the effect acts once (the read is issued once and its result delivered to p and q), and r owes it, a
read's result held for it; a read waits while the read buffer is full; an effect of r that differs makes r diverge. u is the
state after the effect or read itself, which leaves the voter's streams.
R208, R209, R235, R218: at a multiple of 64 retirements the voter compares the live positions' checks: the check that two of
three share, with the count, goes to CLV_RCNT and CLV_CHK, and the third diverges when it differs; what that frees goes (R203).
The model's choices: log entries 8, 10, 11, 13. -/
def Obligations.Voters : Prop :=
  (∀ (t : BitVec 5) (p : BitVec 2) (q r : Nat) (e : EffCopy) (d : ReadCopy) (s : State), presents s t.toNat p.toNat = true →
      livePositions s t.toNat = [0, 1, 2] → q < 3 → r < 3 → p.toNat ≠ q → p.toNat ≠ r → q ≠ r →
      let k := t.toNat
      let V := (getT s k).voter
      let P := streamOf V p.toNat
      let v := setStream (setStream V p.toNat []) q []
      (∀ c ∈ [(Instr.voterEffect t p e, VItem.eff e), (.votedRead t p d, .rd d)],
        (P.any isRead = true → Does c.1 s s) ∧
        (P = [] → streamOf V r = [] → ∀ o, owedTo V p.toNat = some o →
          Does c.1 s (if o.item = c.2 then deliverTo (setVoter s k (unowe V p.toNat)) k p.toNat o.res
            else diverge s k p.toNat (itemDetail c.2))) ∧
        (P.any isRead = false → owedTo V p.toNat = none → streamOf V q = [] → streamOf V r = [] →
          Does c.1 s (setVoter s k (setStream V p.toNat (P ++ [c.2]))))) ∧
      (P = [] → owedTo V p.toNat = none → streamOf V q = [.eff e] →
        let u := effAct (setVoter s k v) k e
        (getT u k).voter = v →
        (streamOf V r = [] →
          Does (.voterEffect t p e) s (setVoter u k { v with owed := v.owed ++ [{ pos := r, item := .eff e }] })) ∧
        (∀ j, streamOf V r = [j] → j ≠ .eff e →
          Does (.voterEffect t p e) s (diverge (setVoter u k (setStream v r [])) k r 1))) ∧
      (P = [] → owedTo V p.toNat = none → streamOf V q = [.rd d] → streamOf V r = [] →
        (32 ≤ held V → Does (.votedRead t p d) s (setVoter s k (setStream V p.toNat [.rd d]))) ∧
        (held V < 32 →
          let a := readAct (setVoter s k v) k d
          let u := deliver (deliver a.2 k (min p.toNat q) a.1) k (max p.toNat q) a.1
          (getT u k).voter = v →
          Does (.votedRead t p d) s (setVoter u k { v with taken := v.taken ++ [{ req := d, res := a.1 }]
                                                           owed := v.owed ++ [{ pos := r, item := .rd d, res := some a.1 }] }) ∧
          ∀ i, i = p.toNat ∨ i = q → (posOf (getT u k) i).got = a.1))) ∧
  (∀ (t : BitVec 5) (d0 d1 d2 : BitVec 64) (s : State),
      let x := getT s t.toNat
      let n := x.rcount
      let voted (d : BitVec 64) := votedCheck s t.toNat (x.rcheck ^^^ d)
      let ends (e : State) : Prop := Does (.retirementCheck t d0 d1 d2) s (matchUp e t.toNat)
      triadLive s t.toNat = true → n ≠ 0 → n.toNat % 64 = 0 → livePositions s t.toNat = [0, 1, 2] →
      (d0 = d1 → d1 = d2 → ends (voted d0)) ∧
      (d0 = d1 → d1 ≠ d2 → ends (diverge (voted d0) t.toNat 2 3)) ∧
      (d0 = d2 → d1 ≠ d2 → ends (diverge (voted d0) t.toNat 1 3)) ∧
      (d1 = d2 → d0 ≠ d1 → ends (diverge (voted d1) t.toNat 0 3)) ∧
      (d0 ≠ d1 → d0 ≠ d2 → d1 ≠ d2 → ends (disagree s t.toNat 5)) ∧
      ∀ d, let w := voted d
        let c := t.toNat / 4
        let j := t.toNat % 4
        reg w (CLV_RCNTLO c j) = n.setWidth 32 ∧ reg w (CLV_RCNTHI c j) = (n >>> 32).setWidth 32 ∧
        reg w (CLV_CHKLO c j) = (x.rcheck ^^^ d).setWidth 32 ∧ reg w (CLV_CHKHI c j) = ((x.rcheck ^^^ d) >>> 32).setWidth 32 ∧
        w.triads = s.triads ∧ MemSame s w)

/-- R200, R206, R212 to R217, R233: a position of a full triad that trails for 4 µs diverges: it is masked, counted, a DIVERGE entry
names its core, the triad runs in duplex and the supervisors' vote chooses a resync of the position, or a swap after a recent
resync. Its turn comes at once where no rebuild of the cluster waits or is under way: a swap maps the reserve, and the triad
pauses. The copy that ends readmits the position: MODE 1, the pause over, RESYNC counted, private source 20 pending. A double-bit
error of the source restarts the copy once; a copy that fails in a swap leaves the triad in duplex.
The model's choices: log entries 12, 58, 64, 65, 66. -/
def Obligations.DivergenceAndRebuild : Prop :=
  ∀ (t : BitVec 5) (p : BitVec 2) (s : State), p.toNat < 3 →
    let k := t.toNat
    let n := k / 4
    let x := getT s k
    let DIV := CLV_DIV n (k % 4)
    let swap := repeats s k p.toNat
    let paused (e : State) := flag e (SUP_TRIAD k) SUP_TRIAD_PAUSED
    x.voter.waiting = [] → (∀ j, j < 4 → 4 * n + j ≠ k → (getT s (4 * n + j)).rebuild = none) →
    (livePositions s k = [0, 1, 2] → domOn s (4 + n) = true → x.halted = false → x.waiting = false → triadMode s k = 1 →
      paused s = false → trails s k p.toNat = true → safeHalt s = false → (∀ i, i < 3 → supState s i = 0) →
      (swap = true → swapPossible s n = true) →
      ∃ e r, Does (.lagTimeout t p) s e ∧ (posOf (getT e k) p.toNat).masked = true ∧ (getT e k).rebuild = some r ∧
        r.pos = p.toNat ∧ r.swap = swap ∧ r.core = coreAt s k p.toNat ∧ triadMode e k = 2 ∧ paused e = !clusterPaused s n ∧
        (swap = true → clusterPaused s n = false → posCore e k p.toNat = 12 ∧
          flag e (SUP_CLUSTER n) SUP_CLUSTER_RSVAVAIL = false ∧ flag e (SUP_CLUSTER n) SUP_CLUSTER_RSVUSED = true) ∧
        OneMore s e DIV CLV_DIV_DIVERGE ∧ Logs s e .diverge (coreAt s k p.toNat) k 4 ∧ MemSame s e) ∧
    (∀ r, paused s = true → x.point = none → x.rebuild = some r → r.pos = p.toNat →
      (∃ e, Does (.rebuild t .ok) s e ∧ (posOf (getT e k) p.toNat).masked = false ∧ (getT e k).rebuild = none ∧
        (r.source ≠ r.pos → r.source < 3 → (posOf (getT e k) p.toNat).behind = (posOf x r.source).behind) ∧
        triadMode e k = 1 ∧ paused e = false ∧ bit32 (getBank e k).pend 20 = true ∧ OneMore s e DIV CLV_DIV_RESYNC ∧
        Logs s e (if r.swap then .swap else .resync) r.core k 0 ∧ MemSame s e) ∧
      (r.again = false → ∃ e, Does (.rebuild t .sourceError) s e ∧ Logs s e .recoverFail r.core k 0 ∧ paused e = true ∧
        (getT e k).rebuild = some { r with source := otherSource s k r.source, again := true }) ∧
      (r.swap = true → flag s (SUP_TRIAD k) SUP_TRIAD_DUPLEXOK = true →
        ∃ e, Does (.rebuild t .mismatch) s e ∧ Logs s e .duplex r.core k 0 ∧ triadMode e k = 2 ∧ paused e = false ∧
          (getT e k).rebuild = none))

/-- R220 to R225, R231: what two working supervisors present alike is carried out, and a third that differs is fenced; one that is
late is fenced with SUP_FENCE, two fenced begin a safe halt; a rebuilt one rejoins, a failed rebuild leaves it out. A masked voter
or engine copy and a mismatch of compared logic are logged; a copy number that names no engine changes nothing; a split comparator
stops its cluster.
The model's choices: log entries 66, 68. -/
def Obligations.SupervisorsAndCopies : Prop :=
  ∀ (s : State),
    (safeHalt s = false → (∀ i, i < 3 → supState s i = 0) →
      (∀ a b c : Option SupAct, ∀ x y : SupAct, x ≠ y → a = some x → b = some x → c = some y →
        Does (.supervisorAction a b c) s (matchEvery (fenceSup (supCarryOut s x) 2)) ∧
        Does (.supervisorAction a c b) s (matchEvery (fenceSup (supCarryOut s x) 1)) ∧
        Does (.supervisorAction c a b) s (matchEvery (fenceSup (supCarryOut s x) 0))) ∧
      (∀ x, Does (.supervisorAction (some x) (some x) (some x)) s (matchEvery (supCarryOut s x))) ∧
      (∀ i : BitVec 2, i.toNat < 3 → ∃ e, Does (.supervisorVoteTimeout (some i)) s e ∧ supState e i.toNat = 1 ∧
        e = logFault (setF s SUP_STATUS (supFld i.toNat) 1) .supFence (0x70 + i.toNat) 0xFF 0)) ∧
    (safeHalt s = false → Does (.supervisorVoteTimeout none) s (enterSafeHalt s 2)) ∧
    (∀ (i : BitVec 2) (ok : Bool), i.toNat < 3 → supState s i.toNat = 1 →
      ∃ e, Does (.supervisorRebuild i ok .none) s e ∧ supState e i.toNat = (if ok then 0 else 3)) ∧
    (∀ (n : BitVec 3) (v : BitVec 2), v.toNat < 3 →
      Does (.voterCopyMismatch n v) s (logFault s .voterCopy (0x80 + 3 * n.toNat + v.toNat) 0xFF 0)) ∧
    (∀ e : BitVec 4,
      (e.toNat < 4 → Does (.engineCopyMismatch e .none) s (logFault s .engMask (0xA0 + e.toNat) 0xFF 0)) ∧
      (4 ≤ e.toNat → e.toNat < 8 → Does (.engineCopyMismatch e .none) s s) ∧
      (8 ≤ e.toNat → Does (.engineCopyMismatch e .none) s (logFault s .detect (0xA0 + e.toNat) 0xFF 0))) ∧
    Does .duplicatedLogicMismatch s (logFault s .detect 0xFF 0xFF 0) ∧
    (∀ n : BitVec 3, ∃ e, Does (.ingressComparatorDisagreement n) s e ∧
      ∀ j, j < 4 → triadLive e (4 * n.toNat + j) = false)

/-- R188, R189, R191, R192, R207, R410 to R413, R89 to R92: the voter accepts the source presented to a running triad and reserves it at
the priority p it holds. With no entry agreed the triad is to enter vector 16 + p after move N, 64 past its count; before an entry
that is agreed has been made, that entry is made with p. A source whose entry gave way to an exception gets a new N. A triad that
waits in ctl.wait enters at once: the frame below ctl.ksp, ctl.cause and ctl.fadr, supervisor mode, depth 0, PC.
The model's choices: log entries 14, 15. -/
def Obligations.InterruptEntries : Prop :=
  ∀ (t : BitVec 5) (s : State), acceptsInterrupt s t.toNat = true →
    let k := t.toNat
    let x := getT s k
    (∀ id, presented s k = some id →
      let p := srcPrio s k id
      let r := reserve s k id
      (getBank r k).resv = some (BitVec.ofNat 10 id, BitVec.ofNat 4 p) ∧
      (x.point = none → x.waiting = false →
        Does (.interruptEntry t) s (setT r k { x with point := some (x.rcount + 64, p), due := true })) ∧
      (∀ n q, x.point = some (n, q) → Does (.interruptEntry t) s (setT r k { x with point := some (n, p), due := true })) ∧
      (∀ v, x.point = none → x.waiting = true → traced s k = false → s.aud.made = [] →
        let z := suspend { x with point := some (x.rcount, p), due := true }
        pushFrame k (frameWords z z.pc (16 + p)) (port z 0xD9 - 64) (setT r k z) = (v, true) → v.aud.made = [] →
        ∃ y, Does (.interruptEntry t) s (setT v k y) ∧
          y.pc = port (getT v k) 0xD8 + BitVec.ofNat 32 (0x40 * (16 + p)) ∧ y.loops = [] ∧ y.run = none ∧ y.waiting = false ∧
          y.entered = true ∧ y.point = none ∧ y.due = false ∧ port y 0xD9 = port z 0xD9 - 64 ∧
          port y 0xDC = BitVec.ofNat 32 (16 + p) ∧ port y 0xDD = 0 ∧ port y 0xDB = 0 ∧
          port y 0xDA = (port (getT v k) 0xDA ||| 1) ∧ (∀ i, i < 32 → port y i = port (getT v k) i))) ∧
    (∀ p, presented s k = none → reservedPrio s k = some p → x.due = true → x.point = none → x.waiting = false →
      Does (.interruptEntry t) s (setT s k { x with point := some (x.rcount + 64, p) }))

/-- R410, R411: the controller presents to a triad the eligible source with the lowest priority number, and of these the lowest
claim ID; none when no source is eligible.
R415: a read of ctl.claim returns the reserved source, else the presented one, else 0x3FF without any change; a source that
it returns is no longer pending, is active, has its priority on top of the triad's stack, and the reservation is over.
R415, R60: a move from ctl.claim to a port that stores what it is given puts there the word that the claim returned.
R416: ctl.eoi pops the triad's priority stack and clears the active bit of the source it names; with nothing to pop, or an
ID that is not active, that half is counted in PIC_ERR instead. No port changes. -/
def Obligations.Claims : Prop :=
  (∀ (s : State) (t : Nat),
      (∀ id, presented s t = some id → id < 544 ∧ eligible s t id = true ∧
        ∀ j, j < 544 → eligible s t j = true →
          srcPrio s t id < srcPrio s t j ∨ (srcPrio s t id = srcPrio s t j ∧ id ≤ j)) ∧
      (presented s t = none → ∀ j, j < 544 → eligible s t j = false)) ∧
  (∀ (s : State) (t : Nat),
      let b := getBank s t
      let c := claim s t
      let source : Option (Nat × Nat) := match b.resv, presented s t with
        | some (id, p), _ => some (id.toNat, p.toNat)
        | none, some id => some (id, srcPrio s t id % 16)
        | none, none => none
      match source with
      | none => c = (0x3FF, s)
      | some (id, p) => id < 544 → c.1 = BitVec.ofNat 32 (id + 4096 * p) ∧
          (getBank c.2 t).stack = BitVec.ofNat 4 p :: b.stack ∧ (getBank c.2 t).resv = none ∧ isActive c.2 t id = true ∧
          (if id < 32 then bit32 (getBank c.2 t).pend id = false else bit512 c.2.pic.pend (id - 32) = false) ∧
          (∀ j, j ≠ id → isActive c.2 t j = isActive s t j) ∧ (∀ j, j ≠ t → getBank c.2 j = getBank s j) ∧
          c.2.triads = s.triads ∧ c.2.csr = s.csr ∧ c.2.mem = s.mem) ∧
  (∀ (t : BitVec 5) (dst : BitVec 8) (s s1 u : State) (m : Move) (v : Word),
      decodeMove (.long (encPort dst.toNat 0xDE 0)) = .ok m → Performs s t.toNat m v u → fetchMove s t.toNat 4 {} {} = .ok s1 →
      portKind dst.toNat = some .rw → dst.toNat < 0xA8 →
      v = (claim s1 t.toNat).1 ∧
      ∃ w, exec (.ctlClaim t dst) s = .next w ∧ MoveFrame u w t.toNat (getT u t.toNat) [dst.toNat] (nextPc u t.toNat m) ∧
        port (getT w t.toNat) dst.toNat = (v &&& portMask dst.toNat)) ∧
  (∀ (t : BitVec 5) (f : MoveForm) (s u : State) (m : Move) (v : Word), Performs s t.toNat m v u → moveOf 0xE0 f = .ok m →
      let id := v.toNat % 1024
      let x := getT u t.toNat
      let e := endOfInterrupt u t.toNat id
      DoesMove (.ctlEoi t f) s e t.toNat x (nextPc u t.toNat m) ∧
        (getBank e t.toNat).stack = (getBank u t.toNat).stack.tail ∧
        (isActive u t.toNat id = true → isActive e t.toNat id = false) ∧
        (∀ j, j ≠ id → isActive e t.toNat j = isActive u t.toNat j) ∧
        ((getBank u t.toNat).stack = [] → getF e PIC_ERR PIC_ERR_EOIEMPTY = min (getF u PIC_ERR PIC_ERR_EOIEMPTY + 1) 0xFF) ∧
        (isActive u t.toNat id = false → getF e PIC_ERR PIC_ERR_EOINACT = min (getF u PIC_ERR PIC_ERR_EOINACT + 1) 0xFF) ∧
        MemSame u e ∧ CardSame u e)

/-- R409, R426, R427, R429: a write of PIC_SSET sets sources 480 to 511 pending, one of PIC_PSET a triad's private sources 16 to 19;
a holding group whose timer falls due, or that meets the limits a write of PIC_MOD sets, releases what is pending in it.
The model's choices: log entries 16, 20. -/
def Obligations.PicCommands : Prop :=
  ∀ (m : BitVec 6) (t g : BitVec 5) (v : Word) (s u : State),
    (Reaches s m.toNat PIC_SSET u → ∃ e, Writes (.picSsetWrite m v) s e ∧
      (∀ n, n < 512 → bit512 e.pic.pend n = (bit512 u.pic.pend n || (decide (480 ≤ n) && v.getLsbD (n - 480)))) ∧
      e.pic.en = u.pic.en ∧ e.pic.act = u.pic.act) ∧
    (Reaches s m.toNat (PIC_PSET (t.toNat / 4) (t.toNat % 4)) u → ∃ e, Writes (.picPsetWrite m t v) s e ∧
      (∀ k, k < 32 → (getBank e t.toNat).pend.getLsbD k =
        ((getBank u t.toNat).pend.getLsbD k || (decide (16 ≤ k ∧ k < 20) && v.getLsbD k))) ∧
      ∀ j, j ≠ t.toNat → getBank e j = getBank u j) ∧
    ((getGroup s g.toNat).hold = true → (getGroup s g.toNat).time ≠ 0 → ∃ e, Does (.moderationTimer g) s e ∧
      getGroup e g.toNat = {} ∧ e.pic.rel = (s.pic.rel ||| (s.pic.pend &&& groupMask g.toNat)) ∧ e.pic.pend = s.pic.pend) ∧
    (Reaches s m.toNat (PIC_MOD g.toNat) u → ∃ e, Writes (.picModWrite m g v) s e ∧
      modCount e g.toNat = bitsOf v.toNat PIC_MOD_MODCOUNT.hi PIC_MOD_MODCOUNT.lo ∧
      getF e (PIC_MOD g.toNat) PIC_MOD_MODTIME = bitsOf v.toNat PIC_MOD_MODTIME.hi PIC_MOD_MODTIME.lo ∧
      e.pic.pend = u.pic.pend ∧
      getGroup e g.toNat = if (getGroup u g.toNat).hold = true ∧ groupDue (plainWrite u (PIC_MOD g.toNat) v) g.toNat = true
        then {} else getGroup u g.toNat)

/-- R234, R235, R325, R326, R386, R443, R449, R467, R531, R553, R590: a read of one word of a wider value returns that word and
latches the rest, which the registers beside it then show.
The model's choices: log entry 45. -/
def Obligations.LatchedReads : Prop :=
  ∀ (m : BitVec 6) (s u : State),
    (Reaches s m.toNat (SUP_FLOGD 0) u → ∃ e, let x := tget (fun _ => 0) u.flog (getF u SUP_FLOGSEL SUP_FLOGSEL_INDEX)
      Reads (.supFlogd0Read m) s (x.setWidth 32) e ∧ ∀ i, 0 < i → i < 4 → (deviceRead e (SUP_FLOGD i)).1 = (x >>> (32 * i)).setWidth 32) ∧
    (∀ t : BitVec 5, let c := t.toNat / 4
      let j := t.toNat % 4
      Reaches s m.toNat (CLV_RCNTLO c j) u → ∃ e, Reads (.clvRcntloRead m t) s (reg u (CLV_RCNTLO c j)) e ∧
        (deviceRead e (CLV_RCNTHI c j)).1 = reg u (CLV_RCNTHI c j) ∧ (deviceRead e (CLV_CHKLO c j)).1 = reg u (CLV_CHKLO c j) ∧
        (deviceRead e (CLV_CHKHI c j)).1 = reg u (CLV_CHKHI c j)) ∧
    (Reaches s m.toNat WS_SEQLO u → ∃ e, Reads (.wsSeqloRead m) s (BitVec.ofNat 32 u.led.next) e ∧
      (deviceRead e WS_SEQHI).1 = BitVec.ofNat 32 (u.led.next / 2 ^ 32)) ∧
    (Reaches s m.toNat WS_SLOTST u → ∃ v e, let n := getF u WS_SLOTSEL WS_SLOTSEL_SLOT
      Reads (.wsSlotstRead m) s v e ∧ v.toNat % 256 = slotState u n ∧
        ∀ x, getW u n = some x → (deviceRead e WS_SLOTTOKHI).1 = x.tid ∧ (deviceRead e WS_SLOTTOKLO).1 = tokenLow x n) ∧
    (Reaches s m.toNat LED_DURSEQLO u → ∃ e, Reads (.ledDurseqloRead m) s (reg u LED_DURSEQLO) e ∧
      (deviceRead e LED_DURSEQHI).1 = reg u LED_DURSEQHI ∧ (deviceRead e LED_FIRSTSLOT).1 = reg u LED_FIRSTSLOT ∧
      (deviceRead e LED_DURSLOT).1 = reg u LED_DURSLOT ∧ ∀ i, i < 8 → (deviceRead e (LED_HEADDIG i)).1 = reg u (LED_HEADDIG i)) ∧
    (∀ (g : BitVec 4) (c : BitVec 3), g.toNat < 9 → let x := getCh u g.toNat c.toNat
      (Reaches s m.toNat (TMR_CNTLO g.toNat c.toNat) u → ∃ e,
        let stale := chEn u g.toNat c.toNat && !chFrozen u g.toNat c.toNat
        let v := if stale then x.stopped else x.count
        Reads (.tmrCntloRead m g c) s (v.setWidth 32) e ∧
          (deviceRead e (TMR_CNTHI g.toNat c.toNat)).1 = BitVec.ofNat 32 (v.toNat / 2 ^ 32 + b2n stale * 2 ^ 31)) ∧
      (Reaches s m.toNat (TMR_CAPLO g.toNat c.toNat) u → ∃ e, Reads (.tmrCaploRead m g c) s (x.cap.setWidth 32) e ∧
        (deviceRead e (TMR_CAPHI g.toNat c.toNat)).1 = BitVec.ofNat 32 (x.cap.toNat / 2 ^ 32) ∧
        flag e (TMR_FLAGS g.toNat c.toNat) TMR_FLAGS_CAPF = false)) ∧
    (Reaches s m.toNat RTC_SUB u → ∃ e, Reads (.rtcSubRead m) s (u.rtc.copySub.setWidth 32) e ∧
      (deviceRead e RTC_SNAPLO).1 = u.rtc.copySec.setWidth 32 ∧ (deviceRead e RTC_SNAPHI).1 = (u.rtc.copySec >>> 32).setWidth 32) ∧
    (Reaches s m.toNat HB_PTMLO u → ∃ e, Reads (.hbPtmloRead m) s (u.hostFn.ptmTime.setWidth 32) e ∧
      (deviceRead e HB_PTMHI).1 = (u.hostFn.ptmTime >>> 32).setWidth 32 ∧ (deviceRead e HB_PTMSEC).1 = u.hostFn.ptmSec ∧
      (deviceRead e HB_PTMSUB).1 = u.hostFn.ptmSub.setWidth 32) ∧
    (∀ p : BitVec 1, let i := getF u (ETH_PEERSEL p.toNat) ETH_PEERSEL_ENTRY
      Reaches s m.toNat (ETH_PEERST p.toNat) u → ∃ v e, Reads (.ethPeerstRead m p) s v e ∧
        (tget (fun _ => none) u.net.peers (256 * p.toNat + i) = none → v = 0 ∧ (deviceRead e (ETH_PEERMACLO p.toNat)).1 = 0) ∧
        ∀ x, tget (fun _ => none) u.net.peers (256 * p.toNat + i) = some x → v.getLsbD 31 = true ∧ v.getLsbD 30 = x.v6 ∧
          v.setWidth 16 = x.rport ∧ (deviceRead e (ETH_PEERMACLO p.toNat)).1 = wireWord (beBytes 6 x.mac.toNat) 0 ∧
          (deviceRead e (ETH_PEERMACHI p.toNat)).1 = wireWord (beBytes 6 x.mac.toNat) 1) ∧
    (Reaches s m.toNat (TMP_LOGD 0) u → ∃ e, let x := tamperEntry u
      Reads (.tmpLogd0Read m) s (x.setWidth 32) e ∧ ∀ i, 0 < i → i < 4 → (deviceRead e (TMP_LOGD i)).1 = (x >>> (32 * i)).setWidth 32)

/-! ### Timers -/

/-- R438, R439, R445, R447, R448, R450 to R453, R457: what a kernel edge, a capture, a level at the capture input and an event at a
link in use do to a channel of a timer group. A step raises the match before the overflow; a wrap is a reload point and ends a
ONESHOT. A link of a channel with a kernel clock of its own accepts its event and acts at the next edge of that clock, link 0
before link 1; a RESTART wins over the step that would wrap the count. Any other link acts at once. An event is lost while the link
still accepts one, and in RET.
R439 to R442, R444, R446, R448, R450, R454: what the registers of a timer group and of a channel do when they are written. A write
that EN = 1 forbids sets WERR.
The model's choices: log entries 32, 73, 85, 86. -/
def Obligations.Timers : Prop :=
  (∀ (g : BitVec 4) (c : BitVec 3) (s : State), g.toNat < 9 →
      let a := g.toNat
      let b := c.toNat
      let x := getCh s a b
      let y := setCh s a b { x with busy0 := false, busy1 := false }
      let r := kernelStep y a b
      let z := getCh r.1 a b
      let own := decide (chCksel s a b < 5)
      (own = true → kernelRuns s a b = false → Does (.kernelEdge g c) s s) ∧
      (own = true → kernelRuns s a b = true → x.busy0 = false → x.busy1 = false →
        Does (.kernelEdge g c) s (busAll r) ∧
        (stepDue s a b = true → nextCount x = x.cmp → Does (.timerMatch g c) s (busAll r)) ∧
        (stepDue s a b = true → wraps x = true → Does (.timerOverflow g c) s (busAll r))) ∧
      (own = true → kernelRuns s a b = true →
        (∀ k : BitVec 1, linkBusy x k.toNat = true → linkBusy x (1 - k.toNat) = false → actOf s a b k.toNat = 1 → chEn s a b = true →
          ∃ e, Does (.kernelEdge g c) s e ∧ (getCh e a b).count = 0 ∧ (getCh e a b).acc = 0 ∧
            (wrapDue s a b = true → flag e (TMR_FLAGS a b) TMR_FLAGS_OVFF = flag s (TMR_FLAGS a b) TMR_FLAGS_OVFF)) ∧
        (x.busy0 = true → x.busy1 = true → actOf s a b 0 = 3 → actOf s a b 1 = 2 →
          ∃ e, Does (.kernelEdge g c) s e ∧ gateOpen e a b = true)) ∧
      (counting s a b = true → x.acc + 256 < divisor x → z.acc = x.acc + 256 ∧ z.count = x.count ∧ r.2 = [] ∧ r.1.csr = s.csr) ∧
      (counting s a b = true → divisor x ≤ x.acc + 256 →
        z.acc = x.acc + 256 - divisor x ∧ z.count = (if wraps x then 0 else x.count + 1) ∧
        (nextCount x = x.cmp → flag r.1 (TMR_FLAGS a b) TMR_FLAGS_MATCHF = true ∧ (16 * a + 2 * b) ∈ r.1.evq) ∧
        (wraps x = true → flag r.1 (TMR_FLAGS a b) TMR_FLAGS_OVFF = true ∧ (16 * a + 2 * b + 1) ∈ r.1.evq ∧
          z.top = x.topNext.getD x.top ∧ z.cmp = x.cmpNext.getD x.cmp ∧ z.psc = reg s (TMR_PSC a b) ∧
          (flag s (TMR_CTRL a b) TMR_CTRL_ONESHOT = true → chEn r.1 a b = false)) ∧
        (nextCount x ≠ x.cmp → wraps x = false → r.2 = [] ∧ r.1.csr = s.csr)) ∧
      (clocked s (tgDomain a) = true → flag s (TMR_CAPCTL a b) TMR_CAPCTL_CAPEN = true →
        getF s (TMR_CAPCTL a b) TMR_CAPCTL_EPSC ≤ x.edges → ∃ e, Does (.timerCapture g c) s e ∧
        (getCh e a b).cap = x.count ∧ (getCh e a b).edges = 0 ∧ flag e (TMR_FLAGS a b) TMR_FLAGS_CAPF = true ∧
        (flag s (TMR_FLAGS a b) TMR_FLAGS_CAPF = true → flag e (TMR_FLAGS a b) TMR_FLAGS_OVR = true)) ∧
      (∀ level, let q := acceptLevel s a b level
        (samples s a b = true → Does (.linkFollow g c level) s (busAll q)) ∧
        (samples s a b = false → Does (.linkFollow g c level) s s) ∧
        (getCh q.1 a b).ti = level ∧ (follows s a b = true → gateOpen q.1 a b = level) ∧
        q.2.length = (if x.ti ≠ level ∧ edgeCounts s a b level = true then 1 else 0)) ∧
      (∀ k : BitVec 1, linkUsed s a b k.toNat = true →
        (clocked s (tgDomain a) = true → linkBusy x k.toNat = false → own = true →
          ∀ p ∈ [(1, Instr.linkRestart g c k), (2, .linkOpen g c k), (3, .linkShut g c k), (4, .linkArm g c k)],
            actOf s a b k.toNat = p.1 → ∃ e, Does p.2 s e ∧ linkBusy (getCh e a b) k.toNat = true ∧
              (getCh e a b).count = x.count ∧ (getCh e a b).gate = x.gate ∧ e.csr = s.csr) ∧
        (clocked s (tgDomain a) = true → linkBusy x k.toNat = false → own = false →
          (actOf s a b k.toNat = 1 → ∃ e, Does (.linkRestart g c k) s e ∧
            (chEn s a b = true → (getCh e a b).count = 0 ∧ (getCh e a b).acc = 0)) ∧
          (actOf s a b k.toNat = 2 → ∃ e, Does (.linkOpen g c k) s e ∧ (follows s a b = false → gateOpen e a b = true)) ∧
          (actOf s a b k.toNat = 3 → ∃ e, Does (.linkShut g c k) s e ∧ (follows s a b = false → gateOpen e a b = false)) ∧
          (actOf s a b k.toNat = 4 → ∃ e, Does (.linkArm g c k) s e ∧ chEn e a b = true ∧
            (chEn s a b = false → (getCh e a b).acc = 0))) ∧
        (domState s (tgDomain a) = 1 ∨ (clocked s (tgDomain a) = true ∧ linkBusy x k.toNat = true) → actOf s a b k.toNat = 1 →
          Does (.linkRestart g c k) s (setFlag s (TMR_FLAGS a b) TMR_FLAGS_LINKLOST true)))) ∧
  (∀ (m : BitVec 6) (g : BitVec 4) (c : BitVec 3) (v : Word) (w : BitVec 8) (s u : State), g.toNat < 9 →
      let a := g.toNat
      let b := c.toNat
      let x := getCh u a b
      let at_ (r : Nat → Nat → Nat) : Prop := Reaches s m.toNat (r a b) u
      let werrs (e : State) : Prop := flag e (TMR_FLAGS a b) TMR_FLAGS_WERR = true
      (Reaches s m.toNat (TG_GCTL a) u →
        (∃ e, Writes (.tgStart m g w) s e ∧ ∀ i, i < 8 → chEn e a i = (chEn u a i || w.getLsbD i) ∧
          (w.getLsbD i = true → chEn u a i = false → (getCh e a i).acc = 0 ∧ (getCh e a i).gate = true)) ∧
        (∃ e, Writes (.tgStop m g w) s e ∧ ∀ i, i < 8 → chEn e a i = (chEn u a i && !w.getLsbD i) ∧
          (w.getLsbD i = true → chEn u a i = true → (getCh e a i).stopped = (getCh u a i).count))) ∧
      (at_ TMR_KICK → (∃ e, Writes (.tmrKickZero m g c) s e ∧ let z := getCh e a b
          z.count = 0 ∧ z.acc = 0 ∧ z.top = x.topNext.getD x.top ∧ z.cmp = x.cmpNext.getD x.cmp ∧ z.psc = reg u (TMR_PSC a b)) ∧
        ∃ e, Writes (.tmrKickSnap m g c) s e ∧ (getCh e a b).cap = x.count ∧ flag e (TMR_FLAGS a b) TMR_FLAGS_CAPF = true) ∧
      (at_ TMR_CNTHI → ∃ e, Writes (.tmrCnthiWrite m g c v) s e ∧
        if chEn u a b then werrs e ∧ getCh e a b = x else (getCh e a b).count = wide x.cntLo v) ∧
      (at_ TMR_TOPHI → ∃ e, Writes (.tmrTophiWrite m g c v) s e ∧ if preloads u a b
        then (getCh e a b).topNext = some (wide x.topLo v) ∧ (getCh e a b).top = x.top else (getCh e a b).top = wide x.topLo v) ∧
      (at_ TMR_CMPHI → ∃ e, Writes (.tmrCmphiWrite m g c v) s e ∧ if preloads u a b
        then (getCh e a b).cmpNext = some (wide x.cmpLo v) ∧ (getCh e a b).cmp = x.cmp else (getCh e a b).cmp = wide x.cmpLo v) ∧
      (at_ TMR_PSC → ∃ e, Writes (.tmrPscWrite m g c v) s e ∧ bitsOf (reg e (TMR_PSC a b)).toNat 23 0 = bitsOf v.toNat 23 0 ∧
        (getCh e a b).psc = if chEn u a b then x.psc else reg e (TMR_PSC a b)) ∧
      (at_ TMR_LINK → ∃ e, Writes (.tmrLinkWrite m g c v) s e ∧ if chEn u a b
        then werrs e ∧ reg e (TMR_LINK a b) = reg u (TMR_LINK a b)
        else getF e (TMR_LINK a b) TMR_LINK_SRC0 = bitsOf v.toNat TMR_LINK_SRC0.hi TMR_LINK_SRC0.lo ∧
          linkAct e a b 0 = bitsOf v.toNat TMR_LINK_ACT0.hi TMR_LINK_ACT0.lo ∧
          (6 ≤ bitsOf v.toNat TMR_LINK_ACT0.hi TMR_LINK_ACT0.lo → werrs e)) ∧
      (at_ TMR_CTRL → ∃ e, Writes (.tmrCtrlWrite m g c v) s e ∧ chEn e a b = v.getLsbD 0 ∧
        flag e (TMR_CTRL a b) TMR_CTRL_ONESHOT = v.getLsbD 4 ∧ flag e (TMR_CTRL a b) TMR_CTRL_PRELOAD = v.getLsbD 2 ∧
        chCksel e a b = (if chEn u a b then chCksel u a b else bitsOf v.toNat 15 12) ∧
        (chEn u a b = true → bitsOf v.toNat 15 12 ≠ chCksel u a b → werrs e) ∧ (7 ≤ bitsOf v.toNat 15 12 → werrs e)) ∧
      (at_ TMR_IEN → ∃ e, Writes (.tmrIenWrite m g c v) s e ∧ ∀ i, i < 3 → v.getLsbD i = true →
        (reg u (TMR_FLAGS a b)).getLsbD i = true → if a = 8 then bit512 e.pic.pend (128 + b) = true
          else ∀ j, j < 4 → bit32 (getBank e (4 * a + j)).pend (8 + b) = true) ∧
      (at_ TMR_CAPCTL → ∃ e, Writes (.tmrCapctlWrite m g c v) s e ∧ flag e (TMR_CAPCTL a b) TMR_CAPCTL_CAPEN = v.getLsbD 20 ∧
        (flag u (TMR_CAPCTL a b) TMR_CAPCTL_CAPEN = false → v.getLsbD 20 = true → (getCh e a b).edges = 0)))

/-! ### Weft, tally, ledger, crypto, draw -/

/-- R298 to R313: what moves a transaction on. WS_CTRL.EN starts the sequencer when the context area fits; a READY or STALE notice of
the START class makes a token in slot TID mod WS_MAXFLIGHT; a stage that may go is dispatched, with COMMITTED set at a commit
stage; a result in time stores its words and selects the next stage by its code. -/
def Obligations.WeftProgress : Prop :=
  ∀ (s u : State) (m : BitVec 6) (v : Word) (up : QueueUpset) (slot : BitVec 16) (x : WSlot),
    (Reaches s m.toNat WS_CTRL u → ∃ e, Writes (.wsCtrlEnWrite m v) s e ∧ flag e WS_CTRL WS_CTRL_HOLD = v.getLsbD 1 ∧
      (v.getLsbD 0 = false → flag e WS_CTRL WS_CTRL_EN = false ∧ flag e WS_STATUS WS_STATUS_RUN = false) ∧
      (v.getLsbD 0 = true → flag u WS_CTRL WS_CTRL_EN = false → if ctxAreaOk u
        then flag e WS_CTRL WS_CTRL_EN = true ∧ flag e WS_STATUS WS_STATUS_RUN = true
        else flag e WS_CTRL WS_CTRL_EN = false ∧ flag e WS_STATUS WS_STATUS_CTXERR = true)) ∧
    (weftRuns s = true → flag s WS_CTRL WS_CTRL_HOLD = false → flag s WS_STATUS WS_STATUS_STOPPED = false →
      getW s (nextSlot s) = none → qeReady s = true → qeRoute s (masterRouter 33) = true → startClass s < 64 →
      let (w, tag, h) := popCore (heldAccess s 2) (startQueue (heldAccess s 2)) 65 up
      tag.getLsbD 0 = true → tag.getLsbD 2 = false → tag.getLsbD 3 = false → w.toNat < 2 ^ 31 →
      let n := nextSlot h
      ctxLost h n = false →
      let y : WSlot := { tid := reg h WS_TIDNEXT, stage := BitVec.ofNat 8 (startStage h), next := BitVec.ofNat 8 (startStage h) }
      ∃ e, Does (.tokenCreate up) s e ∧ getW e n = some y ∧ reg e WS_TIDNEXT = reg h WS_TIDNEXT + 1 ∧
        TMsg.begin n y.tid ∈ e.weft.msgs ∧ ctxWord e n 0 = y.tid ∧ ctxWord e n 1 = tokenLow y n ∧
        (ctxWord e n 2).toNat = w.toNat % 2 ^ 20 ∧ ∀ i, 3 ≤ i → i < 32 → ctxWord e n i = 0) ∧
    (∀ input, getW s slot.toNat = some x → weftRuns s = true → qeReady s = true → qeRoute s (masterRouter 33) = true →
      x.phase = .waiting → x.next ≠ 0xFF →
      let i := x.next.toNat
      stageReady s slot.toNat x i = true → stageInput s slot.toNat i = some input →
      5 + stageNarg s i + (if stageFlag s i 1 then 2 else 0) ≤ roomOf s (dispatchQueue s i) →
      ∃ e, Does (.stageDispatch slot) s e ∧
        getW e slot.toNat = some { x with stage := x.next, result := 0, phase := .dispatched, outstanding := true,
                                          outEpoch := x.epoch, restored := false,
                                          committed := x.committed || stageFlag s i 1 } ∧
        (stageFlag s i 1 = true → TMsg.commit slot.toNat x.tid ∈ e.weft.msgs ∧ e.led.next = (s.led.next + 1) % 2 ^ 64)) ∧
    (weftRuns s = true → pktReady s (masterRouter 33) 0xFF010 = true →
      let (p, h) := popPacket s (masterRouter 33) 0xFF010 up
      2 ≤ p.words.length → p.words.length ≤ 14 → p.bad = false →
      let lo := p.words.getD 1 0
      let n := lo.toNat % 2 ^ 16
      let k := lo.toNat / 2 ^ 22 % 4
      let next := stageNext h x.stage.toNat k
      getW h n = some x → resultMatches x n (p.words.getD 0 0) lo = true → x.phase = .dispatched → next ≠ 0xFF →
      x.committed = stageFlag h next.toNat 2 →
      ∃ e, Does (.stageResult up) s e ∧
        getW e n = some { x with result := BitVec.ofNat 2 k, phase := .waiting, next := next, outstanding := false })

/-- R314 to R319: what takes a transaction back. A stage timer ends a committed one and aborts another with TIMEOUT; an aborting
one discards its intake packet in its turn and ends; a reader that the tally engine reports is rewound to its checkpoint
stage with the next EPOCH, once however often it is reported before that stage goes, or aborts without a checkpoint for the
stage. -/
def Obligations.WeftEndings : Prop :=
  ∀ (s : State) (up : QueueUpset) (slot : BitVec 16) (x : WSlot),
    let n := slot.toNat
    (getW s n = some x → weftRuns s = true → x.outstanding = true → x.phase = .dispatched →
      ∃ e, Does (.stageTimeout slot) s e ∧
        (x.committed = true → getW e n = none ∧ TMsg.fin n x.tid ∈ e.weft.msgs) ∧
        (x.committed = false → TMsg.abort n x.tid ∈ e.weft.msgs ∧
          getF e (WS_ABT 2) WS_ABT_COUNT = min (getF s (WS_ABT 2) WS_ABT_COUNT + 1) (2 ^ 32 - 1) ∧
          (getW e n = none ∨ ∃ y, getW e n = some y ∧ y.phase = .aborting ∧ y.result = 3 ∧ y.outstanding = false))) ∧
    (getW s n = some x → domOn s 3 = true → qeReady s = true → qeRoute s (masterRouter 33) = true → x.phase = .aborting → ctxLost s n = false →
      ctxConsumed s n = false → intakeTurn s n x = true → ∃ e, Does (.intakePacketDiscard slot up) s e ∧
        (x.outstanding = false → getW e n = none ∧ TMsg.fin n x.tid ∈ e.weft.msgs) ∧
        (x.outstanding = true → getW e n = some x ∧ ctxConsumed e n = true)) ∧
    (∀ (r : Report) (rest : List Report), s.tly.reports = r :: rest → domOn s 3 = true → safeHalt s = false →
      getW s r.slot = some x → x.tid = r.tid → x.committed = false → x.phase ≠ .aborting → ctxLost s r.slot = false →
      ∃ e, Does .readerReport s e ∧ e.tly.reports = rest ∧
        (ctxCkValid s r.slot = true → ctxCkStage s r.slot = r.stage →
          TMsg.rewind r.slot x.tid (x.epoch + 1) r.root ∈ e.weft.msgs ∧
          (x.phase ≠ .rewinding → x.restored = false → OneMore s e WS_REWIND WS_REWIND_COUNT) ∧
          (x.phase = .rewinding ∨ x.restored = true → getF e WS_REWIND WS_REWIND_COUNT = getF s WS_REWIND WS_REWIND_COUNT) ∧
          ∃ y, getW e r.slot = some y ∧ y.epoch = x.epoch + 1 ∧ y.rewound = true ∧ y.result = 0 ∧ y.tid = x.tid ∧
            (x.restored = true → x.phase = .waiting → y.phase = .waiting ∧ y.next = x.next) ∧
            (x.restored = false → (x.outstanding = true → y.phase = .rewinding) ∧
              (x.outstanding = false → y.phase = .waiting ∧ y.next = r.stage ∧ y.restored = true))) ∧
        (ctxCkValid s r.slot = false ∨ ctxCkStage s r.slot ≠ r.stage → TMsg.abort r.slot x.tid ∈ e.weft.msgs ∧
          getF e (WS_ABT 7) WS_ABT_COUNT = min (getF s (WS_ABT 7) WS_ABT_COUNT + 1) (2 ^ 32 - 1)))

/-- R331, R332, R339, R342 to R344: what each message of the sequencer does, before what was parked goes on. COMMIT adds the
transaction's deltas to the committed values; ABORT and REWIND discard them; all but HEAD act on the slot of that TID only.
The model's choices: log entry 22. -/
def Obligations.TallyMessages : Prop :=
  ∀ (s : State) (slot : Nat) (x : Word) (p root : Option Word) (ep : BitVec 4) (rest : List TMsg) (t : TSlot), domOn s 3 = true →
    let is (m : TMsg) : Prop := s.weft.msgs = m :: rest
    let after (e : State) : State := tallyDone { e with weft := { e.weft with msgs := rest } }
    (is (.begin slot x) → ∃ e, Does .tallyBegin s (after e) ∧ getTSlot e slot = some { tid := x }) ∧
    (is (.head p) → ∃ e, Does .tallyHead s (after e) ∧ e.tly.head = p) ∧
    (getTSlot s slot = some t → t.tid = x →
      (is (.commit slot x) → s.wf = true → ∃ e, Does .tallyCommit s (after e) ∧
        getTSlot e slot = some { t with committed := true } ∧ (∀ r ∈ e.tly.reads, r.tid ≠ x) ∧
        ∀ k, (getTally e k).c = (getTally s k).c + (deltaOf (getTally s k) x).getD 0 ∧ deltaOf (getTally e k) x = none ∧
          (getTally e k).limit = (getTally s k).limit) ∧
      (is (.abort slot x) → ∃ e, Does .tallyAbort s (after e) ∧ parkedOf e slot = 0 ∧ (∀ r ∈ e.tly.reads, r.tid ≠ x) ∧
        ∃ y, getTSlot e slot = some y ∧ y.aborted = true ∧ y.tid = x) ∧
      (is (.rewind slot x ep root) → ∃ e, Does .tallyRewind s (after e) ∧ parkedOf e slot = 0 ∧ (∀ r ∈ e.tly.reads, r.tid ≠ x) ∧
        ∃ y, getTSlot e slot = some y ∧ y.epoch = ep ∧ y.held = false ∧ y.tid = x) ∧
      (is (.fin slot x) → ∃ e, Does .tallyEnd s (after e) ∧ getTSlot e slot = none ∧ parkedOf e slot = 0))

/-- R329, R330, R334, R335, R337: a well-formed request of a transaction that is not stale is performed. A read answers OK with the
sum, or the committed value; an ADD beyond the limit answers OVER with the unchanged sum; one within it takes its delta and
answers OK. R346, R348: loads, OPEN, the selected tally's snapshot.
R346, R348, R352: a load sets a tally's committed value and writes a TALLYLOAD record, or is refused once OPEN or with a bad
digit; OPEN is set by writing 1; a write of TLY_SEL shows the selected tally.
The model's choices: log entry 22. -/
def Obligations.TallyRequests : Prop :=
  (∀ (s : State) (up : QueueUpset), tallyRuns s = true → flag s TLY_CTRL TLY_CTRL_OPEN = true → s.weft.msgs = [] →
      pktReady s (masterRouter 34) 0xFF200 = true → 4 ≤ peekLen s 0xFF200 →
      let front := (peekAt s 0xFF200 3).toNat / 2 ^ 28
      let (p, h) := popPacket s (masterRouter 34) 0xFF200 up
      let r : TReq := { slot := (p.words.getD 1 0).toNat % 65536, words := p.words }
      let k := reqTally r
      let T := getTally h k
      let S := specSum T (reqTid r)
      4 ≤ p.words.length → p.bad = false → tallyStale h r = false → parkedOf h r.slot = 0 → T.en = true → recordShort h r = false →
      reqOp r = front → bitsOf (p.words.getD 3 0).toNat 27 16 = 0 →
      (front = 2 → p.words.length = 4 →
        Does (.tallyReadspec up) s (tallyDone (tallyAnswer (makeRecord h r) r 0 (tallyWords S)))) ∧
      (front = 3 → p.words.length = 4 → Does (.tallyReadcomm up) s (tallyDone (tallyAnswer h r 0 (tallyWords T.c)))) ∧
      (front = 1 → p.words.length = 8 →
        let d := (p.words.drop 4).take 4
        let v := tallyValue d
        let beyond := (T.limit : Int) < S + v ∨ S + v < -(T.limit : Int) ∨ S + v < -(5 * 10 ^ 31) ∨ 5 * 10 ^ 31 ≤ S + v
        d.all digitsOk = true → reqCommitted h r = false → (deltaOf T (reqTid r) = none → deltaCount h (reqTid r) < 16) →
        (beyond → Does (.tallyAdd up) s (tallyDone (tallyAnswer (makeRecord h r) r 1 (tallyWords S)))) ∧
        (¬ beyond → (deltaOf T (reqTid r) = none → T.deltas.length < 8) → nextReader h (reqTid r) k = none →
          ∃ e, Does (.tallyAdd up) s (tallyDone (tallyAnswer e r 0 (tallyWords (specSum (getTally e k) (reqTid r))))) ∧
            deltaOf (getTally e k) (reqTid r) = some ((deltaOf T (reqTid r)).getD 0 + v) ∧ (getTally e k).c = T.c ∧
            ∀ j, j ≠ k → getTally e j = getTally h j))) ∧
  (∀ (s u : State) (m : BitVec 6) (v : Word),
      (Reaches s m.toNat TLY_LDCMD u → v.getLsbD 31 = true →
        (flag u TLY_CTRL TLY_CTRL_OPEN = true ∨ (loadWords u).all digitsOk = false →
          Writes (.tlyLdcmdGo m v) s (setFlag u TLY_STATUS TLY_STATUS_LDREFUSED true)) ∧
        (flag u TLY_CTRL TLY_CTRL_OPEN = false → (loadWords u).all digitsOk = true → ledgerAccepts u = true →
          let k := getF u TLY_LDIDX TLY_LDIDX_TALLY
          let e := setFlag (setTally u k { getTally u k with c := tallyValue (loadWords u) }) TLY_STATUS TLY_STATUS_LDBUSY true
          Writes (.tlyLdcmdGo m v) s (acceptRecord e (loadBody k (loadWords u)) .load))) ∧
      (Reaches s m.toNat TLY_CTRL u → v.getLsbD 0 = true → ∃ e, Writes (.tlyCtrlOpen m v) s e ∧
        flag e TLY_CTRL TLY_CTRL_OPEN = true ∧ flag e TLY_STATUS TLY_STATUS_OPEN = true) ∧
      (Reaches s m.toNat TLY_SEL u → ∃ e, Writes (.tlySelWrite m v) s e ∧ getF e TLY_SEL TLY_SEL_TALLY = v.toNat % 65536 ∧
        let t := getTally u (v.toNat % 65536)
        ∀ i, i < 4 → reg e (TLY_COMM i) = (tallyWords t.c).getD i 0 ∧ reg e (TLY_LIM i) = (tallyWords (t.limit : Int)).getD i 0))

/-- R349, R353, R357 to R369: a commit request gives its number the record it spells, or a VOID record with the reason; a HEAD
request reads the durable head; a record is chained, its slot written from byte 8 on and then its commit word, and the head
passes it; a cairn is signed, slot B written before slot A, and counted with its commit word, also where it has no key.
R371 to R374: an acknowledgement frees slots and leaves an anchor to write, one of the past or of what is not durable is refused;
the anchor's copies alternate; the drain DMA copies durable slots (the whole ring without an anchor), and over a failed route
ends without them; a power failure runs the sequence and ends in the power-on reset, with what the card does not keep
cleared.
The model's choices: log entries 27, 40, 60, 71, 83, 84. -/
def Obligations.LedgerCommands : Prop :=
  (∀ (s : State) (up vp : QueueUpset) (e : Resv),
      (ledgerAccepts s = true → pktReady s (masterRouter 35) 0xFF300 = true → directFront s 0xFF300 = false →
        let (p, h) := popPacket s (masterRouter 35) 0xFF300 up
        let lo := p.words.getD 1 0
        let w2 := p.words.getD 2 0
        let q := w2.toNat % 2 ^ 20
        let (body, k) := if w2.getLsbD 20 then popPacket h (masterRouter 35) q vp else (packetOf [], h)
        (5 ≤ p.words.length → p.lastBad = false →
          (h.led.resv.find? (fun e => awaits .commit e && e.seq == packetSeq p.words) = some e →
            (∀ b, requestBody p e.tid (w2.getLsbD 20) body = .ok b →
              Does (.ledgerCommit up vp) s (giveBody k e.seq b (.weft e.tid lo))) ∧
            (∀ r, requestBody p e.tid (w2.getLsbD 20) body = .error r →
              Does (.ledgerCommit up vp) s (giveBody k e.seq (voidBody e.tid r) (.weft e.tid lo)))) ∧
          (h.led.resv.find? (fun e => awaits .commit e && e.seq == packetSeq p.words) = none →
            Does (.ledgerCommit up vp) s (incSat h LED_REQERR LED_REQERR_FORGED 1))) ∧
        (p.words ≠ [] → h.led.resv.find? (awaits .commit) = some e →
          (p.words.length < 5 → Does (.ledgerCommit up vp) s (giveBody h e.seq (voidBody e.tid 2) (.weft e.tid lo))) ∧
          (5 ≤ p.words.length → p.lastBad = true →
            Does (.ledgerCommit up vp) s (giveBody h e.seq (voidBody e.tid 3) (.weft e.tid lo))))) ∧
      (safeHalt s = false → pktReady s (masterRouter 35) 0xFF300 = true → directFront s 0xFF300 = true →
        let (p, h) := popPacket s (masterRouter 35) 0xFF300 up
        p.bad = false → (p.words.getD 3 0).toNat / 2 ^ 28 = 2 →
        Does (.ledgerHead up) s (pushPacket h (masterRouter 35) (0xFF340 + bitsOf (p.words.getD 2 0).toNat 28 24)
          ([p.words.getD 0 0, p.words.getD 1 0, 0x20000000, reg h LED_DURSEQLO, reg h LED_DURSEQHI] ++
            (List.range 8).map (fun i => reg h (LED_HEADDIG i))))) ∧
      (∀ b, s.led.resv.find? (fun e => !e.cairn && !e.written) = some e → e.body = some b →
        let r := recordBytes e.seq e.time b
        let d := sha256 (s.led.chain ++ r)
        let w := writeRecord s
        Does .recordDurable s (advanceAll w) ∧
        (e.todo = [] → w.led.chain = s.led.chain ∧
          (∀ i, 8 ≤ i → i < (r ++ d).length → getByte w (slotAddr e.slot + i) = (r ++ d).getD i 0) ∧
          (∀ i, i < 8 → getByte w (slotAddr e.slot + i) = getByte s (slotAddr e.slot + i)) ∧
          ∃ x ∈ w.led.resv, x.seq = e.seq ∧ x.digest = d ∧ x.todo = [(slotAddr e.slot, (r ++ d).take 8)]) ∧
        (∀ a l, e.todo = [(a, l)] → w.led.chain = e.digest ∧
          (∀ i, i < l.length → getByte w (a + i) = l.getD i 0) ∧
          (s.led.resv = [e] → reg (advanceAll w) LED_DURSEQLO = BitVec.ofNat 32 e.seq ∧
            reg (advanceAll w) LED_DURSEQHI = BitVec.ofNat 32 (e.seq / 2 ^ 32)))) ∧
      (∀ bad, s.led.resv.find? (fun e => e.cairn && !e.written && !e.digest.isEmpty) = some e →
        let (key, k) := useKey s 0 bad
        let b := cairnBytes k e key
        let w := signCairn s bad
        Does (.cairnSigned bad) s (advanceAll w) ∧
        (e.todo = [] →
          (∀ i, 128 + i < b.length → getByte w (slotAddr (e.slot + 1) + i) = b.getD (128 + i) 0) ∧
          (∀ i, i < 128 → slotAddr e.slot ≠ slotAddr (e.slot + 1) →
            (b.length ≤ 256 → getByte w (slotAddr e.slot + i) = getByte s (slotAddr e.slot + i))) ∧
          ∃ x ∈ w.led.resv, x.cairn = true ∧ x.todo = slotParts (slotAddr e.slot) (b.take 128)) ∧
        (∀ l, e.todo = [(slotAddr e.slot, l)] → l.length = 8 →
          (∀ i, i < 8 → getByte w (slotAddr e.slot + i) = l.getD i 0) ∧
          OneMore s w LED_CAIRNCNT LED_CAIRNCNT_COUNT ∧
          ((getByte s (slotAddr e.slot + 22)).toNat = 1 → OneMore s w LED_CAIRNCNT LED_CAIRNCNT_NOKEY) ∧
          ((getByte s (slotAddr e.slot + 22)).toNat ≠ 1 →
            getF w LED_CAIRNCNT LED_CAIRNCNT_NOKEY = getF s LED_CAIRNCNT LED_CAIRNCNT_NOKEY) ∧
          ∀ x ∈ w.led.resv, x.cairn = true → x.seq = e.seq → x.written = true))) ∧
  (∀ (s u : State) (m : BitVec 6) (v : Word),
      (Reaches s m.toNat LED_ACKHI u → let S := u.led.ackLo.toNat + 2 ^ 32 * v.toNat
        flag u LED_STATUS LED_STATUS_PFAIL = false → ∃ e, Writes (.ledAckhiWrite m v) s e ∧
        (S < u.led.acked → (getF u LED_ACKERR LED_ACKERR_OLD < 0xFFFF → bit512 e.pic.pend 67 = true) ∧
          e.led = u.led ∧ OneMore u e LED_ACKERR LED_ACKERR_OLD) ∧
        (u.led.acked ≤ S → (durableNext u ≤ S ∨ ∃ x ∈ u.led.resv, x.cairn = true ∧ x.seq = S) →
          (getF u LED_ACKERR LED_ACKERR_AHEAD < 0xFFFF → bit512 e.pic.pend 67 = true) ∧
          e.led = u.led ∧ OneMore u e LED_ACKERR LED_ACKERR_AHEAD) ∧
        (u.led.acked ≤ S → S < durableNext u → (∀ x ∈ u.led.resv, x.cairn = true → x.seq ≠ S) →
          e.led.acked = S + 1 ∧ reg e LED_ACKLO = u.led.ackLo ∧ reg e LED_ACKHI = v ∧ flag e LED_STATUS LED_STATUS_ANCHORPEND = true ∧
          ∃ a, e.led.anchor = some a ∧ a.seq = S + 1)) ∧
      (∀ a, s.led.anchor = some a → ∃ e, Does .anchorDurable s e ∧ flag e LED_STATUS LED_STATUS_ANCHORPEND = false ∧
        e.led.anchor = none ∧ e.led.copy = 1 - s.led.copy ∧ e.led.freed = 0 ∧
        ∀ i, i < (anchorBytes a).length → getByte e (0x33100100 + 0x40 * s.led.copy + i) = (anchorBytes a).getD i 0) ∧
      (Reaches s m.toNat LED_DMACTL u → v.getLsbD 31 = true → flag u LED_DMACTL LED_DMACTL_BUSY = false →
        flag u LED_STATUS LED_STATUS_PFAIL = false → ∃ e, Writes (.drainDmaGo m v) s e ∧
        let slot := getF u LED_DMASLOT LED_DMASLOT_SLOT
        let n := getF u LED_DMACNT LED_DMACNT_COUNT
        let bad := n = 0 ∨ 65536 < n ∨ ringSize ≤ slot ∨
          (if flag u LED_RECOV LED_RECOV_NOANCHOR then ringSize else durableSlots u) < (slot + ringSize - getF u LED_FIRSTSLOT LED_FIRSTSLOT_SLOT) % ringSize + n
        (bad → flag e LED_DMACTL LED_DMACTL_ERR = true ∧ e.led = u.led) ∧
        (¬ bad → flag e LED_DMACTL LED_DMACTL_BUSY = true ∧ ∃ j, e.led.job = some j ∧ j.slot = slot ∧ j.count = n)) ∧
      (∀ j, s.led.job = some j → ∃ e, Does .drainDmaDone s e ∧ flag e LED_DMACTL LED_DMACTL_BUSY = false ∧ e.led.job = none ∧
        (routeFailed s (masterRouter 35) (masterRouter 36) = false → flag e LED_DMACTL LED_DMACTL_DONE = true ∧
          Output.hostWrite j.host (ringBytes s j.count j.slot) ∈ e.out) ∧
        (routeFailed s (masterRouter 35) (masterRouter 36) = true → e.out = s.out ∧ OneMore s e LAT_E2E LAT_E2E_ROUTEFAIL ∧
          flag e LED_DMACTL LED_DMACTL_DONE = flag s LED_DMACTL LED_DMACTL_DONE)) ∧
      (s.nPfail = true → ∃ e, Does .powerFail s e ∧ getF e RST_CAUSE RST_CAUSE_CAUSE = 1 ∧ e.nPfail = false ∧ e.triads = [] ∧
        e.qe = {} ∧ e.weft = {} ∧ e.tly = {} ∧ e.led = {} ∧ e.cry = []))

/-- R378 to R383, R388, R390, R395 to R402: a crypto engine serves the request at its front and answers it, once its output packet
finds room where it has one; VERIFY says whether the tag is the datagram's CMAC under the session's terminal key. The draw unit
hands a request's outcome to the ledger under its number; HEALTH reads its status; DRW_ENTIN takes bytes while there is room
and the card is not sealed.
The model's choices: log entries 2, 70, 71. -/
def Obligations.CryptoAndDraw : Prop :=
  ∀ (n : BitVec 3) (up vp : QueueUpset) (mism kb : Bool) (s : State),
    (∀ op, op = 1 ∨ op = 2 ∨ op = 3 → domOn s (4 + n.toNat) = true →
      let c : Instr := if op = 1 then .cryptoVerify n up vp mism kb else
        if op = 2 then .cryptoSeal n up vp mism kb else .cryptoHash n up vp mism kb
      let q := 0xFF100 + n.toNat
      (getJob s n.toNat = none → pktReady s (clusterRouter n.toNat) q = true →
        (3 ≤ peekLen s q → frontOp s q = 0 ∨ frontOp s q = op) →
        let (p, h) := popPacket s (clusterRouter n.toNat) q up
        let tid := p.words.getD 0 0
        ∀ r, 3 ≤ p.words.length → p.bad = false → cryRequest h p.words = some r →
        let (o, k) := cryServe h n.toNat r tid vp mism kb
        Does c s (cryAnswer k n.toNat r tid (p.words.getD 1 0) o)) ∧
      (∀ j, getJob s n.toNat = some j → j.op = op → qeReady s = true →
        if roomPlusTwo s j.queue j.copy.length then
          Does c s (cryReply (pushPacket (setJob s n.toNat none) (clusterRouter n.toNat) j.queue j.copy) n.toNat op j.triad
            j.tid j.lo { status := 0, session := j.session, words := j.words })
        else Does c s s)) ∧
    (∀ (r : CryReq) (tid : Word) (p : List Word) (ses : Nat) (msg key : List Byte) (h : State), r.op = 1 →
      useKey s 1 kb = (some key, h) →
      (cryPerform s n.toNat r tid p ses msg false kb).1.status =
        if cmac (terminalKey key [0x53, 0x42, 0x54, 0x4B] ses) msg = (ofWords p).drop msg.length then 0 else 1) ∧
    (∀ (bad : DrbgUpset) (noise : List Byte) (e : Resv), ledgerAccepts s = true → pktReady s drawRouter 0xFF400 = true →
      directFront s 0xFF400 = false → entinShort s = false →
      let op := (peekAt s 0xFF400 3).toNat / 2 ^ 28
      let (p, h) := popPacket s drawRouter 0xFF400 up
      drawEntry h p = some e → p.bad = false → p.words.length = 8 → (p.words.getD 3 0).toNat / 2 ^ 28 = op →
      let a (i : Nat) : Nat := (p.words.getD i 0).toNat
      (op = 1 ∨ op = 2 →
        let c : Instr := if op = 1 then .drawRange up noise bad kb else .drawKofn up noise bad kb
        (bitsOf (a 3) 27 5 ≠ 0 ∨ drawLimits op (a 3 % 32) (a 4) (a 5) = false →
          Does c s (drawHand h e p { status := 4, gen := h.drw.d0.count })) ∧
        (bitsOf (a 3) 27 5 = 0 → drawLimits op (a 3 % 32) (a 4) (a 5) = true →
          let (o, k) := seedAndDraw h e.seq op (a 3 % 32) (a 3) (a 4) (a 5) noise bad kb
          Does c s (drawSync (drawHand k e p o))))) ∧
    (safeHalt s = false → pktReady s drawRouter 0xFF400 = true → directFront s 0xFF400 = true →
      let (p, h) := popPacket s drawRouter 0xFF400 up
      p.bad = false → (p.words.getD 3 0).toNat / 2 ^ 28 = 3 →
      Does (.drawHealth up) s (pushPacket h drawRouter (0xFF440 + bitsOf (p.words.getD 2 0).toNat 28 24)
        [p.words.getD 0 0, p.words.getD 1 0, 0x30000000, reg h DRW_STATUS, reg h DRW_GENCNT])) ∧
    (∀ (m : BitVec 6) (v : Word) (u : State), Reaches s m.toNat DRW_ENTIN u →
      let full := flag u MOD_STATUS MOD_STATUS_SEALED = true ∨ 128 ≤ u.drw.entin.length
      (full → Writes (.drwEntinWrite m v) s u) ∧
      (¬ full → Writes (.drwEntinWrite m v) s { u with drw := { u.drw with entin := u.drw.entin ++ [v] } }))

/-! ### Power, clocks, lattice -/

/-- R477 to R479, R482 to R487, R490: votes are written by bit or whole; a domain with no vote and a free entry condition enters its
target state, with TRANS counted; a vote or a wake request brings it back ON with its cause; a rail that leaves its window
stops the cluster.
R495, R497, R499, R505, R506, R508: a domain takes its clock source at once, or PLLA at its lock; a failed root or PLLA sends
every domain back to FIO; an access at a stopped clock ends with CLKSTOP, counted and captured, a triad's with the entry of vector 8, or is performed
once captured.
The model's choices: log entries 23, 30, 73, 77. -/
def Obligations.PowerAndClocks : Prop :=
  (∀ (d : BitVec 5) (m : BitVec 6) (v : Word) (s u : State), d.toNat < 18 →
      let a := PD_STATUS d.toNat
      (Reaches s m.toNat (PD_VOTEA d.toNat) u → ∃ e, Writes (.pdVoteaWrite m d v) s e ∧
        (m.toNat < 32 → ∀ i, i < 32 → (reg e (PD_VOTEA d.toNat)).getLsbD i =
          if i = m.toNat then v.getLsbD i else (reg u (PD_VOTEA d.toNat)).getLsbD i) ∧
        (m = 36 ∨ m = 39 → reg e (PD_VOTEA d.toNat) = v)) ∧
      (Reaches s m.toNat (PD_VOTEB d.toNat) u → ∃ e, Writes (.pdVotebWrite m d v) s e ∧
        flag e (PD_VOTEB d.toNat) PD_VOTEB_HOST = (if m = 36 then v.getLsbD 0 else flag u (PD_VOTEB d.toNat) PD_VOTEB_HOST) ∧
        (m = 36 ∨ m.toNat < 32 ∧ supervisor (getT u m.toNat) = true →
          (v.getLsbD 9 = true → flag e (PD_VOTEB d.toNat) PD_VOTEB_WAKE = false) ∧
          (v.getLsbD 10 = true → flag e (PD_VOTEB d.toNat) PD_VOTEB_BOOT = false))) ∧
      (∀ w : BitVec 4, let target := getF s (PD_TARGET d.toNat) PD_TARGET_TARGET
        2 ≤ d.toNat → domOn s d.toNat = true → target = 1 ∨ target = 2 → votesDown s d.toNat = true → entryFree s d.toNat = true →
        safeHalt s = false → s.nPfail = true → wakeOk d.toNat w.toNat = true → ∃ e, Does (.domainEntry d w) s e ∧ domState e d.toNat = target ∧
          getF e a PD_STATUS_TRANS = (getF s a PD_STATUS_TRANS + 1) % 2 ^ (PD_STATUS_TRANS.hi + 1 - PD_STATUS_TRANS.lo) ∧
          flag e a PD_STATUS_WAKEQ = (w != 0) ∧
          (w ≠ 0 → tget (fun _ => 0) e.wakeCause d.toNat = w.toNat) ∧ (target = 2 → d.toNat = 2 → e.qe = {}) ∧
          (target = 1 → e.qe = s.qe ∧ e.weft = s.weft ∧ e.tly = s.tly ∧ e.triads = s.triads ∧ MemSame s e)) ∧
      (∀ ok, let cause := tget (fun _ => 0) s.wakeCause d.toNat
        domState s d.toNat = 1 → votesDown s d.toNat = false ∨ cause ≠ 0 → cause < 8 → ∃ e, Does (.domainExit d ok) s e ∧
          domState e d.toNat = 0 ∧ getF e a PD_STATUS_LASTWAKE = (if cause = 0 then 1 else cause) ∧
          flag e a PD_STATUS_WAKEQ = false ∧ tget (fun _ => 0) e.wakeCause d.toNat = 0) ∧
      (∀ ok, d.toNat = 2 → domState s 2 = 2 → votesDown s 2 = false ∨ tget (fun _ => 0) s.wakeCause 2 ≠ 0 →
        ∃ e, Does (.domainExit d ok) s e ∧ domState e 2 = 0 ∧ e.qe = {} ∧ flag e QE_STATUS QE_STATUS_LOADED = true) ∧
      (∀ n : BitVec 3, domOn s (4 + n.toNat) = true → ∃ e, Does (.railFault n) s e ∧ flag e (PD_VCL n.toNat) PD_VCL_RAILFAULT = true ∧
        ∀ j, j < 4 → triadLive e (4 * n.toNat + j) = false)) ∧
  (∀ (d : BitVec 5) (m : BitVec 6) (v : Word) (s u : State),
      (∀ k ∈ clkDomains, d.toNat = k → Reaches s m.toNat (CLK_SRC k) u → ∃ e, Writes (.clkSrcWrite m d v) s e ∧
        flag e (CLK_SRC k) CLK_SRC_SEL = v.getLsbD 0 ∧ (k ≠ 12 → flag e (CLK_SRC k) CLK_SRC_AUTO = v.getLsbD 2) ∧
        (domOn u k = true → v.getLsbD 0 = false → flag e (CLK_SRC k) CLK_SRC_CUR = false ∧ flag e (CLK_SRC k) CLK_SRC_SWPEND = false) ∧
        (domOn u k = true → v.getLsbD 0 = true → pllLocked u = true → flag e (CLK_SRC k) CLK_SRC_CUR = true) ∧
        (domOn u k = true → v.getLsbD 0 = true → pllLocked u = false → flag e (CLK_SRC k) CLK_SRC_SWPEND = true)) ∧
      (flag s CLK_STATUS CLK_STATUS_ROOTFAIL = false → flag s CLK_STATUS CLK_STATUS_PLLFAIL = false → pllLocked s = false →
        ∃ e, Does .pllLock s e ∧ pllLocked e = true ∧ ∀ k ∈ clkDomains, domOn s k = true →
          flag s (CLK_SRC k) CLK_SRC_SWPEND = true ∨ flag s (CLK_SRC k) CLK_SRC_AUTO = true →
          flag e (CLK_SRC k) CLK_SRC_CUR = true ∧ flag e (CLK_SRC k) CLK_SRC_SWPEND = false) ∧
      (∀ root, ∃ e, Does (.clockFailure root) s e ∧ pllLocked e = false ∧ flag e CLK_STATUS CLK_STATUS_FALLBACK = true ∧
        flag e CLK_STATUS (if root then CLK_STATUS_ROOTFAIL else CLK_STATUS_PLLFAIL) = true ∧
        ∀ k ∈ clkDomains, flag e (CLK_SRC k) CLK_SRC_CUR = false) ∧
      (∀ (x : Word) (wr : Bool), x.toNat % 4 = 0 → regionOf x.toNat = .device → meetsStopped s x.toNat = true →
        let noted (e : State) : Prop := OneMore s e CLK_STOPCNT CLK_STOPCNT_COUNT ∧
          (flag s CLK_STOPCNT CLK_STOPCNT_VALID = false → reg e CLK_STOPADR = x ∧ flag e CLK_STOPCNT CLK_STOPCNT_VALID = true)
        (32 ≤ m.toNat → ∃ e, Does (.clkstopTimeout m x wr v false) s e ∧ e.rstat = 2 ∧ noted e) ∧
        (m.toNat < 32 → issues s m.toNat = true →
          let y : Exc := { vec := 8, fadr := x, wr := wr, ext := true, count := 2, caddr := x.toNat }
          noted (excSeen s m.toNat y) ∧ Enters (.clkstopTimeout m x wr v false) s s m.toNat y) ∧
        Does (.clkstopTimeout m x true v true) s { deviceWrite s m.toNat x.toNat v with rstat := 0 } ∧
        Does (.clkstopTimeout m x false v true) s
          { (deviceRead s x.toNat).2 with rdata := (deviceRead s x.toNat).1, rstat := 0 }))

/-- R232, R249, R250: a flit that fails its CRC is replayed and counted, in each direction of its link; the fourth failure in succession moves the link to its
spare, where both directions count anew, and on the spare fails it. A packet is retransmitted once; its second failure fails its route. A failed link or router
fails every route over it.
The model's choices: log entry 68. -/
def Obligations.LatticeErrors : Prop :=
  ∀ (i : BitVec 5) (back again : Bool) (x y r : BitVec 4) (s : State), i.toNat < 24 →
    let k := i.toNat
    let st (u : State) := getF u (LAT_LINK k) LAT_LINK_STATE
    let n (u : State) := tget (fun _ => 0) u.lat.flits (2 * k + b2n back)
    (∃ e, Does (.linkFlitError i back again) s e ∧ OneMore s e (LAT_LINK k) LAT_LINK_RETRY ∧
      (again = false ∨ n s < 3 → st e = st s ∧ (n e = if again then n s + 1 else 1) ∧ Logs s e .engMask 0xFF 0xFF 0) ∧
      (again = true → n s = 3 → (st s = 0 → st e = 1 ∧ Logs s e .engMask 0xFF 0xFF 0 ∧ n e = 0 ∧
          tget (fun _ => 0) e.lat.flits (2 * k + b2n (!back)) = 0) ∧
        (st s = 1 → st e = 3 ∧ Logs s e .detect 0xFF 0xFF 0 ∧
          ∀ p q, k ∈ pathLinks (routePath p q) → routeFailed e p q = true))) ∧
    (∃ e, Does (.packetCrcFailure x y false) s e ∧ OneMore s e LAT_E2E LAT_E2E_RETX ∧ Logs s e .engMask 0xFF 0xFF 0 ∧
      ∀ p q, routeFailed e p q = routeFailed s p q) ∧
    (routeFailed s x.toNat y.toNat = false → ∃ e, Does (.packetCrcFailure x y true) s e ∧
      routeFailed e x.toNat y.toNat = true ∧ OneMore s e LAT_E2E LAT_E2E_ROUTEFAIL ∧ Logs s e .detect 0xFF 0xFF 0) ∧
    (∃ e, Does (.routerFailure r) s e ∧ Logs s e .detect 0xFF 0xFF 0 ∧
      (∀ j, j < 16 → (getF e LAT_RTRFAIL LAT_RTRFAIL_FAIL).testBit j = ((getF s LAT_RTRFAIL LAT_RTRFAIL_FAIL).testBit j || j == r.toNat)) ∧
      ∀ p q, r.toNat ∈ routePath p q → routeFailed e p q = true)

/-- R131, R134, R238, R245 to R247, R252, R259: what a bank answers, merges, discards and poisons; a burst is read whole with the errors it meets or
written whole, a torn one to the beat that arrived; an access over a failed route is lost and counted. The scrubber takes a bank's rows in
order, counts what it corrects and poisons what it cannot; in the other stores it takes a word.
The model's choices: log entries 68, 69, 94. -/
def Obligations.CommonStore : Prop :=
  ∀ (m : BitVec 6) (a w : Word) (be beats : BitVec 4) (n : BitVec 5) (u : Upset) (ws : List Word) (s : State),
    (regionOf a.toNat = .common → accessFailed s m.toNat a.toNat = false →
      let B := CS_BANK (bankOf a.toNat)
      let k := a.toNat / 4 * 4
      let written (e : State) (l : List Word) : Prop :=
        (∀ i (h : i < l.length), getWord e (k + 4 * i) = l[i] ∧ poisoned e (k + 4 * i) = false) ∧
        ∀ j, j < k ∨ k + 4 * l.length ≤ j → getByte e j = getByte s j ∧ poisoned e (j / 4 * 4) = poisoned s (j / 4 * 4)
      Does (.commonStoreAccess m a (.read .none)) s (answerWords s [(getWord s k, BitVec.ofNat 32 (8 * b2n (poisoned s k)))]) ∧
      (∃ e, Does (.commonStoreAccess m a (.read .single)) s e ∧ OneMore s e B CS_BANK_CORR ∧ e.rdata = getWord s k ∧ MemSame s e ∧
        Logs s e .engMask 0xFF 0xFF 0) ∧
      (∃ e, Does (.commonStoreAccess m a (.read .double)) s e ∧ OneMore s e B CS_BANK_DBL ∧ e.rdata = getWord s k ∧
        e.rwords = [(getWord s k, 8)] ∧ Logs s e .detect 0xFF 0xFF 0 ∧
        poisoned e k = true ∧ (∀ j, getByte e j = getByte s j) ∧ reg e CS_ERRADR =
          (if flag s CS_ERRINFO CS_ERRINFO_VALID then reg s CS_ERRADR else BitVec.ofNat 32 k) ∧
        (flag s CS_ERRINFO CS_ERRINFO_VALID = false →
          flag e CS_ERRINFO CS_ERRINFO_VALID = true ∧ getF e CS_ERRINFO CS_ERRINFO_SRC = m.toNat)) ∧
      (∃ e, Does (.commonStoreAccess m a (.store w 15 u)) s e ∧ written e [w]) ∧
      (be ≠ 15 → poisoned s k = true → ∃ e, Does (.commonStoreAccess m a (.store w be .none)) s e ∧
        OneMore s e B CS_BANK_DISC ∧ MemSame s e) ∧
      (be ≠ 15 → poisoned s k = false → ∃ e, Does (.commonStoreAccess m a (.store w be .none)) s e ∧
        written e [mergeBytes (getWord s k) w be]) ∧
      (burstOk a.toNat (8 * n.toNat) = true → Does (.commonStoreAccess m a (.readBurst n [])) s (answerWords s
          ((List.range (8 * n.toNat)).map (fun i =>
            (getWord s (k + 4 * i), BitVec.ofNat 32 (8 * b2n (poisoned s (k + 4 * i))))))) ∧
        ∀ found : List Upset, ∃ e, Does (.commonStoreAccess m a (.readBurst n found)) s e ∧ (∀ j, getByte e j = getByte s j) ∧
          e.rwords.length = 8 * n.toNat ∧
          ∀ i, i < 8 * n.toNat → poisoned e (k + 4 * i) = (poisoned s (k + 4 * i) || found.getD i .none == .double) ∧
            e.rwords.getD i (0, 0) = (getWord s (k + 4 * i), BitVec.ofNat 32 (8 * b2n (poisoned e (k + 4 * i))))) ∧
      (burstOk a.toNat ws.length = true →
        (∃ e, Does (.commonStoreAccess m a (.burst ws)) s e ∧ written e ws) ∧
        (∃ e, Does (.commonStoreAccess m a (.torn ws beats)) s e ∧ written e (ws.take (8 * beats.toNat)) ∧
          OneMore s e B CS_BANK_TORN ∧ OneMore s e LAT_TORN LAT_TORN_COUNT ∧
          getF e LAT_TORN LAT_TORN_SRC = m.toNat ∧ getF e LAT_TORN LAT_TORN_TGT = bankOf a.toNat))) ∧
    (regionOf a.toNat = .common → accessFailed s m.toNat a.toNat = true → ∀ op, ∃ e, Does (.commonStoreAccess m a op) s e ∧
      OneMore s e LAT_E2E LAT_E2E_ROUTEFAIL ∧ MemSame s e ∧ (32 ≤ m.toNat → e.rstat = 2)) ∧
    (∀ (b : BitVec 4) (us : List Upset) (last : Bool), flag s SUP_SCRUBCTL SUP_SCRUBCTL_EN = true → domOn s 1 = true →
      ∃ e, Does (.scrubRow (.common b us) u last) s (matchEvery e) ∧
        let row := rowsDone s b.toNat
        rowsDone e b.toNat = row + 1 ∧ (∀ j, getByte e j = getByte s j) ∧
        (∀ i, i < 8 → us.getD i .none = .double → poisoned e (scrubRowAt b.toNat (row % bankRows) + 4 * i) = true) ∧
        getF e (SUP_SCRUBST 0) SUP_SCRUBST_CORR =
          min (getF s (SUP_SCRUBST 0) SUP_SCRUBST_CORR + (us.take 8).count .single) (2 ^ 16 - 1) ∧
        getF e SUP_SCRUBDBL SUP_SCRUBDBL_COMMON =
          min (getF s SUP_SCRUBDBL SUP_SCRUBDBL_COMMON + (us.take 8).count .double) (2 ^ 8 - 1) ∧
        getF e (SUP_SCRUBST 0) SUP_SCRUBST_PASSES =
          (getF s (SUP_SCRUBST 0) SUP_SCRUBST_PASSES + b2n (passEnds s b.toNat row)) % 65536) ∧
    ∀ (spot : ScrubSpot) (last : Bool), 0 < scrubStore spot → flag s SUP_SCRUBCTL SUP_SCRUBCTL_EN = true →
      domOn s (scrubDomain spot) = true →
      let S := SUP_SCRUBST (scrubStore spot)
      (∃ e, Does (.scrubRow spot .single last) s (matchEvery e) ∧ OneMore s e S SUP_SCRUBST_CORR ∧ MemSame s e ∧
        Logs s e .engMask 0xFF 0xFF 0 ∧
        getF e S SUP_SCRUBST_PASSES = (getF s S SUP_SCRUBST_PASSES + b2n last) % 65536) ∧
      (∃ e, Does (.scrubRow spot .double last) s (matchEvery e) ∧ OneMore s e SUP_SCRUBDBL (scrubFld (scrubStore spot)) ∧
        Logs s e .scrubDbl 0xFF 0xFF 0 ∧ (∀ x, spot = .mram x → regionOf x.toNat = .mram → poisoned e x.toNat = true) ∧
        (∀ q, spot = .desc q → tget (fun _ => false) e.qe.badDescs q.toNat = true) ∧
        ∀ c, spot = .link c → tget (fun _ => false) e.qe.badLinks c.toNat = true)

/-- R244, R255 to R258: the priority commands act on their sender's stop bit alone, whose copies every MAC that is on then has,
and intake runs only while it is allowed; back-pressure and FATAL reach the ports and the host; a command over a failed route
is lost. A host fence holds every later host access until it is done.
The model's choices: log entries 28, 36, 70, 87. -/
def Obligations.PriorityCommands : Prop :=
  ∀ (b : Fld) (k : BitVec 2) (s : State),
    (k, b) ∈ [(0, MOD_STOP_HOSTSTOP), (1, MOD_STOP_SUPSTOP), (2, MOD_STOP_BOOTSTOP)] →
    let alone (e : State) : Prop := ∀ c, c = MOD_STOP_HOSTSTOP ∨ c = MOD_STOP_SUPSTOP ∨ c = MOD_STOP_BOOTSTOP ∨ c = MOD_STOP_SCANLOCK →
      c ≠ b → flag e MOD_STOP c = flag s MOD_STOP c
    let macs (e : State) : Prop := ∀ p, p < 3 → domOn s (13 + p) = true → tget (fun _ => 0) e.net.stops p = stopBits e
    (stopLost s k.toNat = true → Does (.stopIntake k) s s ∧ Does (.resumeIntake k) s s) ∧
    (stopLost s k.toNat = false → ∃ e, Does (.stopIntake k) s e ∧ flag e MOD_STOP b = true ∧
      flag e MOD_STATUS MOD_STATUS_INTAKE = false ∧ alone e ∧ macs e) ∧
    (stopLost s k.toNat = false → k = 0 ∨ k = 2 ∧ flag s MOD_STOP MOD_STOP_SCANLOCK = false →
      ∃ e, Does (.resumeIntake k) s e ∧ flag e MOD_STOP b = false ∧
        alone e ∧ macs e ∧ flag e MOD_STATUS MOD_STATUS_INTAKE = intakeAllowed e) ∧
    (k = 1 ∨ k = 2 ∧ flag s MOD_STOP MOD_STOP_SCANLOCK = true → Does (.resumeIntake k) s s) ∧
    (routeFailed s (masterRouter 33) 7 = false →
      ∀ on, ∃ e, Does (if on then .throttleOn else .throttleOff) s e ∧ e.lat.throttle = on ∧ ∀ p, p < 2 →
        flag e (ETH_THR p) ETH_THR_ACTIVE = if domOn s (13 + p) then on else flag s (ETH_THR p) ETH_THR_ACTIVE) ∧
    (routeFailed s (masterRouter 33) 7 = true → Does .throttleOn s s ∧ Does .throttleOff s s) ∧
    (∃ e, Does .fatal s e ∧ flag e MOD_STATUS MOD_STATUS_FATAL = true ∧
      (flag s MOD_STATUS MOD_STATUS_FATAL = false → .audDo false ∈ e.out)) ∧
    (hostReady s = true →
      (s.lat.fences = 0 → Does .hostFence s { s with lat := { s.lat with fences := 1 }, rstat := 0 }) ∧
      (s.lat.fences ≠ 0 → ∀ (p : Place) (v : Word) (be : BitVec 4),
        let holds (h : HeldAccess) : State := { s with lat := { s.lat with held := s.lat.held ++ [h] } }
        Does (.registerWrite 36 p v be) s (holds (.write p v be)) ∧ Does (.registerRead 36 p) s (holds (.read p)) ∧
        Does .drainWindowWrite s (holds .drain) ∧ ∀ i : BitVec 6, Does (.msixVectorUnmask (some i)) s
          (holds (.write (.mailbox (BitVec.ofNat 20 (0x8000C + 16 * i.toNat))) (msixWord s (4 * i.toNat + 3) &&& 0xFFFFFFFE) 15)))) ∧
    (s.lat.fences ≠ 0 → ∃ u, Does .hostFenceDone s (releaseHeld s.lat.held u) ∧ u.lat.fences = 0 ∧
      getF u LAT_HFENCE LAT_HFENCE_DONE = (getF s LAT_HFENCE LAT_HFENCE_DONE + 1) % 65536)

/-! ### Events, clock, converter -/

/-- R437, R460 to R464, R466: the bits written to EVF_SWTRIG are events 176 on, in order; a select changes unless locked; an
event at a busy input is lost and flagged, EVI sets its shared source, a pulse drives its pin and keeps its input busy, and a push
carries count and selection. A level held on an input pin reaches the capture inputs whose filter accepts it, and a rising
edge is event 144 + k.
R472 to R474: a start takes the channels of MON_SEQ in ascending order and raises SEQCNT, an empty sequence ends at once, a
start while one runs is lost; each conversion writes its result with the sequence number and flags a value out of limits.
The model's choices: log entries 32, 70, 86. -/
def Obligations.EventsAndConverter : Prop :=
  (∀ (m : BitVec 6) (i : BitVec 7) (v : Word) (k : BitVec 3) (level : Bool) (n : BitVec 32) (restart : BitVec 72)
      (s u : State),
      (Reaches s m.toNat EVF_SWTRIG u → Writes (.evfSwtrigWrite m v) s
        { u with evq := u.evq ++ ((List.range 16).filter (fun j => v.getLsbD j)).map (176 + ·) }) ∧
      (i.toNat < 96 → Reaches s m.toNat (EVF_SEL i.toNat) u →
        let locked := flag u (EVF_SEL i.toNat) EVF_SEL_LOCK && weaveLocked u
        ∃ e, Writes (.evfSelWrite m i v) s e ∧ flag e (EVF_SEL i.toNat) EVF_SEL_LOCK = flag u (EVF_SEL i.toNat) EVF_SEL_LOCK ∧
          getF e (EVF_SEL i.toNat) EVF_SEL_SEL = if locked then getF u (EVF_SEL i.toNat) EVF_SEL_SEL else v.toNat % 256) ∧
      (∀ p, (∀ j, j < 80 → getF u (EVF_SEL j) EVF_SEL_SEL ≠ p) → routeEvent u p = u) ∧
      (∀ j, j < 80 → inputBusy u j = true → (reg (inputEvent u j) (EVF_OVR (j / 32))).getLsbD (j % 32) = true ∧
        ∀ a, a ≠ EVF_OVR (j / 32) → reg (inputEvent u j) a = reg u a) ∧
      (∀ j, j < 32 → inputEvent u j = srcEvent u (256 + j)) ∧
      (inputBusy u (68 + k.toNat) = false → evoMode u k.toNat = 1 →
        let e := inputEvent u (68 + k.toNat)
        e.evf.pinOut.getLsbD k.toNat = true ∧ inputBusy e (68 + k.toNat) = true) ∧
      (flag u EVF_QPUSHA EVF_QPUSHA_EN = true → inputBusy u 78 = false →
        let h := { u with evf := { u.evf with pushA := u.evf.pushA + 1 } }
        (safeHalt u = false → inputEvent u 78 = enginePush h fabricRouter (getF u EVF_QPUSHA EVF_QPUSHA_QID)
          [(BitVec.ofNat 32 ((u.evf.pushA + 1).toNat * 65536 + getF u (EVF_SEL 78) EVF_SEL_SEL), true)]) ∧
        (safeHalt u = true → inputEvent u 78 = setBusy h 78 true)) ∧
      (∀ c, c < 72 → (acceptIn u n.toNat).getLsbD c =
        decide (getF u (TMR_CAPCTL (c / 8) (c % 8)) TMR_CAPCTL_FILT + 1 ≤ samplesIn u (c / 8) (c % 8) n.toNat)) ∧
      (n.toNat < 2 → Does (.evPinEdge k level n restart) s s) ∧
      (∀ c : Instr, c = .evPinEdge k level n restart → 2 ≤ n.toNat →
        ∃ e, e.evf.pinIn.getLsbD k.toNat = level ∧ (∀ j, j ≠ k.toNat → e.evf.pinIn.getLsbD j = s.evf.pinIn.getLsbD j) ∧
          (evoMode s k.toNat ≠ 0 ∨ clocked s 17 = false → Does c s e) ∧
          (evoMode s k.toNat = 0 → clocked s 17 = true → s.evf.pinIn.getLsbD k.toNat = level →
            Does c s (pinCapture e k.toNat level (acceptIn e n.toNat))) ∧
          (evoMode s k.toNat = 0 → clocked s 17 = true → s.evf.pinIn.getLsbD k.toNat ≠ level →
            let f := if level then pinKernel (produce e (144 + k.toNat)) k.toNat restart else e
            Does c s (pinCapture f k.toNat level (acceptIn f n.toNat))))) ∧
  (∀ (code : BitVec 12) (s : State), clocked s 16 = true →
      let busy := flag s MON_STATUS MON_STATUS_BUSY
      let chans := (List.range 24).filter (fun c => (reg s MON_SEQ).getLsbD c)
      let seq := getF s MON_STATUS MON_STATUS_SEQCNT
      let begun (e : State) : Prop := getF e MON_STATUS MON_STATUS_SEQCNT = (seq + 1) % 256 ∧ e.mon.left = chans ∧
        flag e MON_STATUS MON_STATUS_BUSY = !chans.isEmpty ∧ (chans = [] → 154 ∈ e.evq)
      (busy = false → ∃ e, Does .monStart s e ∧ begun e) ∧
      (busy = true → ∃ e, Does .monStart s e ∧ flag e MON_STATUS MON_STATUS_LOSTSTART = true ∧ e.mon = s.mon) ∧
      (flag s MON_CTL MON_CTL_CONT = true → s.mon.started = true →
        (busy = false → ∃ e, Does .monInterval s e ∧ begun e) ∧
        (busy = true → Does .monInterval s { s with mon := { s.mon with waiting := true } })) ∧
      (∀ c r, c < 24 → s.mon.left = c :: r → ∃ e, Does (.monConversion code) s e ∧
        let out := flag s (MON_LIM c) MON_LIM_EN && (decide (code.toNat < getF s (MON_LIM c) MON_LIM_LO) ||
          decide (getF s (MON_LIM c) MON_LIM_HI < code.toNat))
        reg e (MON_RES c) = BitVec.ofNat 32 (2 ^ 31 + seq * 2 ^ 16 + code.toNat) ∧
        (reg e MON_LIMF).getLsbD c = ((reg s MON_LIMF).getLsbD c || out) ∧
        (out = true → (reg s MON_LIMF).getLsbD c = false → 155 ∈ e.evq ∧ bit512 e.pic.pend 85 = true) ∧
        (r ≠ [] → e.mon.left = r) ∧ (r = [] → 154 ∈ e.evq ∧ bit512 e.pic.pend 86 = true)))

/-- R467 to R471: an SLCK edge advances the count by 1, or by 2 or 0 at a correction of the trim, whose periods in the window are
floor (j * 2^23 / |TRIM|); a roll-over steps the seconds, is event 152 and compares the alarm. A load waits for the next
edge, replaces the count then, and clears RTCINV; a LOAD while one waits sets WERR.
The model's choices: log entry 31. -/
def Obligations.RealTimeClock : Prop :=
  ∀ (m : BitVec 6) (v : Word) (w : Nat) (t : BitVec 12) (s u : State),
    let x := s.rtc
    let n := x.sub.toNat + rtcAdvance s
    let alm := (reg s RTC_ALMLO).toNat + 2 ^ 32 * getF s RTC_ALMHI RTC_ALMHI_SEC
    let fires (e : State) : Prop := flag s RTC_CTL RTC_CTL_ALEN = true → e.rtc.sec.toNat = alm →
      flag e RTC_STATUS RTC_STATUS_ALMF = true ∧ 153 ∈ e.evq ∧ bit512 e.pic.pend 84 = true
    let next (e : State) : Prop := e.slck = s.slck + 1 ∧ e.rtc.sub.toNat = n % 32768 ∧
      e.rtc.sec = x.sec + BitVec.ofNat 48 (n / 32768) ∧ (32768 ≤ n → 152 ∈ e.evq ∧ fires e) ∧
      (clocked s 1 = true → e.rtc.copySec = e.rtc.sec ∧ e.rtc.copySub = e.rtc.sub)
    (0 < t.toInt.natAbs → t.toInt.natAbs ≤ 1065 → (correctionAt w t.toInt = true ↔ ∃ j, j < t.toInt.natAbs ∧ w = j * 2 ^ 23 / t.toInt.natAbs)) ∧
    (s.islandOff = false → flag s RTC_CTL RTC_CTL_PEND = false →
      (∃ e, Does .slckEdge s e ∧ next e) ∧ (32768 ≤ n → ∃ e, Does .rtcSecond s e ∧ next e) ∧
      (rtcAdvance s ≠ 1 → ∃ e, Does .rtcTrimCorrection s e ∧ next e)) ∧
    (s.islandOff = false → flag s RTC_CTL RTC_CTL_PEND = true → ∃ e, Does .rtcLoadApply s e ∧ Does .slckEdge s e ∧
      e.rtc.sec.toNat = (reg s RTC_LDSECLO).toNat + 2 ^ 32 * getF s RTC_LDSECHI RTC_LDSECHI_SEC ∧
      e.rtc.sub.toNat = getF s RTC_LDSUB RTC_LDSUB_SUB ∧ flag e RTC_CTL RTC_CTL_PEND = false ∧ fires e ∧
      flag e TMP_STATUS TMP_STATUS_RTCINV = false ∧ flag e MOD_STATUS MOD_STATUS_RTCINV = false) ∧
    (Reaches s m.toNat RTC_CTL u → v.getLsbD 0 = true → ∃ e, Writes (.rtcLoad m v) s e ∧
      flag e RTC_CTL RTC_CTL_PEND = true ∧ (flag u RTC_CTL RTC_CTL_PEND = true → flag e RTC_CTL RTC_CTL_WERR = true))

/-! ### Host, mailbox, boot -/

/-- R512, R513, R519, R554: PERST# and a function-level reset return the function to its reset values but for what each keeps; the
link trains to the least of what partner, weave and host allow, and its changes raise shared source 99.
The model's choices: log entries 36, 73. -/
def Obligations.HostResets : Prop :=
  ∀ (speed : BitVec 4) (width : BitVec 6) (s : State), domOn s 12 = true →
    let h := s.hostFn
    let up (u : State) := flag u HB_LINK HB_LINK_UP
    let plain (e : State) : Prop := e.hostFn.memEn = false ∧ e.hostFn.msixEn = false ∧ e.hostFn.table = [] ∧ e.hostFn.pba = 0 ∧
      e.hostFn.funcMask = false ∧ e.hostFn.bars = [] ∧ e.hostFn.maxSpeed = h.maxSpeed ∧ e.hostFn.maxWidth = h.maxWidth ∧
      e.mbx.asm = [] ∧ e.mbx.rsp = [] ∧ e.mbx.queue = s.mbx.queue ∧ e.lat.held = []
    let changed (e : State) : Prop := bit512 e.pic.pend 99 = true
    let trained (e : State) : Prop := up e = true ∧ e.hostFn.l1 = false ∧ changed e ∧
      getF e HB_LINK HB_LINK_SPEED = min speed.toNat (min h.maxSpeed.toNat h.target.toNat) ∧
      getF e HB_LINK HB_LINK_WIDTH = min width.toNat h.maxWidth.toNat
    (∃ e, Does (.perstAssert .none) s e ∧ plain e ∧ up e = false ∧ e.hostFn.served = false ∧ e.hostFn.target = h.maxSpeed ∧
      getF e HB_LINK HB_LINK_FLRS = getF s HB_LINK HB_LINK_FLRS ∧ (up s = true → changed e)) ∧
    (up s = true → ∃ e, Does (.flr .none) s e ∧ plain e ∧ up e = true ∧ e.hostFn.served = h.served ∧ getF e HB_LINK HB_LINK_DSTATE = 0 ∧
      e.hostFn.target = h.target ∧ e.hostFn.uncorr = h.uncorr ∧ e.hostFn.corr = h.corr ∧
      getF e HB_LINK HB_LINK_FLRS = (getF s HB_LINK HB_LINK_FLRS + 1) % 2 ^ (HB_LINK_FLRS.hi + 1 - HB_LINK_FLRS.lo) ∧
      bit512 e.pic.pend 98 = true) ∧
    (pcieClocked s = true → linkShape speed.toNat width.toNat = true →
      (up s = false → ∃ e, Does (.perstDeassert speed width) s e ∧ trained e ∧ e.hostFn.served = h.served) ∧
      (∃ e, Does (.pcieLinkStateChange (.train speed width)) s e ∧ trained e ∧ e.hostFn.served = h.served) ∧
      (up s = true → ∃ e, Does (.pcieLinkStateChange (.recover speed width)) s e ∧ trained e)) ∧
    (up s = true →
      (h.l1 = false → ∃ e, Does (.pcieLinkStateChange .enterL1) s e ∧ e.hostFn = { h with l1 := true } ∧ up e = true ∧ changed e) ∧
      (h.l1 = true → ∃ e, Does (.pcieLinkStateChange .leaveL1) s e ∧ e.hostFn = { h with l1 := false } ∧ up e = true ∧ changed e) ∧
      ∃ e, Does (.pcieLinkStateChange .down) s e ∧ up e = false ∧ getF e HB_LINK HB_LINK_WIDTH = 0 ∧
        getF e HB_LINK HB_LINK_SPEED = 0 ∧ changed e) ∧
    (pcieClocked s = true → ∃ e, Does (.pcieLinkStateChange .away) s e ∧ up e = false ∧ e.hostFn.away = true ∧
      (voteB e 12).testBit 11 = true)

/-- R509, R510, R512, R515 to R518, R530: an early configuration request gets retry status until the function is served; a later one
reads or sets a field; a failed host read is a Completer Abort that AER reports; an MSI-X cause is discarded and counted, pending, or sent; an unmask sends what is pending; a PTM dialogue latches the time
with the RTC; a write to the drain window is counted.
The model's choices: log entries 33, 36, 90. -/
def Obligations.HostRequests : Prop :=
  ∀ (m v : BitVec 6) (w : Word) (time : BitVec 64) (s u : State), domOn s 12 = true →
    let h := s.hostFn
    let up := flag s HB_LINK HB_LINK_UP
    let n := w.toNat % 64
    let message (x : State) (k : Nat) : Output :=
      .msix k ((msixWord x (4 * k)).toNat + 2 ^ 32 * (msixWord x (4 * k + 1)).toNat) (msixWord x (4 * k + 2))
    (up = true → Does (.configurationRequest .early) s (if h.served then s else { s with rstat := 1 }) ∧
      let g := { h with served := true }
      let goes (r : CfgReq) (x : HostFn) : Prop := Does (.configurationRequest r) s { s with hostFn := x, rstat := 0 }
      let answers (r : CfgReq) (v : Word) : Prop :=
        Does (.configurationRequest r) s { s with hostFn := g, rdata := v, rstat := 0 }
      answers (.read 0) 0x72641E6B ∧ answers (.read 8) 0x120000B1 ∧
      (∃ e, Does (.configurationRequest (.read 60)) s e ∧ bitsOf e.rdata.toNat 15 8 = 0) ∧
      answers (.capability .serialLow) (reg s MOD_SERIAL0) ∧ answers (.capability .serialHigh) (reg s MOD_SERIAL1) ∧
      (∃ e, Does (.configurationRequest (.capability .linkCap)) s e ∧ bitsOf e.rdata.toNat 3 0 = h.maxSpeed.toNat ∧
        bitsOf e.rdata.toNat 9 4 = h.maxWidth.toNat) ∧
      answers (.capability .uncorrectable) h.uncorr ∧ answers (.capability .correctable) h.corr ∧
      goes (.clear .uncorrectable w) { g with uncorr := h.uncorr &&& ~~~w } ∧
      goes (.clear .correctable w) { g with corr := h.corr &&& ~~~w } ∧
      (∀ b, goes (.memory b) { g with memEn := b }) ∧
      (∀ t, goes (.target t) { g with target := t }) ∧
      (∀ b, ∃ e, Does (.configurationRequest (.msix b true)) s e ∧ e.hostFn.msixEn = b ∧ e.hostFn.funcMask = true ∧
        flag e HB_LINK HB_LINK_MSIXEN = b ∧ e.rstat = 0) ∧
      ∃ e, Does (.configurationRequest (.power true)) s e ∧ getF e HB_LINK HB_LINK_DSTATE = 3 ∧ hostReady e = false) ∧
    (∀ a : Word, hostReady s = true → s.lat.fences = 0 → a.toNat % 4 = 0 → regionOf a.toNat = .device →
      domOn s (deviceDomain a.toNat).1 = true → meetsStopped s a.toNat = true → ∃ e,
      Does (.registerRead 36 (.fabric a)) s e ∧ e.rstat = 2 ∧ e.hostFn.uncorr = h.uncorr ||| 0x8000 ∧
        e.hostFn.corr = h.corr ||| 0x2000 ∧ OneMore s e HB_ERR HB_ERR_TGTERR) ∧
    (h.msixEn = true → getF s HB_LINK HB_LINK_DSTATE ≠ 3 → h.pba.getLsbD v.toNat = true →
      (h.funcMask = false → hostReady s = true → s.lat.fences = 0 → ∃ e, Does (.msixVectorUnmask (some v)) s e ∧
        vectorMasked e v.toNat = false ∧ message s v.toNat ∈ e.out ∧ e.hostFn.pba.getLsbD v.toNat = false) ∧
      (vectorMasked s v.toNat = false → up = true → ∃ e, Does (.msixVectorUnmask none) s e ∧ e.hostFn.funcMask = false ∧
        message s v.toNat ∈ e.out ∧ e.hostFn.pba.getLsbD v.toNat = false)) ∧
    (Reaches s m.toNat HB_MSIGEN u → ∃ e, Writes (.hbMsigenWrite m w) s e ∧
      (n < 4 → getF u HB_ERR HB_ERR_MSIDROP ≠ 0 → OneMore u e HB_ERR HB_ERR_MSIDROP ∧ e.out = u.out) ∧
      (4 ≤ n → domOn u 12 = true →
        (u.hostFn.msixEn = false → e.out = u.out ∧ e.hostFn = u.hostFn ∧
          (getF u HB_ERR HB_ERR_MSIDROP ≠ 0 → OneMore u e HB_ERR HB_ERR_MSIDROP)) ∧
        (u.hostFn.msixEn = true → getF u HB_LINK HB_LINK_DSTATE ≠ 3 → u.hostFn.funcMask = false →
          (vectorMasked u n = true → e.out = u.out ∧ e.hostFn.pba.getLsbD n = true) ∧
          (vectorMasked u n = false → e.out = message u n :: u.out ∧ e.hostFn = u.hostFn)))) ∧
    (up = true → ∃ e, Does (.ptmDialogue time) s e ∧ e.out = .ptm :: s.out ∧
      e.hostFn = { h with ptmTime := time, ptmSec := s.rtc.sec.setWidth 32, ptmSub := s.rtc.sub }) ∧
    (hostReady s = true → s.lat.fences = 0 → ∃ e, Does .drainWindowWrite s e ∧ OneMore s e LAT_STATUS LAT_STATUS_MWERR ∧ MemSame s e)

/-- R520 to R522, R524: words reach the frame assembler from MBX_CMD and the service UART; a whole frame with a right CRC is
queued, or answered QFULL where eight are, any other is counted and dropped; a gap drops a part frame; responses are read out in
order. The doorbell carries STOP-INTAKE and RESUME-INTAKE, and counts any other word.
The model's choices: log entries 28, 75. -/
def Obligations.MailboxFrames : Prop :=
  ∀ (x y v : Word) (args : List Word) (be : BitVec 4) (s : State),
    let b := s.mbx
    let with_ (m : Mailbox) : State := { s with mbx := m }
    let arrives (v : Word) (e : State) : Prop := (hostReady s = true → s.lat.fences = 0 → Does (.mbxCmdWord v 15) s e) ∧
      (clocked s 17 = true → b.uart = [] → Does (.serviceUartWord (leBytes 4 v.toNat)) s e)
    ((b.asm = [] → v.toNat / 65536 ≠ 0x5342 → arrives v s) ∧
      (b.asm = [] → v.toNat / 65536 = 0x5342 → arrives v (with_ { b with asm := [v] })) ∧
      (b.asm = [x] → v.toNat ≤ 256 → arrives v (with_ { b with asm := [x, v] })) ∧
      (b.asm = [x] → 256 < v.toNat → ∃ e, arrives v e ∧ OneMore s e HB_MBXCNT HB_MBXCNT_BADHDR ∧ e.mbx = { b with asm := [] }) ∧
      (b.asm = x :: y :: args → args.length < y.toNat → arrives v (with_ { b with asm := x :: y :: (args ++ [v]) })) ∧
      (b.asm = x :: y :: args → args.length = y.toNat →
        (v ≠ crc32 (ofWords b.asm) → ∃ e, arrives v e ∧ OneMore s e HB_MBXCNT HB_MBXCNT_CRCERR ∧ e.mbx = { b with asm := [] }) ∧
        (v = crc32 (ofWords b.asm) → b.queue.length < 8 → ∃ e, arrives v e ∧ bit512 e.pic.pend 96 = true ∧ e.mbx = { b with
            asm := []
            queue := b.queue ++ [{ code := BitVec.ofNat 8 (x.toNat / 256), tag := BitVec.ofNat 8 x.toNat, args := args }] }) ∧
        (v = crc32 (ofWords b.asm) → 8 ≤ b.queue.length → ∃ e, arrives v e ∧
          let l : List Word := [0x53520000 ||| (x.setWidth 16).setWidth 32, 0x08000000]
          (b.rsp.length ≤ 1021 → e.mbx = { b with asm := [], rsp := b.rsp ++ (l ++ [crc32 (ofWords l)]) }) ∧
          (1021 < b.rsp.length → e.mbx = { b with asm := [] } ∧ OneMore s e HB_MBXCNT HB_MBXCNT_RSPLOST)))) ∧
    (hostReady s = true → s.lat.fences = 0 →
      (be ≠ 15 → ∃ e, Does (.mbxCmdWord v be) s e ∧ e.mbx = b ∧ OneMore s e HB_ERR HB_ERR_PARTIAL) ∧
      (∀ r, b.rsp = v :: r → Does .mbxRspRead s { s with mbx := { b with rsp := r }, rdata := v, rstat := 0 }) ∧
      (b.rsp = [] → Does .mbxRspRead s { s with rdata := 0, rstat := 0 }) ∧
      (v ≠ 0x50440001 → v ≠ 0x50440002 → ∃ e, Does (.registerWrite 36 (.mailbox 0x1000) v 15) s e ∧
        OneMore s e HB_ERR HB_ERR_DOORBELL ∧ reg e MOD_STOP = reg s MOD_STOP ∧ reg e MOD_STATUS = reg s MOD_STATUS ∧ e.pic = s.pic) ∧
      (stopLost s 0 = true → Does .doorbellStopIntake s (srcEvent s 97) ∧ Does .doorbellResumeIntake s (srcEvent s 97)) ∧
      (stopLost s 0 = false → ∃ e, Does .doorbellStopIntake s e ∧ flag e MOD_STOP MOD_STOP_HOSTSTOP = true ∧
        flag e MOD_STATUS MOD_STATUS_INTAKE = false ∧ bit512 e.pic.pend 97 = true) ∧
      (stopLost s 0 = false → ∃ e, Does .doorbellResumeIntake s e ∧ flag e MOD_STOP MOD_STOP_HOSTSTOP = false ∧
        flag e MOD_STATUS MOD_STATUS_INTAKE = intakeAllowed e ∧ bit512 e.pic.pend 97 = true)) ∧
    (∃ e, Does .frameAbandon s e ∧ e.mbx = { b with asm := [], uart := [] } ∧
      (b.asm ≠ [] → OneMore s e HB_MBXCNT HB_MBXCNT_ABANDON))

/-- R384, R524 to R526, R528: the checks that come before a command's own, and the commands that ask, load and clear keys. A
command answered with a status other than OK changes nothing but the mailbox.
The model's choices: log entries 34, 91. -/
def Obligations.MailboxCommands : Prop :=
  ∀ (f : Frame) (r : List Frame) (how : ActEnd) (st : SelfTest) (noise : List Byte) (code : Nat) (c : Instr) (s : State),
    s.mbx.queue = f :: r → s.mbx.owed = 0 → f.code.toNat = code →
    (code, c) ∈ [(0x01, .nop), (0x02, .status), (0x03, .switchProfile st noise), (0x10, .keyLoad), (0x11, .keyZero), (0x12, .keyInfo),
      (0x20, .updBegin), (0x21, .updData), (0x22, .updVerify), (0x23, .updActivate how st noise), (0x24, .updConfirm), (0x25, .updAbort)] →
    let a := f.args
    let ready := flag s MOD_STATUS MOD_STATUS_READY
    let free := code = 1 ∨ code = 2
    let allowed := free ∨ code = 0x11 ∨ code = 0x12
    let answers (n : Nat) (l : List Word) : Prop := Does c s (respond { s with mbx := { s.mbx with
      queue := r
      results := [] } } f n l)
    let k := (a.getD 0 0).toNat
    let version := a.getD 1 0
    (safeHalt s = true → ¬ allowed → answers 4 []) ∧
    (safeHalt s = false → ready = false → ¬ free → answers 5 []) ∧
    (code = 1 → answers 0 a) ∧
    (code = 2 → answers (if a = [] then 0 else 2) (if a = [] then [reg s MOD_STATUS, reg s WV_STATUS, reg s SUP_STATUS,
      reg s LED_DURSEQLO, reg s LED_DURSEQHI, reg s WS_INFLIGHT] else [])) ∧
    (ready = true → code = 0x12 → answers (if a = [] then 0 else 2) (if a = [] then
      BitVec.ofNat 32 (getF s TMP_KEYPRES TMP_KEYPRES_PRES) :: (List.range 4).map (fun j => if keyPresent s j then keyVersion s j else 0)
      else [])) ∧
    (ready = true → code = 0x10 → safeHalt s = false →
      (keyArgsOk a = false → answers 2 []) ∧
      (keyArgsOk a = true → keyPresent s k = true → version.toNat ≤ (keyVersion s k).toNat → answers 7 []) ∧
      (keyArgsOk a = true → keyPresent s k = false ∨ (keyVersion s k).toNat < version.toNat → tamperPersists s = false →
        s.islandOff = false → recordsGo s = true → ∃ e, Does c s e ∧ keyPresent e k = true ∧ keyVersion e k = version ∧
        (getKey e k).key = ofWords (a.drop 2) ∧ e.mbx.owed = 1 ∧ e.mbx.queue = f :: r ∧
        e.mbx.results = packLE (checkValue k (ofWords (a.drop 2))) ∧ (∀ j, j < 4 → j ≠ k → keyPresent e j = keyPresent s j))) ∧
    (ready = true → code = 0x11 → (a.length ≠ 1 ∨ 16 ≤ k → answers 2 []) ∧
      (a.length = 1 → k < 16 → ∃ e, Does c s e ∧
        (∀ j, j < 4 → k.testBit j = true → keyPresent e j = false ∧ keyVersion e j = 0 ∧ getKey e j = {}) ∧
        (∀ j, j < 4 → k.testBit j = false → keyPresent e j = keyPresent s j ∧ keyVersion e j = keyVersion s j ∧ getKey e j = getKey s j) ∧
        e.mbx.owed = if safeHalt s || !recordsGo s then 0 else ((List.range 4).filter (fun j => k.testBit j)).length))

/-- R525, R526, R568, R570, R571, R574: the stages of an image update. A command that the stage forbids answers STATE; BEGIN records target and
length, DATA writes the staging slot, VERIFY passes or fails the image, ACTIVATE of a weave copies it into its slot, CONFIRM
and ABORT end the update. Power that fails within ACTIVATE leaves part of the slot, or the new FWSEL with TRIES 3.
The model's choices: log entries 34, 35, 61, 75. -/
def Obligations.ImageUpdates : Prop :=
  ∀ (f : Frame) (r : List Frame) (how : ActEnd) (st : SelfTest) (noise : List Byte) (s : State),
    s.mbx.queue = f :: r → s.mbx.owed = 0 → safeHalt s = false → flag s MOD_STATUS MOD_STATUS_READY = true → recordsGo s = true →
    let a := f.args
    let stage := updStage s
    let n := (a.getD 1 0).toNat
    let k := (a.getD 0 0).toNat
    let answers (c : Instr) (x : Nat) : Prop := Does c s (respond { s with mbx := { s.mbx with
      queue := r
      results := [] } } f x [])
    let answered (e : State) (l : List Word) : Prop := e.mbx.queue = r ∧ e.mbx.owed = 0 ∧
      (s.mbx.rsp.length + l.length + 3 ≤ 1024 → e.mbx.rsp = s.mbx.rsp ++ responseFrame f 0 l)
    let got := getF s UPD_RCVD UPD_RCVD_BYTES
    let len := getF s UPD_LEN UPD_LEN_BYTES
    (f.code = 0x20 → a.length = 2 → k ∈ [0, 4, 5, 6, 7] → updLengthOk k n = true → targetRuns s k = false →
      (stage ≠ 0 → answers .updBegin 6) ∧
      (stage = 0 → ∃ e, Does .updBegin s e ∧ answered e [] ∧ updStage e = 1 ∧ updTarget e = k ∧ getF e UPD_LEN UPD_LEN_BYTES = n ∧
        getF e UPD_RCVD UPD_RCVD_BYTES = 0)) ∧
    (f.code = 0x21 → 2 ≤ a.length → k = got → got + 4 * (a.length - 1) ≤ len →
      (stage ≠ 1 → answers .updData 6) ∧
      (stage = 1 → ∃ e, Does .updData s e ∧ answered e [] ∧ getBytes e (stagingAddr + got) (4 * (a.length - 1)) = ofWords (a.drop 1) ∧
        getF e UPD_RCVD UPD_RCVD_BYTES = got + 4 * (a.length - 1) ∧ updStage e = 1)) ∧
    (f.code = 0x22 → a = [] →
      (stage ≠ 1 ∨ got ≠ len → answers .updVerify 6) ∧
      (stage = 1 → got = len → ∃ e, Does .updVerify s e ∧ answered e [BitVec.ofNat 32 (checkStaging s).1] ∧
        updStage e = (if (checkStaging s).1 = 0 then 2 else 0) ∧ getF e UPD_STATUS UPD_STATUS_ERROR = (checkStaging s).1 % 256)) ∧
    (f.code = 0x23 → a = [] →
      (stage ≠ 2 → answers (.updActivate how st noise) 6) ∧
      (stage = 2 → 4 ≤ updTarget s → updTarget s < 8 →
        let holds (e : State) (n : Nat) : Prop := s.wf = true → ∀ i, i < n →
          getByte e (wvSlotAddr (updTarget s - 4) + i) = getByte s (stagingAddr + i)
        (∃ e, Does (.updActivate .differs st noise) s e ∧ updStage e = 0 ∧ answered e []) ∧
        (∃ e, Does (.updActivate .good st noise) s e ∧ updStage e = 0 ∧ e.mbx.owed = 1 ∧ holds e 0x40000) ∧
        ∀ n, ∃ e, Does (.updActivate (.failCopy n) st noise) s (powerFail e) ∧ holds e (min n.toNat 0x40000 / 8 * 8)) ∧
      (stage = 2 → updTarget s = 0 →
        let old := (readFwsel s).act
        (∃ e, Does (.updActivate .differs st noise) s e ∧ answered e [] ∧ updStage e = 0) ∧
        (∀ n, ∃ e, Does (.updActivate (.failCopy n) st noise) s (powerFail e) ∧ (s.wf = true → readFwsel e = readFwsel s ∧
          ∀ i, i < min n.toNat 0x400000 / 8 * 8 → getByte e (fwSlotAddr (1 - old) + i) = getByte s (stagingAddr + i))) ∧
        ∀ begun, ∃ e, Does (.updActivate (.failLate begun) st noise) s (powerFail e) ∧ (s.wf = true →
          (readFwsel e).act = 1 - old ∧ (readFwsel e).unconf = true ∧ (readFwsel e).tries = 3))) ∧
    (f.code = 0x24 → a = [] →
      let runs := flag s BOOT_STATUS BOOT_STATUS_FWOK = true ∧ getF s WV_STATUS WV_STATUS_STATE = 2 ∧
        flag s BOOT_STATUS BOOT_STATUS_SELFTEST = false
      (stage ≠ 4 ∨ ¬ runs → answers .updConfirm 6) ∧
      (stage = 4 → runs → ∃ e, Does .updConfirm s e ∧ answered e [] ∧ updStage e = 0 ∧ (readFwsel e).act = (readFwsel s).act ∧
        (readFwsel e).unconf = false ∧ (readFwsel e).tries = 0 ∧ (readFwsel e).rprof = 0 ∧
        reg e BOOT_STATUS = reg s BOOT_STATUS)) ∧
    (f.code = 0x25 → a = [] →
      (3 ≤ stage → answers .updAbort 6) ∧
      (stage < 3 → ∃ e, Does .updAbort s e ∧ answered e [] ∧ updStage e = 0))

/-- R51, R55, R58, R59, R526, R556, R568, R570: the release of power-on reset, a profile switch and the activation of firmware end in a
booted card: READY, step 7, the update stage by UNCONF, boot's stop bit clear unless the scan lock is set, intake as it is
allowed. A write of BOOT_CTL, by the host or from supervisor mode alone, pends until the boot control block holds it.
The model's choices: log entries 24, 26, 28, 60, 72. -/
def Obligations.Boots : Prop :=
  ∀ (f : Frame) (r : List Frame) (psel : BitVec 2) (m : BitVec 6) (v : Word) (st : SelfTest) (noise : List Byte) (s u : State),
    let booted (e : State) : Prop := flag e MOD_STATUS MOD_STATUS_READY = true ∧ getF e BOOT_STATUS BOOT_STATUS_STEP = 7 ∧
      updStage e = (if flag e BOOT_STATUS BOOT_STATUS_UNCONF then 4 else 0) ∧ flag e MOD_STATUS MOD_STATUS_INTAKE = intakeAllowed e ∧
      (flag e MOD_STOP MOD_STOP_SCANLOCK = false → flag e MOD_STOP MOD_STOP_BOOTSTOP = false)
    (∃ e, Does (.powerOnResetRelease psel st noise) s e ∧ booted e) ∧
    (s.mbx.queue = f :: r → s.mbx.owed = 0 → safeHalt s = false → flag s MOD_STATUS MOD_STATUS_READY = true →
      (f.code = 3 → ∀ w, f.args = [w] → w.toNat % 256 < 4 → w.toNat < 512 →
        (3 ≤ updStage s → Does (.switchProfile st noise) s (respond { s with mbx := { s.mbx with
          queue := r
          results := [] } } f 3 [])) ∧
        (updStage s < 3 → ∃ e, Does (.switchProfile st noise) s e ∧ booted e)) ∧
      (f.code = 0x23 → f.args = [] → updStage s = 2 → recordsGo s = true → updTarget s = 0 →
        ∃ e, Does (.updActivate .good st noise) s e ∧ booted e)) ∧
    (Reaches s m.toNat BOOT_CTL u → m ≠ 36 → 32 ≤ m.toNat ∨ supervisor (getT u m.toNat) = false → Writes (.bootCtlWrite m v) s u) ∧
    (Reaches s m.toNat BOOT_CTL u → m = 36 ∨ m.toNat < 32 ∧ supervisor (getT u m.toNat) = true →
      ∃ e, Writes (.bootCtlWrite m v) s e ∧ flag e BOOT_CTL BOOT_CTL_PEND = true ∧
      getF e BOOT_CTL BOOT_CTL_NEXTPROF = bitsOf v.toNat 5 4 ∧ flag e BOOT_CTL BOOT_CTL_PINSEL = v.getLsbD 0) ∧
    (flag s BOOT_CTL BOOT_CTL_PEND = true → ∃ e, Does .bootCtlDurable s e ∧ flag e BOOT_CTL BOOT_CTL_PEND = false ∧
      bit512 e.pic.pend 87 = true ∧
      bcbWord e 0 = b2n (flag s BOOT_CTL BOOT_CTL_PINSEL) + 16 * getF s BOOT_CTL BOOT_CTL_NEXTPROF)

/-! ### Network, tamper, audit -/

/-- R491, R532 to R535: the link of a port is up by its locks, its fault and absence pins show at once, and a module read ends with
its bytes or with NAK. When a command ends, every pin that the card may drive shows what its block drives, or floats.
R536, R537, R540 to R543: a received frame fails one of the checks in their order and is counted, goes to the slow path, or
carries a datagram that intake, throttle and classifier admit or count; an admitted one is pushed whole into the queue of its
session, and its peer is recorded.
The model's choices: log entries 18, 37, 88. -/
def Obligations.FramesAndPorts : Prop :=
  (∀ (p : BitVec 1) (blk fec ok los b : Bool) (m : BitVec 6) (v : Word) (s u : State),
      let P := p.toNat
      let S := ETH_STATUS P
      let wide := ethGen s P = 3 ∨ ethGen s P = 4
      let runs := portClocked s P && ethGen s P != 0
      (domOn s (13 + P) = true → ∃ e, Does (.ethLinkChange p blk fec ok los) s e ∧ flag e S ETH_STATUS_LOS = los ∧
        flag e S ETH_STATUS_BLKLOCK = (runs && blk) ∧ (wide → flag e S ETH_STATUS_FECLOCK = (runs && fec) ∧
          flag e S ETH_STATUS_UP = (runs && blk && fec)) ∧
        (¬ wide → flag e S ETH_STATUS_FECLOCK = false ∧ flag e S ETH_STATUS_UP = (runs && blk && ok))) ∧
      (∃ e, Does (.txFault p b) s e ∧ flag e S ETH_STATUS_TXFAULT = b ∧ (b = true → txDisabled e P = true)) ∧
      (∃ e, Does (.modAbsChange p b) s e ∧ flag e S ETH_STATUS_MODABS = b ∧
        (flag s S ETH_STATUS_MODABS ≠ b → clocked s (13 + P) = true → bit512 e.pic.pend (114 + 4 * P) = true)) ∧
      (Reaches s m.toNat (ETH_SFPCMD P) u → v.getLsbD 31 = true → ∃ e, Writes (.sfpRead m p v) s e ∧
        flag e (ETH_SFPCMD P) ETH_SFPCMD_BUSY = true ∧ (flag u (ETH_SFPCMD P) ETH_SFPCMD_BUSY = false →
          tget (fun _ => 0) e.net.sfp P = getF e (ETH_SFPCMD P) ETH_SFPCMD_COUNT + 1)) ∧
      (flag s (ETH_SFPCMD P) ETH_SFPCMD_BUSY = true → clocked s (13 + P) = true →
        (flag s S ETH_STATUS_MODABS = false → ∃ e, Does (.sfpReadDone p (some v)) s e ∧ flag e (ETH_SFPCMD P) ETH_SFPCMD_BUSY = false ∧
          (reg e (ETH_SFPDATA P)).toNat = v.toNat % 2 ^ (8 * tget (fun _ => 0) s.net.sfp P)) ∧
        ∃ e, Does (.sfpReadDone p none) s e ∧ flag e (ETH_SFPCMD P) ETH_SFPCMD_BUSY = false ∧
          flag e (ETH_SFPCMD P) ETH_SFPCMD_NAK = true ∧ reg e (ETH_SFPDATA P) = 0) ∧
      ∀ (c : Instr) (w : State), exec c s = .next w → ∀ i ∈ outPads, tget padInit w.pads i = padNow w i ∧
        (domOn w (padDomain i) = false → padDomain i ≠ 0 → padNow w i = none) ∧
        (w.aud.tap.ir.toNat ∉ [3, 4, 5] → padOn w i = true → padNow w i = padBlock w i)) ∧
  (∀ (p : BitVec 1) (b : List Byte) (corr uncorr : BitVec 16) (s : State),
      let P := p.toNat
      let y := if ethGen s P = 3 ∨ ethGen s P = 4
        then incSat (incSat s (ETH_FEC P) ETH_FEC_CORR corr.toNat) (ETH_FEC P) ETH_FEC_UNCORR uncorr.toNat else s
      let D0 := ETH_RXDROP0 P
      let D1 := ETH_RXDROP1 P
      let gated := intakeFit s = false ∨ tget (fun _ => 0) s.net.stops P ≠ 0
      let drops (a : Nat) (f : Fld) : Prop := ∃ e, Does (.ethFrameReceive p b corr uncorr) s e ∧ OneMore y e a f ∧
        e.net = s.net ∧ e.qe = s.qe ∧ e.mem = s.mem
      domOn s (13 + P) = true → flag s (ETH_STATUS P) ETH_STATUS_UP = true →
      (b.length < 64 ∨ 1522 < b.length ∨ (crc32 (b.take (b.length - 4))).toNat ≠ leNat (b.drop (b.length - 4)) → drops D0 ETH_RXDROP0_L2) ∧
      (64 ≤ b.length → b.length ≤ 1518 → (crc32 (b.take (b.length - 4))).toNat = leNat (b.drop (b.length - 4)) →
        beAt b 12 2 ≠ 0x8100 → beAt b 12 2 ≠ 0x8808 → dstOk y P (b.take 6) = false → drops D0 ETH_RXDROP0_ADDR) ∧
      (∀ f, rxFrame y P b = .drop0 f → drops D0 f) ∧
      (∀ f, rxFrame y P b = .dgram f → drops D1 f) ∧
      (∀ r l, rxFrame y P b = .slow r l → (safeHalt s = true → Does (.ethFrameReceive p b corr uncorr) s y) ∧
        (safeHalt s = false → ∃ e, Does (.ethFrameReceive p b corr uncorr) s e ∧
        OneMore (pushPacket y ethRouter (0xFF500 + P) (BitVec.ofNat 32 (l.length + r * 65536) :: packBytes l)) e (ETH_SLOW P) ETH_SLOW_PUSHED)) ∧
      (∀ d src sp lp, rxFrame y P b = .datagram d src sp lp →
        (gated → drops D1 ETH_RXDROP1_STOP) ∧
        (¬ gated →
          (s.lat.throttle = true → portRate y P ≤ admitted y P → drops D1 ETH_RXDROP1_THROT) ∧
          (s.lat.throttle = false → classify y (dgSession d) = none → drops D1 ETH_RXDROP1_NOSESSION) ∧
          (∀ c, s.lat.throttle = false → classify y (dgSession d) = some c → ∃ e, Does (.ethFrameReceive p b corr uncorr) s e ∧
            OneMore (pushPacket y ethRouter (sessionQueue y c (dgSession d)) (packBytes d)) e (ETH_RXOK P) ETH_RXOK_COUNT ∧
            tget (fun _ => none) e.net.peers (256 * P + c) = some (framePeer b src sp lp)))))

/-- R544 to R548, R552: a dispatch pops its receipt packet and is answered by the checks in their order; a receipt sent is handed to
the transmitter of its port. A raw frame is sent as it stands, and is dropped and counted when it cannot be. A packet whose frame
finds the serial buffer full waits in its queue, and a pop that breaks the queue sends and answers nothing.
The model's choices: log entry 37. -/
def Obligations.Egress : Prop :=
  ∀ (p : BitVec 2) (u v : QueueUpset) (s : State), egressReady s p.toNat = true →
    let P := p.toNat
    let n := peekLen s (0xFF510 + P)
    let k := (popPacket s ethRouter (0xFF510 + P) u).1
    let y := (popPacket s ethRouter (0xFF510 + P) u).2
    let tid := k.words.getD 0 0
    let w2 := (k.words.getD 2 0).toNat
    let r := if w2.testBit 20 then (popPacket y ethRouter (w2 % 2 ^ 20) v).1 else packetOf []
    let z := if w2.testBit 20 then (popPacket y ethRouter (w2 % 2 ^ 20) v).2 else y
    let result (x : State) (st session : Nat) : State := pushPacket x ethRouter 0xFF010 [tid, withResult (k.words.getD 1 0) (if st = 0 then 0 else 2),
      BitVec.ofNat 32 (0x50000000 + st * 2 ^ 24 + session)]
    let room (x : State) : State := if x.net.sent.length ≤ 16 then x else s
    let ends (x : State) : Prop := Does (.egressDispatch p u v) s (room x)
    let raw (x : State) : Prop := Does (.egressRawFrame p u) s (room x)
    (n < 3 ∨ 385 < n → Does (.egressDispatch p u v) s (egressErr y P 5) ∧ Does (.egressRawFrame p u) s (egressErr y P 5)) ∧
    (3 ≤ n → n ≤ 15 →
      (k.words = [] → ends y) ∧
      (k.words ≠ [] → k.bad = true → ends (egressErr y P 5)) ∧
      (k.words ≠ [] → k.bad = false →
        (r.words = [] → ends (result (egressErr z P 4) 4 0)) ∧
        (r.words ≠ [] → r.bad = true → ends (result (egressErr z P 6) 6 0)) ∧
        (r.words ≠ [] → r.bad = false → receiptOf tid r = none → ends (result (egressErr z P 5) 5 0)) ∧
        ∀ d, r.words ≠ [] → r.bad = false → receiptOf tid r = some d →
          let c := classify z (dgSession d)
          (egressDown z P = true → ends (result (egressErr z P 3) 3 (dgSession d))) ∧
          (egressDown z P = false → c = none → ends (result (egressErr z P 2) 2 (dgSession d))) ∧
          (egressDown z P = false → c ≠ none → P = 2 →
            ends (result { z with net := { z.net with sent := z.net.sent ++ [d] } } 0 (dgSession d))) ∧
          ∀ j, egressDown z P = false → c = some j → P < 2 →
            let peer := tget (fun _ => none) z.net.peers (256 * P + j)
            (peer = none → ends (result (egressErr z P 1) 1 (dgSession d))) ∧
            ∀ x, peer = some x → ∃ w, ends (result w 0 (dgSession d)) ∧ OneMore z w (ETH_TXOK P) ETH_TXOK_COUNT ∧
              w.net = z.net ∧ w.out = (sendReceipt z P x d).out)) ∧
    (16 ≤ n → n ≤ 385 →
      (k.words = [] → raw y) ∧
      (k.words ≠ [] → rawBytes P k = none → raw (egressErr y P 5)) ∧
      ∀ f, k.words ≠ [] → rawBytes P k = some f →
        (egressDown y P = true → raw (egressErr y P 3)) ∧
        (egressDown y P = false → P < 2 → ∃ e, raw e ∧ OneMore y e (ETH_TXOK P) ETH_TXOK_COUNT ∧ e.net = y.net ∧
          e.out = .ethFrame P (f ++ leBytes 4 (crc32 f).toNat) :: y.out) ∧
        (egressDown y P = false → P = 2 → raw { y with net := { y.net with sent := y.net.sent ++ [f] } }))

/-- R549, R550: frames of bytes on the line are read back from its levels, with the 0s that follow five 1s removed; seven 1s abort a
frame.
R225, R549 to R552: what the line shows is taken frame by frame; in safe halt nothing is. A frame that is cut, fails its FCS or
has another CTRL is counted; one for another station is ignored; a datagram enters intake and other data the slow path; a frame
with P = 1 is answered by up to 8 frames of the transmit buffer, the last with F = 1, or by one POLL or BUSY.
The model's choices: log entries 18, 32, 37, 89. -/
def Obligations.SerialLine : Prop :=
  (
    (∀ l : List (List Byte), (∀ b ∈ l, b ≠ []) →
      lineItems 0 none (nrziIn true (lineOf l)) = l.map (fun b => .frame (lineBits b))) ∧
    (∀ b : List Byte, b ≠ [] →
      lineItems 0 none (lineFlag ++ stuffed 0 (lineBits b) ++ List.replicate 7 true) = [.abort]) ∧
    ∀ b : List Byte, lineBytes b.length (lineBits b) = b) ∧
  (∀ (b : List Byte) (line : List Bool) (before : Bool) (s x : State), serRuns s = true →
      (safeHalt s = true → Does (.serFrameReceive line before) s s) ∧
      (safeHalt s = false → Does (.serFrameReceive line before) s
        ((lineItems 0 none (nrziIn before line)).foldl serItem { s with net := { s.net with driving := false } })) ∧
      let n := b.length
      let ctrl := beAt b 1 1
      let info := (b.take (n - 2)).drop 2
      let gives (e : State) : Prop := serItem s (.frame (lineBits b)) = e
      let y := incSat s SER_RX SER_RX_FRAMES 1
      let right := 4 ≤ n ∧ n ≤ 1076
      let sound := right ∧ fcs16 (b.take (n - 2)) = leNat (b.drop (n - 2))
      let mine := sound ∧ ctrl < 16 ∧ ctrl / 2 % 8 ≤ 2 ∧ beAt b 0 1 = getF s SER_CFG SER_CFG_ADR
      let counts (i : LineItem) (f : Fld) : Prop := OneMore s (serItem s i) SER_RX f ∧ bit512 (serItem s i).pic.pend 121 = true
      counts .abort SER_RX_OTHER ∧
      (¬ right → counts (.frame (lineBits b)) SER_RX_OTHER) ∧
      (right → ¬ sound → counts (.frame (lineBits b)) SER_RX_FCSERR) ∧
      (∀ l, l.length % 8 ≠ 0 → counts (.frame l) SER_RX_FCSERR) ∧
      (sound → 16 ≤ ctrl ∨ 2 < ctrl / 2 % 8 → gives (incSat s SER_RX SER_RX_OTHER 1)) ∧
      (sound → ctrl < 16 → ctrl / 2 % 8 ≤ 2 → beAt b 0 1 ≠ getF s SER_CFG SER_CFG_ADR → gives s) ∧
      (mine → (ctrl = 0 → gives (serData y info)) ∧ (ctrl = 1 → gives (serAnswer (serData y info))) ∧
        (ctrl = 2 ∨ ctrl = 4 → gives y) ∧ (ctrl = 3 ∨ ctrl = 5 → gives (serAnswer y))) ∧
      (datagramOk info = false →
        serData x info = pushPacket x ethRouter 0xFF502 (BitVec.ofNat 32 (info.length + 4 * 65536) :: packBytes info)) ∧
      (datagramOk info = true →
        let gated := intakeFit x = false ∨ tget (fun _ => 0) x.net.stops 2 ≠ 0
        (gated → serData x info = incSat x SER_DROP SER_DROP_STOP 1) ∧
        (¬ gated → x.lat.throttle = true → serData x info = incSat x SER_DROP SER_DROP_THROT 1) ∧
        (¬ gated → x.lat.throttle = false →
          (classify x (dgSession info) = none → serData x info = incSat x SER_DROP SER_DROP_NOSESSION 1) ∧
          ∀ c, classify x (dgSession info) = some c →
            serData x info = pushPacket x ethRouter (sessionQueue x c (dgSession info)) (packBytes info))) ∧
      ∃ l, serAnswer x = { x with out := .serLine (lineOf l) :: x.out, net := { x.net with sent := x.net.sent.drop 8, driving := true } } ∧
        (x.net.sent = [] → l = [serFrameOf x (if serBusy x then 2 else 1) true []]) ∧
        (x.net.sent ≠ [] → l.length = min 8 x.net.sent.length ∧
          ∀ i (h : i < l.length), l[i] = serFrameOf x 0 (i + 1 == l.length) (x.net.sent.getD i [])))

/-- R581 to R583, R585, R586, R588: an open armed cover loop, a temperature outside its window and a glitch of VAON clear the key
store and the draw instances, set KEYLOST, stop intake and write a tamper log entry with their cause, once for each
excursion; the end of an excursion arms its trigger again.
R575, R577 to R580, R584: the source shown, the charger and its stop, and the clearing of BATGONE; a loss of both sources, as
a switch to a cell that has been taken out is one, loses the count, keys and log and ends in the power-on reset, and the supply's
return marks count and keys invalid.
The model's choices: log entries 7, 38, 39, 73, 76. -/
def Obligations.TamperAndIsland : Prop :=
  (∀ (ohms code : BitVec 12) (mv : BitVec 16) (m : BitVec 6) (s u : State),
      let zeroised (x e : State) (cause reading : Nat) : Prop :=
        (∀ k, k < 4 → keyPresent e k = false ∧ keyVersion e k = 0 ∧ getKey e k = {}) ∧ flag e TMP_STATUS TMP_STATUS_KEYLOST = true ∧
        flag e MOD_STATUS MOD_STATUS_KEYLOST = true ∧ flag e MOD_STATUS MOD_STATUS_INTAKE = false ∧ bit512 e.pic.pend 82 = true ∧
        flag e DRW_STATUS DRW_STATUS_SEEDED = false ∧ OneMore x e TMP_LOGCNT TMP_LOGCNT_COUNT ∧
        (tget (fun _ => 0) e.tlog ((reg x TMP_LOGCNT).toNat % 16)).toNat % 2 ^ 64 = (reg x TMP_LOGCNT).toNat +
          2 ^ 32 * (cause + 256 * b2n (flag x TMP_STATUS TMP_STATUS_RTCINV) + 65536 * reading)
      let quiet (x e : State) : Prop := e.keys = x.keys ∧ e.tlog = x.tlog ∧ ∀ k, k < 4 → keyPresent e k = keyPresent x k
      let open_ (x : State) := flag x TMP_STATUS TMP_STATUS_LOOPOPEN
      let armed (x : State) := flag x TMP_CTL TMP_CTL_LOOPEN
      (s.islandOff = false →
        (400 < ohms.toNat → ∃ e, Does (.coverLoop ohms) s e ∧ open_ e = true ∧ getF e TMP_SENSE TMP_SENSE_LOOP = ohms.toNat ∧
          (armed s = true → tamperActed s 0 = false → zeroised s e 1 ohms.toNat) ∧
          (armed s = false ∨ tamperActed s 0 = true → quiet s e)) ∧
        (ohms.toNat ≤ 500 → ∃ e, Does (.coverLoopClosed ohms) s e ∧ open_ e = false ∧ tamperActed e 0 = false ∧ quiet s e) ∧
        (code.toNat < 544 ∨ 2544 < code.toNat → ∃ e, Does (.temperature code) s e ∧ flag e TMP_STATUS TMP_STATUS_TEMPOUT = true ∧
          (tamperActed s 1 = false → zeroised s e (if code.toNat < 544 then 2 else 3) code.toNat) ∧ (tamperActed s 1 = true → quiet s e)) ∧
        (544 ≤ code.toNat → code.toNat ≤ 2544 → Does (.temperature code) s s) ∧
        (544 ≤ code.toNat → code.toNat ≤ 2544 → ∃ e, Does (.tamperTemperatureNormal code) s e ∧
          flag e TMP_STATUS TMP_STATUS_TEMPOUT = false ∧ quiet s e ∧
          tamperActed e 1 = (tamperActed s 1 && !(624 ≤ code.toNat && code.toNat ≤ 2464))) ∧
        (mv.toNat < 1050 ∨ 1400 < mv.toNat → (∃ e, Does (.vaonGlitch mv false) s e ∧ zeroised s e 4 mv.toNat) ∧
          (tamperActed s 2 = true → Does (.vaonGlitch mv true) s s))) ∧
      (Reaches s m.toNat TMP_CTL u → u.islandOff = false → ∃ e, Writes (.loopen m) s e ∧ armed e = true ∧
        (open_ u = true → tamperActed u 0 = false → zeroised u e 1 (getF u TMP_SENSE TMP_SENSE_LOOP)) ∧ (open_ u = false → quiet u e))) ∧
  (∀ (m : BitVec 6) (cell inRange : Bool) (s u : State),
      let st (x : State) (f : Fld) := flag x TMP_STATUS f
      let charges (x : State) := !st x TMP_STATUS_SRC && !flag x TMP_CTL TMP_CTL_CHGOFF && !st x TMP_STATUS_BATGONE
      (s.islandOff = false →
        (cell = false ∨ st s TMP_STATUS_BATGONE = false ∨ s.vbatIn = true →
          ∃ e, Does (.supplySwitchover cell) s e ∧ st e TMP_STATUS_SRC = cell ∧ st e TMP_STATUS_CHARGING = charges e ∧
          e.keys = s.keys ∧ e.tlog = s.tlog ∧ e.rtc = s.rtc) ∧
        (st s TMP_STATUS_BATGONE = true → s.vbatIn = false → ∃ e, Does (.supplySwitchover true) s e ∧ e.islandOff = true ∧ e.keys = [] ∧
          e.rtc.sec = 0) ∧
        (∃ e, Does .batgone s e ∧ e.vbatIn = false ∧ st e TMP_STATUS_CHARGING = false ∧
          st e TMP_STATUS_BATGONE = (st s TMP_STATUS_BATGONE || charges s) ∧ e.keys = s.keys ∧ e.rtc = s.rtc) ∧
        (∃ e, Does .aonfault s e ∧ st e TMP_STATUS_AONFAULT = true ∧ Logs s e .detect 0xFF 0xFF 0 ∧ e.keys = s.keys)) ∧
      (Reaches { s with vbatIn := inRange } m.toNat TMP_STATUS u → u.islandOff = false → ∃ e, Writes (.batgoneClear m inRange) s e ∧
        (u.vbatIn = true → st e TMP_STATUS_BATGONE = false ∧ st e TMP_STATUS_CHARGING = charges e) ∧
        (u.vbatIn = false → st e TMP_STATUS_BATGONE = st u TMP_STATUS_BATGONE)) ∧
      (∃ e, Does .islandPowerLoss s e ∧ e.islandOff = true ∧ e.keys = [] ∧ e.tlog = [] ∧ e.rtc.sec = 0 ∧ e.rtc.sub = 0 ∧
        flag e TMP_CTL TMP_CTL_LOOPEN = false ∧ reg e TMP_LOGCNT = 0 ∧ reg e TMP_KEYPRES = 0 ∧ reg e RTC_TRIM = 0 ∧
        ∀ k, 0x30000000 ≤ k → k < 0x34000000 → getByte e k = getByte s k) ∧
      (s.islandOff = true → ∃ e, Does (.islandPowerUp cell) s e ∧ e.islandOff = false ∧ st e TMP_STATUS_SRC = cell ∧
        st e TMP_STATUS_RTCINV = true ∧ st e TMP_STATUS_KEYLOST = true ∧ flag e MOD_STATUS MOD_STATUS_KEYLOST = true ∧
        flag e MOD_STATUS MOD_STATUS_RTCINV = true ∧ flag e MOD_STATUS MOD_STATUS_INTAKE = false) ∧
      (s.islandOff = false → Does (.islandPowerUp cell) s s))

/-- R592, R593, R595, R596, R598, R600, R601: OPEN counts and opens a session and shows the summary, CLOSE and a second of silence
end it, and an open one votes for domains 3 to 11; READ shows the words of the audit map and changes nothing, an unlisted code
zeros; TRACE takes whole records, oldest first; a write of AUD_TRCSEL starts the trace afresh or stops it.
The model's choices: log entry 41. -/
def Obligations.AuditPort : Prop :=
  ∀ (m : BitVec 6) (a : BitVec 24) (n : BitVec 16) (v : Word) (t i : Nat) (s u : State),
    let isOpen (x : State) := flag x AUD_STATUS AUD_STATUS_OPEN
    let sessions (x : State) := getF x AUD_STATUS AUD_STATUS_SESSIONS
    let recs (x : State) := getF x AUD_TRCST AUD_TRCST_RECS
    (∃ e, Does (.auditOpen n) s e ∧ isOpen e = true ∧ sessions e = (if isOpen s then sessions s else (sessions s + 1) % 65536) ∧
      e.out = .audit ((auditWords e 0 8 ++ List.replicate n.toNat 0).take n.toNat) :: s.out ∧ e.triads = s.triads ∧ MemSame s e) ∧
    (∃ e, Does (.auditClose n) s e ∧ isOpen e = false ∧ sessions e = sessions s ∧ e.out = .audit (List.replicate n.toNat 0) :: s.out) ∧
    (∃ e, Does .auditSessionTimeout s e ∧ isOpen e = false ∧ sessions e = sessions s ∧ e.out = s.out) ∧
    Does (.auditRead (0x03000000 ||| a.setWidth 32) n) s { s with out := .audit (auditWords s a.toNat n.toNat) :: s.out } ∧
    (∀ p ∈ [(1, Instr.auditOpen n), (2, .auditClose n), (4, .auditTrace n)], v.toNat / 2 ^ 24 = p.1 →
      exec (.auditRead v n) s = exec p.2 s) ∧
    (v.toNat / 2 ^ 24 ∉ [1, 2, 3, 4] →
      Does (.auditRead v n) s { s with out := .audit (List.replicate n.toNat 0) :: s.out }) ∧
    (∀ d, d < 18 → (voteB s d).testBit 8 = (decide (3 ≤ d ∧ d ≤ 11) && isOpen s)) ∧
    (∀ h : i < summaryRegs.length, auditWord s (4 * i) = reg s summaryRegs[i]) ∧
    (i < 1024 → ∀ j, j < 4 → (auditWord s (0x10000 + 16 * i + 4 * j)).toNat = (tget (fun _ => 0) s.flog i).toNat / 2 ^ (32 * j) % 2 ^ 32) ∧
    (t < 32 → i < 8 → auditWord s (0x1000 + 0x40 * t + 12 + 4 * i) = BitVec.ofNat 32 ((getDigest s t).xd.toNat / 2 ^ (32 * (7 - i)))) ∧
    (∃ e, Does (.auditTrace n) s e ∧ e.aud.trace = s.aud.trace.drop (n.toNat / 4) ∧
      e.out = .audit ((s.aud.trace.flatMap traceWords ++ List.replicate n.toNat 0).take n.toNat) :: s.out ∧
      (s.aud.trace.length ≤ 4096 → recs e = s.aud.trace.length - n.toNat / 4) ∧
      (s.aud.trace ≠ [] → 4 ≤ n.toNat → flag e AUD_TRCST AUD_TRCST_HOLD = false)) ∧
    (Reaches s m.toNat AUD_TRCSEL u → ∃ e, Writes (.audTrcselWrite m v) s e ∧ flag e AUD_TRCSEL AUD_TRCSEL_EN = v.getLsbD 31 ∧
      getF e AUD_TRCSEL AUD_TRCSEL_TRIAD =
        (if flag u AUD_TRCSEL AUD_TRCSEL_EN then getF u AUD_TRCSEL AUD_TRCSEL_TRIAD else bitsOf v.toNat 4 0) ∧
      e.aud.trace = (if v.getLsbD 31 then [] else u.aud.trace) ∧
      (v.getLsbD 31 = true → recs e = 0 ∧ flag e AUD_TRCST AUD_TRCST_FULLRUN = false))

/-- R602 to R604, R606: HALT, STEP and RESUME of a live triad, which DBG_STAT shows; a triad stops at the count that HALT has chosen,
64 past the one it stood at, or in ctl.wait, and after the one retirement of STEP; an access through DBG_ACC is made on a halted
triad alone, a refused one sets ERR, a write of a port that is no trigger reaches the port and taints the digest. On a
sealed card the debug registers do nothing.
R256, R602, R605 to R607: what each instruction of the test port selects, shifts out and does; the cells show the pins, which
EXTEST and CLAMP drive and HIGHZ floats; these three set the scan lock and stop intake; KEYTAB writes only an empty operator entry, SEAL with its datum seals while no triad is halted;
on a sealed card the private instructions act as BYPASS.
The model's choices: log entries 14, 42, 43, 88. -/
def Obligations.DebugAndTestPort : Prop :=
  (∀ (m : BitVec 6) (t : BitVec 5) (v : Word) (s u : State),
      let T := t.toNat
      let x := getT u T
      let shown (e : State) : Prop := (reg e DBG_STAT).getLsbD T = (getT e T).halted
      let port := getF u DBG_ACC DBG_ACC_PORT
      let target := getF u DBG_CTL DBG_CTL_TRIAD
      let refused (e : State) : Prop := flag e DBG_ACC DBG_ACC_ERR = true ∧ flag e DBG_ACC DBG_ACC_DONE = flag u DBG_ACC DBG_ACC_DONE ∧
        e.triads = u.triads ∧ MemSame u e
      (Reaches s m.toNat DBG_CTL u →
        (unsealed u = true → triadLive u T = true →
          (x.halted = true → ∃ e, Writes (.halt m t) s e ∧ getT e T = x) ∧
          (x.halted = false → ∃ e, Writes (.halt m t) s e ∧ MemSame u e ∧
            if flag u (SUP_TRIAD T) SUP_TRIAD_PAUSED then getT e T = { x with haltDue := true }
            else if x.waiting then (getT e T).halted = true ∧ shown e
            else getT e T = { x with haltAt := some (x.haltAt.getD (x.rcount + 64)) })) ∧
        (unsealed u = true → x.halted = true →
          (∃ e, Writes (.step m t) s e ∧ (getT e T).halted = false ∧ (getT e T).stepping = true ∧ shown e ∧ (getT e T).pc = x.pc) ∧
          (∃ e, Writes (.resume m t) s e ∧ (getT e T).halted = false ∧ (getT e T).stepping = false ∧ shown e ∧ (getT e T).pc = x.pc)) ∧
        (unsealed u = false → Writes (.halt m t) s u ∧ Writes (.step m t) s u ∧ Writes (.resume m t) s u)) ∧
      (∀ y : Triad, if unsealed u = true ∧ (y.stepping = true ∨ y.haltAt = some y.rcount ∨ y.haltAt ≠ none ∧ y.waiting = true)
        then (getT (counted u T y) T).halted = true ∧ (getT (counted u T y) T).haltAt = none ∧ shown (counted u T y)
        else counted u T y = setT u T { y with bptPass := false }) ∧
      (Reaches s m.toNat DBG_ACC u →
        (unsealed u = false → Writes (.dbgAccGo m v) s u) ∧
        (unsealed u = true → ∃ e, Writes (.dbgAccGo m v) s e ∧ e.aud.acc = true ∧ getF e DBG_ACC DBG_ACC_PORT = bitsOf v.toNat 7 0 ∧
          flag e DBG_ACC DBG_ACC_WRITE = v.getLsbD 30 ∧ flag e DBG_ACC DBG_ACC_DONE = false ∧ e.triads = u.triads)) ∧
      (u.aud.acc = true → u.aud.release = none →
        ((getT u target).halted = false → refused (debugAccess u)) ∧
        (port = 0xDE → flag u DBG_ACC DBG_ACC_WRITE = false → refused (debugAccess u)) ∧
        ((getT u target).halted = true → flag u DBG_ACC DBG_ACC_WRITE = false → (srcIllegal (.port port)).isSome = false → port ≠ 0xDE →
          let e := debugAccess u
          reg e DBG_ACCVAL = readPort u target port ∧ flag e DBG_ACC DBG_ACC_DONE = true ∧ e.triads = u.triads ∧ MemSame u e) ∧
        ((getT u target).halted = true → flag u DBG_ACC DBG_ACC_WRITE = true → (dstIllegal port).isSome = false → isTrigger port = false →
          let e := debugAccess u
          getT e target = writePort (getT u target) port (reg u DBG_ACCVAL) ∧ (getDigest e target).taint = true ∧
          flag e DBG_ACC DBG_ACC_DONE = true ∧ MemSame u e) ∧
        ((getT u target).halted = true → flag u DBG_ACC DBG_ACC_WRITE = true → (dstIllegal port).isSome = false →
          flag (debugAccess u) DBG_ACC DBG_ACC_DONE = true ∧ (getDigest (debugAccess u) target).taint = true))) ∧
  (∀ (w : BitVec 48) (key : BitVec 1027) (v : Word) (other load : BitVec 39) (data : BitVec 78) (s : State),
      let tap (e : State) := e.aud.tap
      let shows (c : Instr) (ir : BitVec 8) (boundary : BitVec 39) (o : Nat) : Prop := Does c s { s with
        out := .tdo o :: s.out
        aud := { s.aud with tap := { ir := ir, boundary := boundary } } }
      let old := s.aud.tap.boundary
      let locks (e : State) : Prop := flag e MOD_STOP MOD_STOP_SCANLOCK = true ∧ flag e MOD_STOP MOD_STOP_BOOTSTOP = true ∧
        flag e MOD_STATUS MOD_STATUS_INTAKE = false
      let entry := key.toNat / 2 ^ 1024
      let at_ := 0x33110000 + 128 * entry
      let a := 0x400D0000 + bitsOf w.toNat 46 32
      let chosen (ir : BitVec 8) : State := { s with aud := { s.aud with tap := { s.aud.tap with ir := ir } } }
      shows .idcode 2 old 0x172646D7 ∧ shows .bypass 0xFF old 0 ∧
      shows (.samplePreload other load) 1 load (cellsNow s other).toNat ∧
      (∀ i, i < 39 → (cellsNow s other).getLsbD i = cellNow s other i) ∧
      (∀ i, padOn s i = true → (tap s).ir.toNat ∈ [3, 4] → padNow s i = padScan old i) ∧
      (∀ i, (tap s).ir = 5 → padNow s i = none) ∧
      Does .tapReset s (chosen 2) ∧
      (∃ e, Does (.extest data) s e ∧ locks e ∧ tap e = { ir := 3, boundary := data.setWidth 39 } ∧
        e.out = .tdo (cellsNow (scanLock s) (data.extractLsb' 39 39)).toNat :: s.out) ∧
      (∃ e, Does .clamp s e ∧ locks e ∧ tap e = { ir := 4, boundary := old } ∧ e.out = .tdo 0 :: s.out) ∧
      (∃ e, Does .highz s e ∧ locks e ∧ tap e = { ir := 5, boundary := old } ∧ e.out = .tdo 0 :: s.out) ∧
      (unsealed s = false → shows (.dbgacc w) 0x10 old 0 ∧ shows (.keytab key) 0x11 old 0 ∧ shows (.seal v) 0x12 old 0) ∧
      (unsealed s = true → (entry < 4 ∨ getByte s at_ = 0xA5 → Does (.keytab key) s (chosen 0x11)) ∧
        (4 ≤ entry → getByte s at_ ≠ 0xA5 → ∃ e, Does (.keytab key) s e ∧ getBytes e at_ 128 = leBytes 128 (key.toNat % 2 ^ 1024) ∧
          ∀ k, k < at_ ∨ at_ + 128 ≤ k → getByte e k = getByte s k) ∧
        (v ≠ 0x5EA17264 ∨ reg s DBG_STAT ≠ 0 → Does (.seal v) s (chosen 0x12)) ∧
        (v = 0x5EA17264 → reg s DBG_STAT = 0 → ∃ e, Does (.seal v) s e ∧ unsealed e = false) ∧
        (DBG_CTL ≤ a → a ≤ DBG_ACCVAL →
          (w.getLsbD 47 = true → Does (.dbgacc w) s (dbgWrite (chosen 0x10) a (w.setWidth 32))) ∧
          (w.getLsbD 47 = false → ∃ e, Does (.dbgacc w) s e ∧ e.out = .tdo (dbgRead s a).1.toNat :: s.out))))
end

