-- ==== Sys2Proof/Laws/Table.lean ====
section
/-!
SUPPORT. The laws of sparse tables: a read after a write gives the value written, a write leaves every other key
alone, and every operation keeps the canonical form.
-/

namespace Sys2Proof.Machine

variable {α : Type}

@[simp] theorem tget_nil (d : Nat → α) (k : Nat) : tget d [] k = d k := rfl

theorem tget_tdel_same (d : Nat → α) (t : Tab α) (k : Nat) : tget d (tdel t k) k = d k := by
  induction t with
  | nil => rfl
  | cons p r ih => by_cases h : p.1 = k <;> simp [tdel, tget, h, ih]

theorem tget_tdel_other (d : Nat → α) (t : Tab α) {k j : Nat} (h : j ≠ k) :
    tget d (tdel t k) j = tget d t j := by
  induction t with
  | nil => rfl
  | cons p r ih =>
    by_cases hk : p.1 = k
    · have hj : p.1 ≠ j := fun e => h (e.symm.trans hk)
      simp [tdel, tget, hk, ih, show k ≠ j from fun e => h e.symm]
    · by_cases hj : p.1 = j <;> simp [tdel, tget, hk, hj, ih]
      simp [show j ≠ k from h, tget]

theorem tget_tins_other (d : Nat → α) (t : Tab α) {k j : Nat} (v : α) (h : j ≠ k) :
    tget d (tins t k v) j = tget d t j := by
  have hk : k ≠ j := fun e => h e.symm
  induction t with
  | nil => simp [tins, tget, hk]
  | cons p r ih =>
    by_cases hlt : k < p.1
    · simp [tins, tget, hlt, hk]
    · simp [tins, tget, hlt, ih]

/-- No entry of the table has key `k`. -/
def tfree (t : Tab α) (k : Nat) : Prop := ∀ p ∈ t, p.1 ≠ k

theorem tfree_tdel (t : Tab α) (k : Nat) : tfree (tdel t k) k := by
  induction t with
  | nil => intro p hp; cases hp
  | cons q r ih =>
    intro p hp
    by_cases h : q.1 = k
    · simp [tdel, h] at hp; exact ih p hp
    · simp [tdel, h] at hp
      rcases hp with rfl | hp
      · exact h
      · exact ih p hp

theorem tget_tins_same (d : Nat → α) (t : Tab α) {k : Nat} (v : α) (h : tfree t k) :
    tget d (tins t k v) k = v := by
  induction t with
  | nil => simp [tins, tget]
  | cons p r ih =>
    have hp : p.1 ≠ k := h p (by simp)
    have hr : tfree r k := fun q hq => h q (by simp [hq])
    by_cases hlt : k < p.1
    · simp [tins, tget, hlt]
    · simp [tins, tget, hlt, hp, ih hr]

@[simp] theorem tget_tset_same [DecidableEq α] (d : Nat → α) (t : Tab α) (k : Nat) (v : α) :
    tget d (tset d t k v) k = v := by
  unfold tset
  split
  · rename_i h; rw [tget_tdel_same, h]
  · exact tget_tins_same d _ v (tfree_tdel t k)

theorem tget_tset_other [DecidableEq α] (d : Nat → α) (t : Tab α) {k j : Nat} (v : α) (h : j ≠ k) :
    tget d (tset d t k v) j = tget d t j := by
  unfold tset
  split
  · exact tget_tdel_other d t h
  · rw [tget_tins_other d _ v h, tget_tdel_other d t h]

theorem keysRise_weaken {t : Tab α} {lo : Nat} (h : keysRise (some lo) t = true) :
    keysRise none t = true := by
  cases t with
  | nil => rfl
  | cons p r => simp [keysRise] at h ⊢; exact h.2

theorem keysRise_lower {t : Tab α} {a b : Nat} (hab : a ≤ b) (h : keysRise (some b) t = true) :
    keysRise (some a) t = true := by
  cases t with
  | nil => rfl
  | cons p r => simp [keysRise] at h ⊢; exact ⟨by omega, h.2⟩

theorem keysRise_tdel_some {t : Tab α} {k lo : Nat} (h : keysRise (some lo) t = true) :
    keysRise (some lo) (tdel t k) = true := by
  induction t generalizing lo with
  | nil => rfl
  | cons p r ih =>
    simp [keysRise] at h
    by_cases hk : p.1 = k
    · simp only [tdel, hk, if_true]
      exact keysRise_lower (Nat.le_of_lt h.1) (ih h.2)
    · simp [tdel, hk, keysRise]; exact ⟨h.1, ih h.2⟩

theorem keysRise_tdel {t : Tab α} {k : Nat} (h : keysRise none t = true) :
    keysRise none (tdel t k) = true := by
  cases t with
  | nil => rfl
  | cons p r =>
    simp [keysRise] at h
    by_cases hk : p.1 = k
    · simp only [tdel, hk, if_true]; exact keysRise_weaken (keysRise_tdel_some h)
    · simp [tdel, hk, keysRise]; exact keysRise_tdel_some h

theorem keysRise_tins_some {t : Tab α} {k lo : Nat} (v : α) (hlo : lo < k) (hf : tfree t k)
    (h : keysRise (some lo) t = true) : keysRise (some lo) (tins t k v) = true := by
  induction t generalizing lo with
  | nil => simp [tins, keysRise, hlo]
  | cons p r ih =>
    simp [keysRise] at h
    have hp : p.1 ≠ k := hf p (by simp)
    by_cases hlt : k < p.1
    · simp [tins, hlt, keysRise, hlo, h.2]
    · simp [tins, hlt, keysRise, h.1]
      exact ih (by omega) (fun q hq => hf q (by simp [hq])) h.2

theorem keysRise_tins {t : Tab α} {k : Nat} (v : α) (hf : tfree t k)
    (h : keysRise none t = true) : keysRise none (tins t k v) = true := by
  cases t with
  | nil => rfl
  | cons p r =>
    simp [keysRise] at h
    have hp : p.1 ≠ k := hf p (by simp)
    by_cases hlt : k < p.1
    · simp [tins, hlt, keysRise, h]
    · simp [tins, hlt, keysRise]
      exact keysRise_tins_some v (by omega) (fun q hq => hf q (by simp [hq])) h

theorem noDefaults_tdel [DecidableEq α] {d : Nat → α} {t : Tab α} {k : Nat} (h : noDefaults d t = true) :
    noDefaults d (tdel t k) = true := by
  induction t with
  | nil => rfl
  | cons p r ih =>
    simp [noDefaults] at h
    by_cases hk : p.1 = k
    · simp only [tdel, hk, if_true]; exact ih h.2
    · simp [tdel, hk, noDefaults, h.1]; exact ih h.2

theorem noDefaults_tins [DecidableEq α] {d : Nat → α} {t : Tab α} {k : Nat} {v : α} (hv : v ≠ d k)
    (h : noDefaults d t = true) : noDefaults d (tins t k v) = true := by
  induction t with
  | nil => simp [tins, noDefaults, hv]
  | cons p r ih =>
    simp [noDefaults] at h
    by_cases hlt : k < p.1
    · simp [tins, hlt, noDefaults, h, hv]
    · simp [tins, hlt, noDefaults, h.1]; exact ih h.2

/-- Storing keeps the canonical form. -/
theorem tset_wf [DecidableEq α] {d : Nat → α} {t : Tab α} (k : Nat) (v : α) (h : twf d t = true) :
    twf d (tset d t k v) = true := by
  simp only [twf, Bool.and_eq_true] at h ⊢
  unfold tset
  split
  · exact ⟨keysRise_tdel h.1, noDefaults_tdel h.2⟩
  · rename_i hv
    exact ⟨keysRise_tins v (tfree_tdel t k) (keysRise_tdel h.1),
      noDefaults_tins hv (noDefaults_tdel h.2)⟩

theorem keysRise_tclear_some {t : Tab α} {lo hi b : Nat} (h : keysRise (some b) t = true) :
    keysRise (some b) (tclear lo hi t) = true := by
  induction t generalizing b with
  | nil => rfl
  | cons p r ih =>
    simp [keysRise] at h
    by_cases hk : (lo ≤ p.1 && p.1 < hi) = true
    · simp only [tclear, hk, if_true]
      exact keysRise_lower (Nat.le_of_lt h.1) (ih h.2)
    · simp only [tclear, hk]; simp [keysRise]; exact ⟨h.1, ih h.2⟩

/-- Clearing a range keeps the canonical form. -/
theorem tclear_wf [DecidableEq α] {d : Nat → α} {t : Tab α} (lo hi : Nat) (h : twf d t = true) :
    twf d (tclear lo hi t) = true := by
  simp only [twf, Bool.and_eq_true] at h ⊢
  constructor
  · cases t with
    | nil => rfl
    | cons p r =>
      have h1 := h.1
      simp [keysRise] at h1
      by_cases hk : (lo ≤ p.1 && p.1 < hi) = true
      · simp only [tclear, hk, if_true]; exact keysRise_weaken (keysRise_tclear_some h1)
      · simp only [tclear, hk]; simp [keysRise]; exact keysRise_tclear_some h1
  · have h2 := h.2
    clear h
    induction t with
    | nil => rfl
    | cons p r ih =>
      simp [noDefaults] at h2
      by_cases hk : (lo ≤ p.1 && p.1 < hi) = true
      · simp only [tclear, hk, if_true]; exact ih h2.2
      · simp only [tclear, hk]; simp [noDefaults, h2.1]; exact ih h2.2

theorem tputAll_wf [DecidableEq α] {d : Nat → α} (up down : Nat) (src : Tab α) {t : Tab α} (h : twf d t = true) :
    twf d (tputAll d up down src t) = true := by
  induction src generalizing t with
  | nil => exact h
  | cons p r ih => exact ih (tset_wf _ _ h)

/-- Copying a range keeps the canonical form. -/
theorem tcopy_wf [DecidableEq α] {d : Nat → α} {t : Tab α} (src dst n : Nat) (h : twf d t = true) :
    twf d (tcopy d src dst n t) = true :=
  tputAll_wf _ _ _ (tclear_wf _ _ h)

end Sys2Proof.Machine
end

