-- ==== Sys2Proof/Laws/Fabric.lean ====
section
/-!
SUPPORT. Register accesses of masters, said once: an access that reaches its block is the block's own write or read.
-/

namespace Sys2Proof.Machine

/-- An address of a device fits the fabric's 32 bits. -/
theorem device_lt {a : Nat} (h : regionOf a = .device) : a < 2 ^ 32 := by
  refine Nat.lt_of_not_le fun k => ?_
  have e : regionOf a = .hole := by
    unfold regionOf
    repeat rw [if_neg (by first | omega | (simp only [decide_eq_true_eq, Bool.and_eq_true]; omega))]
  rw [e] at h
  cases h

/-- A whole word that the bridge carries out at once, or that another master writes, is written by the fabric. -/
theorem busWrite_eq {s u : State} {m a : Nat} (h : Reaches s m a u) (w : Word) (ha : a / 4 * 4 = a)
    (hd : regionOf a = .device) : busWrite s m a w = performWrite s m a w := by
  have hk : (BitVec.ofNat 32 a).toNat / 4 * 4 = a := by
    rw [BitVec.toNat_ofNat, Nat.mod_eq_of_lt (device_lt hd), ha]
  unfold busWrite placeWrite
  by_cases hm : m = 36
  · obtain ⟨h1, h2⟩ := h.host hm
    subst hm
    simp only [if_true, hostAccess, h1, h2, performHeld, hostWrite, hk, hd]
    rfl
  · simp only [hm, if_false, hk]

theorem busRead_eq {s u : State} {m a : Nat} (h : Reaches s m a u) (ha : a / 4 * 4 = a) (hd : regionOf a = .device) :
    busRead s m a = performRead s m a := by
  have hk : (BitVec.ofNat 32 a).toNat / 4 * 4 = a := by
    rw [BitVec.toNat_ofNat, Nat.mod_eq_of_lt (device_lt hd), ha]
  unfold busRead placeRead
  by_cases hm : m = 36
  · obtain ⟨h1, h2⟩ := h.host hm
    subst hm
    simp only [if_true, hostAccess, h1, h2, performHeld, hk]
    rfl
  · simp only [hm, if_false, hk]

theorem busWrite_reaches {s u : State} {m a : Nat} (h : Reaches s m a u) (w : Word) (ha : a / 4 * 4 = a)
    (hd : regionOf a = .device) (hf : a ≠ LAT_HFENCE) :
    busWrite s m a w = { deviceWrite u m a w with rstat := 0 } := by
  rw [busWrite_eq h w ha hd]
  unfold performWrite devWrite
  rw [hd, h.block]
  simp [hf]

theorem busRead_reaches {s u : State} {m a : Nat} (h : Reaches s m a u) (ha : a / 4 * 4 = a) (hd : regionOf a = .device) :
    busRead s m a = { (deviceRead u a).2 with rdata := (deviceRead u a).1, rstat := 0 } := by
  rw [busRead_eq h ha hd]
  unfold performRead devRead
  rw [hd, h.block]
  simp

/-- A register holds what the hardware has set, and every other register what it held. -/
@[simp] theorem reg_setReg_same (s : State) (a : Nat) (w : Word) : reg (setReg s a w) a = w := by
  unfold reg setReg
  exact tget_tset_same ..

theorem reg_setReg_other (s : State) {a b : Nat} (w : Word) (h : b ≠ a) : reg (setReg s a w) b = reg s b := by
  unfold reg setReg
  exact tget_tset_other _ _ _ h

theorem reg_setF_other (s : State) {a b : Nat} (f : Fld) (v : Nat) (h : b ≠ a) : reg (setF s a f v) b = reg s b :=
  reg_setReg_other s _ h

/-! ### Fields of registers -/

theorem bitsOf_lt (w hi lo : Nat) : bitsOf w hi lo < 2 ^ (hi + 1 - lo) := Nat.mod_lt _ (Nat.two_pow_pos _)

/-- A bit of a word with a field replaced: the new value's within the field, the old word's outside. -/
theorem testBit_bitsPut (w v i : Nat) {hi lo : Nat} (h : lo ≤ hi) :
    (bitsPut w hi lo v).testBit i = if lo ≤ i ∧ i ≤ hi then v.testBit (i - lo) else w.testBit i := by
  have e : 2 ^ (hi + 1) = 2 ^ lo * 2 ^ (hi + 1 - lo) := by rw [← Nat.pow_add]; congr 1; omega
  have p1 := Nat.mod_lt w (Nat.two_pow_pos lo)
  have p2 := Nat.mod_lt v (Nat.two_pow_pos (hi + 1 - lo))
  have a1 : bitsPut w hi lo v =
      2 ^ lo * (2 ^ (hi + 1 - lo) * (w / 2 ^ (hi + 1)) + v % 2 ^ (hi + 1 - lo)) + w % 2 ^ lo := by
    unfold bitsPut
    rw [e, Nat.mul_add]
    generalize w % 2 ^ lo = a
    generalize v % 2 ^ (hi + 1 - lo) = b
    generalize w / (2 ^ lo * 2 ^ (hi + 1 - lo)) = c
    ac_rfl
  rw [a1, Nat.testBit_two_pow_mul_add _ p1]
  by_cases h1 : i < lo
  · simp [h1, Nat.testBit_mod_two_pow] <;> omega
  · rw [if_neg h1, Nat.testBit_two_pow_mul_add _ p2]
    by_cases h2 : i ≤ hi
    · have h3 : i - lo < hi + 1 - lo := by omega
      simp [h2, h3, Nat.testBit_mod_two_pow, Nat.le_of_not_lt h1]
    · have h3 : ¬ i - lo < hi + 1 - lo := by omega
      simp [h2, h3, Nat.testBit_div_two_pow]
      congr 1
      omega

theorem bitsOf_bitsPut_same (w v : Nat) {hi lo : Nat} (h : lo ≤ hi) : bitsOf (bitsPut w hi lo v) hi lo = v % 2 ^ (hi + 1 - lo) := by
  apply Nat.eq_of_testBit_eq
  intro i
  unfold bitsOf
  simp only [Nat.testBit_mod_two_pow, Nat.testBit_div_two_pow, testBit_bitsPut _ _ _ h]
  by_cases k : i < hi + 1 - lo
  · have h1 : lo ≤ i + lo ∧ i + lo ≤ hi := ⟨Nat.le_add_left _ _, by omega⟩
    rw [if_pos h1, Nat.add_sub_cancel]
  · simp [k]

theorem getF_setF_same (s : State) (a : Nat) {f : Fld} (v : Nat) (h : f.lo ≤ f.hi) (h2 : f.hi < 32) :
    getF (setF s a f v) a f = v % 2 ^ (f.hi + 1 - f.lo) := by
  unfold getF setF
  rw [reg_setReg_same, BitVec.toNat_ofNat]
  have k : bitsOf (bitsPut (reg s a).toNat f.hi f.lo v % 2 ^ 32) f.hi f.lo = bitsOf (bitsPut (reg s a).toNat f.hi f.lo v) f.hi f.lo := by
    apply Nat.eq_of_testBit_eq
    intro i
    unfold bitsOf
    simp only [Nat.testBit_mod_two_pow, Nat.testBit_div_two_pow]
    by_cases hi : i < f.hi + 1 - f.lo
    · have h1 : i + f.lo < 32 := by omega
      simp [hi, h1]
    · simp [hi]
  rw [k, bitsOf_bitsPut_same _ _ h]

theorem getF_setF_other (s : State) {a b : Nat} (f g : Fld) (v : Nat) (h : b ≠ a) : getF (setF s a f v) b g = getF s b g := by
  unfold getF
  rw [reg_setF_other _ _ _ h]

/-- Another field of the same register. -/
theorem getF_setF_field (s : State) (a : Nat) {f g : Fld} (v : Nat) (h : f.lo ≤ f.hi) (hg : g.hi < 32)
    (hd : g.hi < f.lo ∨ f.hi < g.lo) : getF (setF s a f v) a g = getF s a g := by
  unfold getF setF
  rw [reg_setReg_same, BitVec.toNat_ofNat]
  apply Nat.eq_of_testBit_eq
  intro i
  unfold bitsOf
  simp only [Nat.testBit_mod_two_pow, Nat.testBit_div_two_pow]
  by_cases hi : i < g.hi + 1 - g.lo
  · rw [testBit_bitsPut _ _ _ h]
    have h3 : ¬ (f.lo ≤ i + g.lo ∧ i + g.lo ≤ f.hi) := by omega
    have h4 : i + g.lo < 32 := by omega
    simp [hi, h3, h4]
  · simp [hi]

theorem flag_setFlag_same (s : State) (a : Nat) {f : Fld} (b : Bool) (h : f.lo = f.hi) (h2 : f.hi < 32) :
    flag (setFlag s a f b) a f = b := by
  unfold flag setFlag
  rw [getF_setF_same _ _ _ (by omega) h2, h]
  cases b <;> simp [b2n]

end Sys2Proof.Machine
end

