-- ==== Sys2Proof/Laws/State.lean ====
section
/-!
SUPPORT. What each shared update of the state leaves unchanged: one lemma per field and update, so that no later proof
unfolds a record update.
-/

namespace Sys2Proof.Machine

@[simp] theorem setReg_pending (s : State) (a : Nat) (w : Word) : (setReg s a w).pending = s.pending := rfl
@[simp] theorem setReg_mem (s : State) (a : Nat) (w : Word) : (setReg s a w).mem = s.mem := rfl
@[simp] theorem setReg_poison (s : State) (a : Nat) (w : Word) : (setReg s a w).poison = s.poison := rfl
@[simp] theorem setReg_fresh (s : State) (a : Nat) (w : Word) : (setReg s a w).fresh = s.fresh := rfl
@[simp] theorem setReg_evq (s : State) (a : Nat) (w : Word) : (setReg s a w).evq = s.evq := rfl
@[simp] theorem setReg_out (s : State) (a : Nat) (w : Word) : (setReg s a w).out = s.out := rfl
@[simp] theorem setReg_rdata (s : State) (a : Nat) (w : Word) : (setReg s a w).rdata = s.rdata := rfl
@[simp] theorem setReg_rwords (s : State) (a : Nat) (w : Word) : (setReg s a w).rwords = s.rwords := rfl
@[simp] theorem setReg_rstat (s : State) (a : Nat) (w : Word) : (setReg s a w).rstat = s.rstat := rfl
@[simp] theorem setReg_nPfail (s : State) (a : Nat) (w : Word) : (setReg s a w).nPfail = s.nPfail := rfl
@[simp] theorem setReg_slck (s : State) (a : Nat) (w : Word) : (setReg s a w).slck = s.slck := rfl
@[simp] theorem setReg_pic (s : State) (a : Nat) (w : Word) : (setReg s a w).pic = s.pic := rfl
@[simp] theorem setReg_qe (s : State) (a : Nat) (w : Word) : (setReg s a w).qe = s.qe := rfl
@[simp] theorem setReg_triads (s : State) (a : Nat) (w : Word) : (setReg s a w).triads = s.triads := rfl
@[simp] theorem setReg_flog (s : State) (a : Nat) (w : Word) : (setReg s a w).flog = s.flog := rfl
@[simp] theorem setReg_flogLatch (s : State) (a : Nat) (w : Word) : (setReg s a w).flogLatch = s.flogLatch := rfl
@[simp] theorem setReg_clvLatch (s : State) (a : Nat) (w : Word) : (setReg s a w).clvLatch = s.clvLatch := rfl
@[simp] theorem setReg_lat (s : State) (a : Nat) (w : Word) : (setReg s a w).lat = s.lat := rfl
@[simp] theorem setReg_weft (s : State) (a : Nat) (w : Word) : (setReg s a w).weft = s.weft := rfl
@[simp] theorem setReg_tly (s : State) (a : Nat) (w : Word) : (setReg s a w).tly = s.tly := rfl
@[simp] theorem setReg_led (s : State) (a : Nat) (w : Word) : (setReg s a w).led = s.led := rfl
@[simp] theorem setReg_cry (s : State) (a : Nat) (w : Word) : (setReg s a w).cry = s.cry := rfl
@[simp] theorem setReg_drw (s : State) (a : Nat) (w : Word) : (setReg s a w).drw = s.drw := rfl
@[simp] theorem setReg_tmr (s : State) (a : Nat) (w : Word) : (setReg s a w).tmr = s.tmr := rfl
@[simp] theorem setReg_rtc (s : State) (a : Nat) (w : Word) : (setReg s a w).rtc = s.rtc := rfl
@[simp] theorem setReg_evf (s : State) (a : Nat) (w : Word) : (setReg s a w).evf = s.evf := rfl
@[simp] theorem setReg_mon (s : State) (a : Nat) (w : Word) : (setReg s a w).mon = s.mon := rfl
@[simp] theorem setReg_wakeCause (s : State) (a : Nat) (w : Word) : (setReg s a w).wakeCause = s.wakeCause := rfl
@[simp] theorem setReg_mbx (s : State) (a : Nat) (w : Word) : (setReg s a w).mbx = s.mbx := rfl
@[simp] theorem setReg_hostFn (s : State) (a : Nat) (w : Word) : (setReg s a w).hostFn = s.hostFn := rfl
@[simp] theorem setReg_net (s : State) (a : Nat) (w : Word) : (setReg s a w).net = s.net := rfl
@[simp] theorem setReg_upd (s : State) (a : Nat) (w : Word) : (setReg s a w).upd = s.upd := rfl
@[simp] theorem setReg_keys (s : State) (a : Nat) (w : Word) : (setReg s a w).keys = s.keys := rfl
@[simp] theorem setReg_tlog (s : State) (a : Nat) (w : Word) : (setReg s a w).tlog = s.tlog := rfl
@[simp] theorem setReg_tlogLatch (s : State) (a : Nat) (w : Word) : (setReg s a w).tlogLatch = s.tlogLatch := rfl
@[simp] theorem setReg_tacted (s : State) (a : Nat) (w : Word) : (setReg s a w).tacted = s.tacted := rfl
@[simp] theorem setReg_islandOff (s : State) (a : Nat) (w : Word) : (setReg s a w).islandOff = s.islandOff := rfl
@[simp] theorem setReg_vbatIn (s : State) (a : Nat) (w : Word) : (setReg s a w).vbatIn = s.vbatIn := rfl
@[simp] theorem setReg_aud (s : State) (a : Nat) (w : Word) : (setReg s a w).aud = s.aud := rfl

@[simp] theorem setF_pending (s : State) (a : Nat) (f : Fld) (v : Nat) : (setF s a f v).pending = s.pending := rfl
@[simp] theorem setF_mem (s : State) (a : Nat) (f : Fld) (v : Nat) : (setF s a f v).mem = s.mem := rfl
@[simp] theorem setF_poison (s : State) (a : Nat) (f : Fld) (v : Nat) : (setF s a f v).poison = s.poison := rfl
@[simp] theorem setF_fresh (s : State) (a : Nat) (f : Fld) (v : Nat) : (setF s a f v).fresh = s.fresh := rfl
@[simp] theorem setF_evq (s : State) (a : Nat) (f : Fld) (v : Nat) : (setF s a f v).evq = s.evq := rfl
@[simp] theorem setF_out (s : State) (a : Nat) (f : Fld) (v : Nat) : (setF s a f v).out = s.out := rfl
@[simp] theorem setF_rdata (s : State) (a : Nat) (f : Fld) (v : Nat) : (setF s a f v).rdata = s.rdata := rfl
@[simp] theorem setF_rwords (s : State) (a : Nat) (f : Fld) (v : Nat) : (setF s a f v).rwords = s.rwords := rfl
@[simp] theorem setF_rstat (s : State) (a : Nat) (f : Fld) (v : Nat) : (setF s a f v).rstat = s.rstat := rfl
@[simp] theorem setF_nPfail (s : State) (a : Nat) (f : Fld) (v : Nat) : (setF s a f v).nPfail = s.nPfail := rfl
@[simp] theorem setF_slck (s : State) (a : Nat) (f : Fld) (v : Nat) : (setF s a f v).slck = s.slck := rfl
@[simp] theorem setF_pic (s : State) (a : Nat) (f : Fld) (v : Nat) : (setF s a f v).pic = s.pic := rfl
@[simp] theorem setF_qe (s : State) (a : Nat) (f : Fld) (v : Nat) : (setF s a f v).qe = s.qe := rfl
@[simp] theorem setF_triads (s : State) (a : Nat) (f : Fld) (v : Nat) : (setF s a f v).triads = s.triads := rfl
@[simp] theorem setF_flog (s : State) (a : Nat) (f : Fld) (v : Nat) : (setF s a f v).flog = s.flog := rfl
@[simp] theorem setF_flogLatch (s : State) (a : Nat) (f : Fld) (v : Nat) : (setF s a f v).flogLatch = s.flogLatch := rfl
@[simp] theorem setF_clvLatch (s : State) (a : Nat) (f : Fld) (v : Nat) : (setF s a f v).clvLatch = s.clvLatch := rfl
@[simp] theorem setF_lat (s : State) (a : Nat) (f : Fld) (v : Nat) : (setF s a f v).lat = s.lat := rfl
@[simp] theorem setF_weft (s : State) (a : Nat) (f : Fld) (v : Nat) : (setF s a f v).weft = s.weft := rfl
@[simp] theorem setF_tly (s : State) (a : Nat) (f : Fld) (v : Nat) : (setF s a f v).tly = s.tly := rfl
@[simp] theorem setF_led (s : State) (a : Nat) (f : Fld) (v : Nat) : (setF s a f v).led = s.led := rfl
@[simp] theorem setF_cry (s : State) (a : Nat) (f : Fld) (v : Nat) : (setF s a f v).cry = s.cry := rfl
@[simp] theorem setF_drw (s : State) (a : Nat) (f : Fld) (v : Nat) : (setF s a f v).drw = s.drw := rfl
@[simp] theorem setF_tmr (s : State) (a : Nat) (f : Fld) (v : Nat) : (setF s a f v).tmr = s.tmr := rfl
@[simp] theorem setF_rtc (s : State) (a : Nat) (f : Fld) (v : Nat) : (setF s a f v).rtc = s.rtc := rfl
@[simp] theorem setF_evf (s : State) (a : Nat) (f : Fld) (v : Nat) : (setF s a f v).evf = s.evf := rfl
@[simp] theorem setF_mon (s : State) (a : Nat) (f : Fld) (v : Nat) : (setF s a f v).mon = s.mon := rfl
@[simp] theorem setF_wakeCause (s : State) (a : Nat) (f : Fld) (v : Nat) : (setF s a f v).wakeCause = s.wakeCause := rfl
@[simp] theorem setF_mbx (s : State) (a : Nat) (f : Fld) (v : Nat) : (setF s a f v).mbx = s.mbx := rfl
@[simp] theorem setF_hostFn (s : State) (a : Nat) (f : Fld) (v : Nat) : (setF s a f v).hostFn = s.hostFn := rfl
@[simp] theorem setF_net (s : State) (a : Nat) (f : Fld) (v : Nat) : (setF s a f v).net = s.net := rfl
@[simp] theorem setF_upd (s : State) (a : Nat) (f : Fld) (v : Nat) : (setF s a f v).upd = s.upd := rfl
@[simp] theorem setF_keys (s : State) (a : Nat) (f : Fld) (v : Nat) : (setF s a f v).keys = s.keys := rfl
@[simp] theorem setF_tlog (s : State) (a : Nat) (f : Fld) (v : Nat) : (setF s a f v).tlog = s.tlog := rfl
@[simp] theorem setF_tlogLatch (s : State) (a : Nat) (f : Fld) (v : Nat) : (setF s a f v).tlogLatch = s.tlogLatch := rfl
@[simp] theorem setF_tacted (s : State) (a : Nat) (f : Fld) (v : Nat) : (setF s a f v).tacted = s.tacted := rfl
@[simp] theorem setF_islandOff (s : State) (a : Nat) (f : Fld) (v : Nat) : (setF s a f v).islandOff = s.islandOff := rfl
@[simp] theorem setF_vbatIn (s : State) (a : Nat) (f : Fld) (v : Nat) : (setF s a f v).vbatIn = s.vbatIn := rfl
@[simp] theorem setF_aud (s : State) (a : Nat) (f : Fld) (v : Nat) : (setF s a f v).aud = s.aud := rfl

@[simp] theorem setFlag_pending (s : State) (a : Nat) (f : Fld) (b : Bool) : (setFlag s a f b).pending = s.pending := rfl
@[simp] theorem setFlag_mem (s : State) (a : Nat) (f : Fld) (b : Bool) : (setFlag s a f b).mem = s.mem := rfl
@[simp] theorem setFlag_poison (s : State) (a : Nat) (f : Fld) (b : Bool) : (setFlag s a f b).poison = s.poison := rfl
@[simp] theorem setFlag_fresh (s : State) (a : Nat) (f : Fld) (b : Bool) : (setFlag s a f b).fresh = s.fresh := rfl
@[simp] theorem setFlag_evq (s : State) (a : Nat) (f : Fld) (b : Bool) : (setFlag s a f b).evq = s.evq := rfl
@[simp] theorem setFlag_out (s : State) (a : Nat) (f : Fld) (b : Bool) : (setFlag s a f b).out = s.out := rfl
@[simp] theorem setFlag_rdata (s : State) (a : Nat) (f : Fld) (b : Bool) : (setFlag s a f b).rdata = s.rdata := rfl
@[simp] theorem setFlag_rwords (s : State) (a : Nat) (f : Fld) (b : Bool) : (setFlag s a f b).rwords = s.rwords := rfl
@[simp] theorem setFlag_rstat (s : State) (a : Nat) (f : Fld) (b : Bool) : (setFlag s a f b).rstat = s.rstat := rfl
@[simp] theorem setFlag_nPfail (s : State) (a : Nat) (f : Fld) (b : Bool) : (setFlag s a f b).nPfail = s.nPfail := rfl
@[simp] theorem setFlag_slck (s : State) (a : Nat) (f : Fld) (b : Bool) : (setFlag s a f b).slck = s.slck := rfl
@[simp] theorem setFlag_pic (s : State) (a : Nat) (f : Fld) (b : Bool) : (setFlag s a f b).pic = s.pic := rfl
@[simp] theorem setFlag_qe (s : State) (a : Nat) (f : Fld) (b : Bool) : (setFlag s a f b).qe = s.qe := rfl
@[simp] theorem setFlag_triads (s : State) (a : Nat) (f : Fld) (b : Bool) : (setFlag s a f b).triads = s.triads := rfl
@[simp] theorem setFlag_flog (s : State) (a : Nat) (f : Fld) (b : Bool) : (setFlag s a f b).flog = s.flog := rfl
@[simp] theorem setFlag_flogLatch (s : State) (a : Nat) (f : Fld) (b : Bool) : (setFlag s a f b).flogLatch = s.flogLatch := rfl
@[simp] theorem setFlag_clvLatch (s : State) (a : Nat) (f : Fld) (b : Bool) : (setFlag s a f b).clvLatch = s.clvLatch := rfl
@[simp] theorem setFlag_lat (s : State) (a : Nat) (f : Fld) (b : Bool) : (setFlag s a f b).lat = s.lat := rfl
@[simp] theorem setFlag_weft (s : State) (a : Nat) (f : Fld) (b : Bool) : (setFlag s a f b).weft = s.weft := rfl
@[simp] theorem setFlag_tly (s : State) (a : Nat) (f : Fld) (b : Bool) : (setFlag s a f b).tly = s.tly := rfl
@[simp] theorem setFlag_led (s : State) (a : Nat) (f : Fld) (b : Bool) : (setFlag s a f b).led = s.led := rfl
@[simp] theorem setFlag_cry (s : State) (a : Nat) (f : Fld) (b : Bool) : (setFlag s a f b).cry = s.cry := rfl
@[simp] theorem setFlag_drw (s : State) (a : Nat) (f : Fld) (b : Bool) : (setFlag s a f b).drw = s.drw := rfl
@[simp] theorem setFlag_tmr (s : State) (a : Nat) (f : Fld) (b : Bool) : (setFlag s a f b).tmr = s.tmr := rfl
@[simp] theorem setFlag_rtc (s : State) (a : Nat) (f : Fld) (b : Bool) : (setFlag s a f b).rtc = s.rtc := rfl
@[simp] theorem setFlag_evf (s : State) (a : Nat) (f : Fld) (b : Bool) : (setFlag s a f b).evf = s.evf := rfl
@[simp] theorem setFlag_mon (s : State) (a : Nat) (f : Fld) (b : Bool) : (setFlag s a f b).mon = s.mon := rfl
@[simp] theorem setFlag_wakeCause (s : State) (a : Nat) (f : Fld) (b : Bool) : (setFlag s a f b).wakeCause = s.wakeCause := rfl
@[simp] theorem setFlag_mbx (s : State) (a : Nat) (f : Fld) (b : Bool) : (setFlag s a f b).mbx = s.mbx := rfl
@[simp] theorem setFlag_hostFn (s : State) (a : Nat) (f : Fld) (b : Bool) : (setFlag s a f b).hostFn = s.hostFn := rfl
@[simp] theorem setFlag_net (s : State) (a : Nat) (f : Fld) (b : Bool) : (setFlag s a f b).net = s.net := rfl
@[simp] theorem setFlag_upd (s : State) (a : Nat) (f : Fld) (b : Bool) : (setFlag s a f b).upd = s.upd := rfl
@[simp] theorem setFlag_keys (s : State) (a : Nat) (f : Fld) (b : Bool) : (setFlag s a f b).keys = s.keys := rfl
@[simp] theorem setFlag_tlog (s : State) (a : Nat) (f : Fld) (b : Bool) : (setFlag s a f b).tlog = s.tlog := rfl
@[simp] theorem setFlag_tlogLatch (s : State) (a : Nat) (f : Fld) (b : Bool) : (setFlag s a f b).tlogLatch = s.tlogLatch := rfl
@[simp] theorem setFlag_tacted (s : State) (a : Nat) (f : Fld) (b : Bool) : (setFlag s a f b).tacted = s.tacted := rfl
@[simp] theorem setFlag_islandOff (s : State) (a : Nat) (f : Fld) (b : Bool) : (setFlag s a f b).islandOff = s.islandOff := rfl
@[simp] theorem setFlag_vbatIn (s : State) (a : Nat) (f : Fld) (b : Bool) : (setFlag s a f b).vbatIn = s.vbatIn := rfl
@[simp] theorem setFlag_aud (s : State) (a : Nat) (f : Fld) (b : Bool) : (setFlag s a f b).aud = s.aud := rfl

@[simp] theorem incSat_pending (s : State) (a : Nat) (f : Fld) (n : Nat) : (incSat s a f n).pending = s.pending := rfl
@[simp] theorem incSat_mem (s : State) (a : Nat) (f : Fld) (n : Nat) : (incSat s a f n).mem = s.mem := rfl
@[simp] theorem incSat_poison (s : State) (a : Nat) (f : Fld) (n : Nat) : (incSat s a f n).poison = s.poison := rfl
@[simp] theorem incSat_fresh (s : State) (a : Nat) (f : Fld) (n : Nat) : (incSat s a f n).fresh = s.fresh := rfl
@[simp] theorem incSat_evq (s : State) (a : Nat) (f : Fld) (n : Nat) : (incSat s a f n).evq = s.evq := rfl
@[simp] theorem incSat_out (s : State) (a : Nat) (f : Fld) (n : Nat) : (incSat s a f n).out = s.out := rfl
@[simp] theorem incSat_rdata (s : State) (a : Nat) (f : Fld) (n : Nat) : (incSat s a f n).rdata = s.rdata := rfl
@[simp] theorem incSat_rwords (s : State) (a : Nat) (f : Fld) (n : Nat) : (incSat s a f n).rwords = s.rwords := rfl
@[simp] theorem incSat_rstat (s : State) (a : Nat) (f : Fld) (n : Nat) : (incSat s a f n).rstat = s.rstat := rfl
@[simp] theorem incSat_nPfail (s : State) (a : Nat) (f : Fld) (n : Nat) : (incSat s a f n).nPfail = s.nPfail := rfl
@[simp] theorem incSat_slck (s : State) (a : Nat) (f : Fld) (n : Nat) : (incSat s a f n).slck = s.slck := rfl
@[simp] theorem incSat_pic (s : State) (a : Nat) (f : Fld) (n : Nat) : (incSat s a f n).pic = s.pic := rfl
@[simp] theorem incSat_qe (s : State) (a : Nat) (f : Fld) (n : Nat) : (incSat s a f n).qe = s.qe := rfl
@[simp] theorem incSat_triads (s : State) (a : Nat) (f : Fld) (n : Nat) : (incSat s a f n).triads = s.triads := rfl
@[simp] theorem incSat_flog (s : State) (a : Nat) (f : Fld) (n : Nat) : (incSat s a f n).flog = s.flog := rfl
@[simp] theorem incSat_flogLatch (s : State) (a : Nat) (f : Fld) (n : Nat) : (incSat s a f n).flogLatch = s.flogLatch := rfl
@[simp] theorem incSat_clvLatch (s : State) (a : Nat) (f : Fld) (n : Nat) : (incSat s a f n).clvLatch = s.clvLatch := rfl
@[simp] theorem incSat_lat (s : State) (a : Nat) (f : Fld) (n : Nat) : (incSat s a f n).lat = s.lat := rfl
@[simp] theorem incSat_weft (s : State) (a : Nat) (f : Fld) (n : Nat) : (incSat s a f n).weft = s.weft := rfl
@[simp] theorem incSat_tly (s : State) (a : Nat) (f : Fld) (n : Nat) : (incSat s a f n).tly = s.tly := rfl
@[simp] theorem incSat_led (s : State) (a : Nat) (f : Fld) (n : Nat) : (incSat s a f n).led = s.led := rfl
@[simp] theorem incSat_cry (s : State) (a : Nat) (f : Fld) (n : Nat) : (incSat s a f n).cry = s.cry := rfl
@[simp] theorem incSat_drw (s : State) (a : Nat) (f : Fld) (n : Nat) : (incSat s a f n).drw = s.drw := rfl
@[simp] theorem incSat_tmr (s : State) (a : Nat) (f : Fld) (n : Nat) : (incSat s a f n).tmr = s.tmr := rfl
@[simp] theorem incSat_rtc (s : State) (a : Nat) (f : Fld) (n : Nat) : (incSat s a f n).rtc = s.rtc := rfl
@[simp] theorem incSat_evf (s : State) (a : Nat) (f : Fld) (n : Nat) : (incSat s a f n).evf = s.evf := rfl
@[simp] theorem incSat_mon (s : State) (a : Nat) (f : Fld) (n : Nat) : (incSat s a f n).mon = s.mon := rfl
@[simp] theorem incSat_wakeCause (s : State) (a : Nat) (f : Fld) (n : Nat) : (incSat s a f n).wakeCause = s.wakeCause := rfl
@[simp] theorem incSat_mbx (s : State) (a : Nat) (f : Fld) (n : Nat) : (incSat s a f n).mbx = s.mbx := rfl
@[simp] theorem incSat_hostFn (s : State) (a : Nat) (f : Fld) (n : Nat) : (incSat s a f n).hostFn = s.hostFn := rfl
@[simp] theorem incSat_net (s : State) (a : Nat) (f : Fld) (n : Nat) : (incSat s a f n).net = s.net := rfl
@[simp] theorem incSat_upd (s : State) (a : Nat) (f : Fld) (n : Nat) : (incSat s a f n).upd = s.upd := rfl
@[simp] theorem incSat_keys (s : State) (a : Nat) (f : Fld) (n : Nat) : (incSat s a f n).keys = s.keys := rfl
@[simp] theorem incSat_tlog (s : State) (a : Nat) (f : Fld) (n : Nat) : (incSat s a f n).tlog = s.tlog := rfl
@[simp] theorem incSat_tlogLatch (s : State) (a : Nat) (f : Fld) (n : Nat) : (incSat s a f n).tlogLatch = s.tlogLatch := rfl
@[simp] theorem incSat_tacted (s : State) (a : Nat) (f : Fld) (n : Nat) : (incSat s a f n).tacted = s.tacted := rfl
@[simp] theorem incSat_islandOff (s : State) (a : Nat) (f : Fld) (n : Nat) : (incSat s a f n).islandOff = s.islandOff := rfl
@[simp] theorem incSat_vbatIn (s : State) (a : Nat) (f : Fld) (n : Nat) : (incSat s a f n).vbatIn = s.vbatIn := rfl
@[simp] theorem incSat_aud (s : State) (a : Nat) (f : Fld) (n : Nat) : (incSat s a f n).aud = s.aud := rfl

@[simp] theorem incWrap_pending (s : State) (a : Nat) (f : Fld) (n : Nat) : (incWrap s a f n).pending = s.pending := rfl
@[simp] theorem incWrap_mem (s : State) (a : Nat) (f : Fld) (n : Nat) : (incWrap s a f n).mem = s.mem := rfl
@[simp] theorem incWrap_poison (s : State) (a : Nat) (f : Fld) (n : Nat) : (incWrap s a f n).poison = s.poison := rfl
@[simp] theorem incWrap_fresh (s : State) (a : Nat) (f : Fld) (n : Nat) : (incWrap s a f n).fresh = s.fresh := rfl
@[simp] theorem incWrap_evq (s : State) (a : Nat) (f : Fld) (n : Nat) : (incWrap s a f n).evq = s.evq := rfl
@[simp] theorem incWrap_out (s : State) (a : Nat) (f : Fld) (n : Nat) : (incWrap s a f n).out = s.out := rfl
@[simp] theorem incWrap_rdata (s : State) (a : Nat) (f : Fld) (n : Nat) : (incWrap s a f n).rdata = s.rdata := rfl
@[simp] theorem incWrap_rwords (s : State) (a : Nat) (f : Fld) (n : Nat) : (incWrap s a f n).rwords = s.rwords := rfl
@[simp] theorem incWrap_rstat (s : State) (a : Nat) (f : Fld) (n : Nat) : (incWrap s a f n).rstat = s.rstat := rfl
@[simp] theorem incWrap_nPfail (s : State) (a : Nat) (f : Fld) (n : Nat) : (incWrap s a f n).nPfail = s.nPfail := rfl
@[simp] theorem incWrap_slck (s : State) (a : Nat) (f : Fld) (n : Nat) : (incWrap s a f n).slck = s.slck := rfl
@[simp] theorem incWrap_pic (s : State) (a : Nat) (f : Fld) (n : Nat) : (incWrap s a f n).pic = s.pic := rfl
@[simp] theorem incWrap_qe (s : State) (a : Nat) (f : Fld) (n : Nat) : (incWrap s a f n).qe = s.qe := rfl
@[simp] theorem incWrap_triads (s : State) (a : Nat) (f : Fld) (n : Nat) : (incWrap s a f n).triads = s.triads := rfl
@[simp] theorem incWrap_flog (s : State) (a : Nat) (f : Fld) (n : Nat) : (incWrap s a f n).flog = s.flog := rfl
@[simp] theorem incWrap_flogLatch (s : State) (a : Nat) (f : Fld) (n : Nat) : (incWrap s a f n).flogLatch = s.flogLatch := rfl
@[simp] theorem incWrap_clvLatch (s : State) (a : Nat) (f : Fld) (n : Nat) : (incWrap s a f n).clvLatch = s.clvLatch := rfl
@[simp] theorem incWrap_lat (s : State) (a : Nat) (f : Fld) (n : Nat) : (incWrap s a f n).lat = s.lat := rfl
@[simp] theorem incWrap_weft (s : State) (a : Nat) (f : Fld) (n : Nat) : (incWrap s a f n).weft = s.weft := rfl
@[simp] theorem incWrap_tly (s : State) (a : Nat) (f : Fld) (n : Nat) : (incWrap s a f n).tly = s.tly := rfl
@[simp] theorem incWrap_led (s : State) (a : Nat) (f : Fld) (n : Nat) : (incWrap s a f n).led = s.led := rfl
@[simp] theorem incWrap_cry (s : State) (a : Nat) (f : Fld) (n : Nat) : (incWrap s a f n).cry = s.cry := rfl
@[simp] theorem incWrap_drw (s : State) (a : Nat) (f : Fld) (n : Nat) : (incWrap s a f n).drw = s.drw := rfl
@[simp] theorem incWrap_tmr (s : State) (a : Nat) (f : Fld) (n : Nat) : (incWrap s a f n).tmr = s.tmr := rfl
@[simp] theorem incWrap_rtc (s : State) (a : Nat) (f : Fld) (n : Nat) : (incWrap s a f n).rtc = s.rtc := rfl
@[simp] theorem incWrap_evf (s : State) (a : Nat) (f : Fld) (n : Nat) : (incWrap s a f n).evf = s.evf := rfl
@[simp] theorem incWrap_mon (s : State) (a : Nat) (f : Fld) (n : Nat) : (incWrap s a f n).mon = s.mon := rfl
@[simp] theorem incWrap_wakeCause (s : State) (a : Nat) (f : Fld) (n : Nat) : (incWrap s a f n).wakeCause = s.wakeCause := rfl
@[simp] theorem incWrap_mbx (s : State) (a : Nat) (f : Fld) (n : Nat) : (incWrap s a f n).mbx = s.mbx := rfl
@[simp] theorem incWrap_hostFn (s : State) (a : Nat) (f : Fld) (n : Nat) : (incWrap s a f n).hostFn = s.hostFn := rfl
@[simp] theorem incWrap_net (s : State) (a : Nat) (f : Fld) (n : Nat) : (incWrap s a f n).net = s.net := rfl
@[simp] theorem incWrap_upd (s : State) (a : Nat) (f : Fld) (n : Nat) : (incWrap s a f n).upd = s.upd := rfl
@[simp] theorem incWrap_keys (s : State) (a : Nat) (f : Fld) (n : Nat) : (incWrap s a f n).keys = s.keys := rfl
@[simp] theorem incWrap_tlog (s : State) (a : Nat) (f : Fld) (n : Nat) : (incWrap s a f n).tlog = s.tlog := rfl
@[simp] theorem incWrap_tlogLatch (s : State) (a : Nat) (f : Fld) (n : Nat) : (incWrap s a f n).tlogLatch = s.tlogLatch := rfl
@[simp] theorem incWrap_tacted (s : State) (a : Nat) (f : Fld) (n : Nat) : (incWrap s a f n).tacted = s.tacted := rfl
@[simp] theorem incWrap_islandOff (s : State) (a : Nat) (f : Fld) (n : Nat) : (incWrap s a f n).islandOff = s.islandOff := rfl
@[simp] theorem incWrap_vbatIn (s : State) (a : Nat) (f : Fld) (n : Nat) : (incWrap s a f n).vbatIn = s.vbatIn := rfl
@[simp] theorem incWrap_aud (s : State) (a : Nat) (f : Fld) (n : Nat) : (incWrap s a f n).aud = s.aud := rfl

@[simp] theorem resetRegs_pending (s : State) (lo hi : Nat) : (resetRegs s lo hi).pending = s.pending := rfl
@[simp] theorem resetRegs_mem (s : State) (lo hi : Nat) : (resetRegs s lo hi).mem = s.mem := rfl
@[simp] theorem resetRegs_poison (s : State) (lo hi : Nat) : (resetRegs s lo hi).poison = s.poison := rfl
@[simp] theorem resetRegs_fresh (s : State) (lo hi : Nat) : (resetRegs s lo hi).fresh = s.fresh := rfl
@[simp] theorem resetRegs_evq (s : State) (lo hi : Nat) : (resetRegs s lo hi).evq = s.evq := rfl
@[simp] theorem resetRegs_out (s : State) (lo hi : Nat) : (resetRegs s lo hi).out = s.out := rfl
@[simp] theorem resetRegs_rdata (s : State) (lo hi : Nat) : (resetRegs s lo hi).rdata = s.rdata := rfl
@[simp] theorem resetRegs_rwords (s : State) (lo hi : Nat) : (resetRegs s lo hi).rwords = s.rwords := rfl
@[simp] theorem resetRegs_rstat (s : State) (lo hi : Nat) : (resetRegs s lo hi).rstat = s.rstat := rfl
@[simp] theorem resetRegs_nPfail (s : State) (lo hi : Nat) : (resetRegs s lo hi).nPfail = s.nPfail := rfl
@[simp] theorem resetRegs_slck (s : State) (lo hi : Nat) : (resetRegs s lo hi).slck = s.slck := rfl
@[simp] theorem resetRegs_pic (s : State) (lo hi : Nat) : (resetRegs s lo hi).pic = s.pic := rfl
@[simp] theorem resetRegs_qe (s : State) (lo hi : Nat) : (resetRegs s lo hi).qe = s.qe := rfl
@[simp] theorem resetRegs_triads (s : State) (lo hi : Nat) : (resetRegs s lo hi).triads = s.triads := rfl
@[simp] theorem resetRegs_flog (s : State) (lo hi : Nat) : (resetRegs s lo hi).flog = s.flog := rfl
@[simp] theorem resetRegs_flogLatch (s : State) (lo hi : Nat) : (resetRegs s lo hi).flogLatch = s.flogLatch := rfl
@[simp] theorem resetRegs_clvLatch (s : State) (lo hi : Nat) : (resetRegs s lo hi).clvLatch = s.clvLatch := rfl
@[simp] theorem resetRegs_lat (s : State) (lo hi : Nat) : (resetRegs s lo hi).lat = s.lat := rfl
@[simp] theorem resetRegs_weft (s : State) (lo hi : Nat) : (resetRegs s lo hi).weft = s.weft := rfl
@[simp] theorem resetRegs_tly (s : State) (lo hi : Nat) : (resetRegs s lo hi).tly = s.tly := rfl
@[simp] theorem resetRegs_led (s : State) (lo hi : Nat) : (resetRegs s lo hi).led = s.led := rfl
@[simp] theorem resetRegs_cry (s : State) (lo hi : Nat) : (resetRegs s lo hi).cry = s.cry := rfl
@[simp] theorem resetRegs_drw (s : State) (lo hi : Nat) : (resetRegs s lo hi).drw = s.drw := rfl
@[simp] theorem resetRegs_tmr (s : State) (lo hi : Nat) : (resetRegs s lo hi).tmr = s.tmr := rfl
@[simp] theorem resetRegs_rtc (s : State) (lo hi : Nat) : (resetRegs s lo hi).rtc = s.rtc := rfl
@[simp] theorem resetRegs_evf (s : State) (lo hi : Nat) : (resetRegs s lo hi).evf = s.evf := rfl
@[simp] theorem resetRegs_mon (s : State) (lo hi : Nat) : (resetRegs s lo hi).mon = s.mon := rfl
@[simp] theorem resetRegs_wakeCause (s : State) (lo hi : Nat) : (resetRegs s lo hi).wakeCause = s.wakeCause := rfl
@[simp] theorem resetRegs_mbx (s : State) (lo hi : Nat) : (resetRegs s lo hi).mbx = s.mbx := rfl
@[simp] theorem resetRegs_hostFn (s : State) (lo hi : Nat) : (resetRegs s lo hi).hostFn = s.hostFn := rfl
@[simp] theorem resetRegs_net (s : State) (lo hi : Nat) : (resetRegs s lo hi).net = s.net := rfl
@[simp] theorem resetRegs_upd (s : State) (lo hi : Nat) : (resetRegs s lo hi).upd = s.upd := rfl
@[simp] theorem resetRegs_keys (s : State) (lo hi : Nat) : (resetRegs s lo hi).keys = s.keys := rfl
@[simp] theorem resetRegs_tlog (s : State) (lo hi : Nat) : (resetRegs s lo hi).tlog = s.tlog := rfl
@[simp] theorem resetRegs_tlogLatch (s : State) (lo hi : Nat) : (resetRegs s lo hi).tlogLatch = s.tlogLatch := rfl
@[simp] theorem resetRegs_tacted (s : State) (lo hi : Nat) : (resetRegs s lo hi).tacted = s.tacted := rfl
@[simp] theorem resetRegs_islandOff (s : State) (lo hi : Nat) : (resetRegs s lo hi).islandOff = s.islandOff := rfl
@[simp] theorem resetRegs_vbatIn (s : State) (lo hi : Nat) : (resetRegs s lo hi).vbatIn = s.vbatIn := rfl
@[simp] theorem resetRegs_aud (s : State) (lo hi : Nat) : (resetRegs s lo hi).aud = s.aud := rfl

@[simp] theorem putByte_pending (s : State) (k : Nat) (b : Byte) : (putByte s k b).pending = s.pending := rfl
@[simp] theorem putByte_csr (s : State) (k : Nat) (b : Byte) : (putByte s k b).csr = s.csr := rfl
@[simp] theorem putByte_poison (s : State) (k : Nat) (b : Byte) : (putByte s k b).poison = s.poison := rfl
@[simp] theorem putByte_fresh (s : State) (k : Nat) (b : Byte) : (putByte s k b).fresh = s.fresh := rfl
@[simp] theorem putByte_evq (s : State) (k : Nat) (b : Byte) : (putByte s k b).evq = s.evq := rfl
@[simp] theorem putByte_out (s : State) (k : Nat) (b : Byte) : (putByte s k b).out = s.out := rfl
@[simp] theorem putByte_rdata (s : State) (k : Nat) (b : Byte) : (putByte s k b).rdata = s.rdata := rfl
@[simp] theorem putByte_rwords (s : State) (k : Nat) (b : Byte) : (putByte s k b).rwords = s.rwords := rfl
@[simp] theorem putByte_rstat (s : State) (k : Nat) (b : Byte) : (putByte s k b).rstat = s.rstat := rfl
@[simp] theorem putByte_nPfail (s : State) (k : Nat) (b : Byte) : (putByte s k b).nPfail = s.nPfail := rfl
@[simp] theorem putByte_slck (s : State) (k : Nat) (b : Byte) : (putByte s k b).slck = s.slck := rfl
@[simp] theorem putByte_pic (s : State) (k : Nat) (b : Byte) : (putByte s k b).pic = s.pic := rfl
@[simp] theorem putByte_qe (s : State) (k : Nat) (b : Byte) : (putByte s k b).qe = s.qe := rfl
@[simp] theorem putByte_triads (s : State) (k : Nat) (b : Byte) : (putByte s k b).triads = s.triads := rfl
@[simp] theorem putByte_flog (s : State) (k : Nat) (b : Byte) : (putByte s k b).flog = s.flog := rfl
@[simp] theorem putByte_flogLatch (s : State) (k : Nat) (b : Byte) : (putByte s k b).flogLatch = s.flogLatch := rfl
@[simp] theorem putByte_clvLatch (s : State) (k : Nat) (b : Byte) : (putByte s k b).clvLatch = s.clvLatch := rfl
@[simp] theorem putByte_lat (s : State) (k : Nat) (b : Byte) : (putByte s k b).lat = s.lat := rfl
@[simp] theorem putByte_weft (s : State) (k : Nat) (b : Byte) : (putByte s k b).weft = s.weft := rfl
@[simp] theorem putByte_tly (s : State) (k : Nat) (b : Byte) : (putByte s k b).tly = s.tly := rfl
@[simp] theorem putByte_led (s : State) (k : Nat) (b : Byte) : (putByte s k b).led = s.led := rfl
@[simp] theorem putByte_cry (s : State) (k : Nat) (b : Byte) : (putByte s k b).cry = s.cry := rfl
@[simp] theorem putByte_drw (s : State) (k : Nat) (b : Byte) : (putByte s k b).drw = s.drw := rfl
@[simp] theorem putByte_tmr (s : State) (k : Nat) (b : Byte) : (putByte s k b).tmr = s.tmr := rfl
@[simp] theorem putByte_rtc (s : State) (k : Nat) (b : Byte) : (putByte s k b).rtc = s.rtc := rfl
@[simp] theorem putByte_evf (s : State) (k : Nat) (b : Byte) : (putByte s k b).evf = s.evf := rfl
@[simp] theorem putByte_mon (s : State) (k : Nat) (b : Byte) : (putByte s k b).mon = s.mon := rfl
@[simp] theorem putByte_wakeCause (s : State) (k : Nat) (b : Byte) : (putByte s k b).wakeCause = s.wakeCause := rfl
@[simp] theorem putByte_mbx (s : State) (k : Nat) (b : Byte) : (putByte s k b).mbx = s.mbx := rfl
@[simp] theorem putByte_hostFn (s : State) (k : Nat) (b : Byte) : (putByte s k b).hostFn = s.hostFn := rfl
@[simp] theorem putByte_net (s : State) (k : Nat) (b : Byte) : (putByte s k b).net = s.net := rfl
@[simp] theorem putByte_upd (s : State) (k : Nat) (b : Byte) : (putByte s k b).upd = s.upd := rfl
@[simp] theorem putByte_keys (s : State) (k : Nat) (b : Byte) : (putByte s k b).keys = s.keys := rfl
@[simp] theorem putByte_tlog (s : State) (k : Nat) (b : Byte) : (putByte s k b).tlog = s.tlog := rfl
@[simp] theorem putByte_tlogLatch (s : State) (k : Nat) (b : Byte) : (putByte s k b).tlogLatch = s.tlogLatch := rfl
@[simp] theorem putByte_tacted (s : State) (k : Nat) (b : Byte) : (putByte s k b).tacted = s.tacted := rfl
@[simp] theorem putByte_islandOff (s : State) (k : Nat) (b : Byte) : (putByte s k b).islandOff = s.islandOff := rfl
@[simp] theorem putByte_vbatIn (s : State) (k : Nat) (b : Byte) : (putByte s k b).vbatIn = s.vbatIn := rfl
@[simp] theorem putByte_aud (s : State) (k : Nat) (b : Byte) : (putByte s k b).aud = s.aud := rfl

@[simp] theorem setPoison_pending (s : State) (k : Nat) (b : Bool) : (setPoison s k b).pending = s.pending := rfl
@[simp] theorem setPoison_csr (s : State) (k : Nat) (b : Bool) : (setPoison s k b).csr = s.csr := rfl
@[simp] theorem setPoison_mem (s : State) (k : Nat) (b : Bool) : (setPoison s k b).mem = s.mem := rfl
@[simp] theorem setPoison_fresh (s : State) (k : Nat) (b : Bool) : (setPoison s k b).fresh = s.fresh := rfl
@[simp] theorem setPoison_evq (s : State) (k : Nat) (b : Bool) : (setPoison s k b).evq = s.evq := rfl
@[simp] theorem setPoison_out (s : State) (k : Nat) (b : Bool) : (setPoison s k b).out = s.out := rfl
@[simp] theorem setPoison_rdata (s : State) (k : Nat) (b : Bool) : (setPoison s k b).rdata = s.rdata := rfl
@[simp] theorem setPoison_rwords (s : State) (k : Nat) (b : Bool) : (setPoison s k b).rwords = s.rwords := rfl
@[simp] theorem setPoison_rstat (s : State) (k : Nat) (b : Bool) : (setPoison s k b).rstat = s.rstat := rfl
@[simp] theorem setPoison_nPfail (s : State) (k : Nat) (b : Bool) : (setPoison s k b).nPfail = s.nPfail := rfl
@[simp] theorem setPoison_slck (s : State) (k : Nat) (b : Bool) : (setPoison s k b).slck = s.slck := rfl
@[simp] theorem setPoison_pic (s : State) (k : Nat) (b : Bool) : (setPoison s k b).pic = s.pic := rfl
@[simp] theorem setPoison_qe (s : State) (k : Nat) (b : Bool) : (setPoison s k b).qe = s.qe := rfl
@[simp] theorem setPoison_triads (s : State) (k : Nat) (b : Bool) : (setPoison s k b).triads = s.triads := rfl
@[simp] theorem setPoison_flog (s : State) (k : Nat) (b : Bool) : (setPoison s k b).flog = s.flog := rfl
@[simp] theorem setPoison_flogLatch (s : State) (k : Nat) (b : Bool) : (setPoison s k b).flogLatch = s.flogLatch := rfl
@[simp] theorem setPoison_clvLatch (s : State) (k : Nat) (b : Bool) : (setPoison s k b).clvLatch = s.clvLatch := rfl
@[simp] theorem setPoison_lat (s : State) (k : Nat) (b : Bool) : (setPoison s k b).lat = s.lat := rfl
@[simp] theorem setPoison_weft (s : State) (k : Nat) (b : Bool) : (setPoison s k b).weft = s.weft := rfl
@[simp] theorem setPoison_tly (s : State) (k : Nat) (b : Bool) : (setPoison s k b).tly = s.tly := rfl
@[simp] theorem setPoison_led (s : State) (k : Nat) (b : Bool) : (setPoison s k b).led = s.led := rfl
@[simp] theorem setPoison_cry (s : State) (k : Nat) (b : Bool) : (setPoison s k b).cry = s.cry := rfl
@[simp] theorem setPoison_drw (s : State) (k : Nat) (b : Bool) : (setPoison s k b).drw = s.drw := rfl
@[simp] theorem setPoison_tmr (s : State) (k : Nat) (b : Bool) : (setPoison s k b).tmr = s.tmr := rfl
@[simp] theorem setPoison_rtc (s : State) (k : Nat) (b : Bool) : (setPoison s k b).rtc = s.rtc := rfl
@[simp] theorem setPoison_evf (s : State) (k : Nat) (b : Bool) : (setPoison s k b).evf = s.evf := rfl
@[simp] theorem setPoison_mon (s : State) (k : Nat) (b : Bool) : (setPoison s k b).mon = s.mon := rfl
@[simp] theorem setPoison_wakeCause (s : State) (k : Nat) (b : Bool) : (setPoison s k b).wakeCause = s.wakeCause := rfl
@[simp] theorem setPoison_mbx (s : State) (k : Nat) (b : Bool) : (setPoison s k b).mbx = s.mbx := rfl
@[simp] theorem setPoison_hostFn (s : State) (k : Nat) (b : Bool) : (setPoison s k b).hostFn = s.hostFn := rfl
@[simp] theorem setPoison_net (s : State) (k : Nat) (b : Bool) : (setPoison s k b).net = s.net := rfl
@[simp] theorem setPoison_upd (s : State) (k : Nat) (b : Bool) : (setPoison s k b).upd = s.upd := rfl
@[simp] theorem setPoison_keys (s : State) (k : Nat) (b : Bool) : (setPoison s k b).keys = s.keys := rfl
@[simp] theorem setPoison_tlog (s : State) (k : Nat) (b : Bool) : (setPoison s k b).tlog = s.tlog := rfl
@[simp] theorem setPoison_tlogLatch (s : State) (k : Nat) (b : Bool) : (setPoison s k b).tlogLatch = s.tlogLatch := rfl
@[simp] theorem setPoison_tacted (s : State) (k : Nat) (b : Bool) : (setPoison s k b).tacted = s.tacted := rfl
@[simp] theorem setPoison_islandOff (s : State) (k : Nat) (b : Bool) : (setPoison s k b).islandOff = s.islandOff := rfl
@[simp] theorem setPoison_vbatIn (s : State) (k : Nat) (b : Bool) : (setPoison s k b).vbatIn = s.vbatIn := rfl
@[simp] theorem setPoison_aud (s : State) (k : Nat) (b : Bool) : (setPoison s k b).aud = s.aud := rfl

@[simp] theorem wipe_pending (s : State) (lo hi : Nat) : (wipe s lo hi).pending = s.pending := rfl
@[simp] theorem wipe_csr (s : State) (lo hi : Nat) : (wipe s lo hi).csr = s.csr := rfl
@[simp] theorem wipe_fresh (s : State) (lo hi : Nat) : (wipe s lo hi).fresh = s.fresh := rfl
@[simp] theorem wipe_evq (s : State) (lo hi : Nat) : (wipe s lo hi).evq = s.evq := rfl
@[simp] theorem wipe_out (s : State) (lo hi : Nat) : (wipe s lo hi).out = s.out := rfl
@[simp] theorem wipe_rdata (s : State) (lo hi : Nat) : (wipe s lo hi).rdata = s.rdata := rfl
@[simp] theorem wipe_rwords (s : State) (lo hi : Nat) : (wipe s lo hi).rwords = s.rwords := rfl
@[simp] theorem wipe_rstat (s : State) (lo hi : Nat) : (wipe s lo hi).rstat = s.rstat := rfl
@[simp] theorem wipe_nPfail (s : State) (lo hi : Nat) : (wipe s lo hi).nPfail = s.nPfail := rfl
@[simp] theorem wipe_slck (s : State) (lo hi : Nat) : (wipe s lo hi).slck = s.slck := rfl
@[simp] theorem wipe_pic (s : State) (lo hi : Nat) : (wipe s lo hi).pic = s.pic := rfl
@[simp] theorem wipe_qe (s : State) (lo hi : Nat) : (wipe s lo hi).qe = s.qe := rfl
@[simp] theorem wipe_triads (s : State) (lo hi : Nat) : (wipe s lo hi).triads = s.triads := rfl
@[simp] theorem wipe_flog (s : State) (lo hi : Nat) : (wipe s lo hi).flog = s.flog := rfl
@[simp] theorem wipe_flogLatch (s : State) (lo hi : Nat) : (wipe s lo hi).flogLatch = s.flogLatch := rfl
@[simp] theorem wipe_clvLatch (s : State) (lo hi : Nat) : (wipe s lo hi).clvLatch = s.clvLatch := rfl
@[simp] theorem wipe_lat (s : State) (lo hi : Nat) : (wipe s lo hi).lat = s.lat := rfl
@[simp] theorem wipe_weft (s : State) (lo hi : Nat) : (wipe s lo hi).weft = s.weft := rfl
@[simp] theorem wipe_tly (s : State) (lo hi : Nat) : (wipe s lo hi).tly = s.tly := rfl
@[simp] theorem wipe_led (s : State) (lo hi : Nat) : (wipe s lo hi).led = s.led := rfl
@[simp] theorem wipe_cry (s : State) (lo hi : Nat) : (wipe s lo hi).cry = s.cry := rfl
@[simp] theorem wipe_drw (s : State) (lo hi : Nat) : (wipe s lo hi).drw = s.drw := rfl
@[simp] theorem wipe_tmr (s : State) (lo hi : Nat) : (wipe s lo hi).tmr = s.tmr := rfl
@[simp] theorem wipe_rtc (s : State) (lo hi : Nat) : (wipe s lo hi).rtc = s.rtc := rfl
@[simp] theorem wipe_evf (s : State) (lo hi : Nat) : (wipe s lo hi).evf = s.evf := rfl
@[simp] theorem wipe_mon (s : State) (lo hi : Nat) : (wipe s lo hi).mon = s.mon := rfl
@[simp] theorem wipe_wakeCause (s : State) (lo hi : Nat) : (wipe s lo hi).wakeCause = s.wakeCause := rfl
@[simp] theorem wipe_mbx (s : State) (lo hi : Nat) : (wipe s lo hi).mbx = s.mbx := rfl
@[simp] theorem wipe_hostFn (s : State) (lo hi : Nat) : (wipe s lo hi).hostFn = s.hostFn := rfl
@[simp] theorem wipe_net (s : State) (lo hi : Nat) : (wipe s lo hi).net = s.net := rfl
@[simp] theorem wipe_upd (s : State) (lo hi : Nat) : (wipe s lo hi).upd = s.upd := rfl
@[simp] theorem wipe_keys (s : State) (lo hi : Nat) : (wipe s lo hi).keys = s.keys := rfl
@[simp] theorem wipe_tlog (s : State) (lo hi : Nat) : (wipe s lo hi).tlog = s.tlog := rfl
@[simp] theorem wipe_tlogLatch (s : State) (lo hi : Nat) : (wipe s lo hi).tlogLatch = s.tlogLatch := rfl
@[simp] theorem wipe_tacted (s : State) (lo hi : Nat) : (wipe s lo hi).tacted = s.tacted := rfl
@[simp] theorem wipe_islandOff (s : State) (lo hi : Nat) : (wipe s lo hi).islandOff = s.islandOff := rfl
@[simp] theorem wipe_vbatIn (s : State) (lo hi : Nat) : (wipe s lo hi).vbatIn = s.vbatIn := rfl
@[simp] theorem wipe_aud (s : State) (lo hi : Nat) : (wipe s lo hi).aud = s.aud := rfl

@[simp] theorem copyMem_pending (s : State) (src dst n : Nat) : (copyMem s src dst n).pending = s.pending := rfl
@[simp] theorem copyMem_csr (s : State) (src dst n : Nat) : (copyMem s src dst n).csr = s.csr := rfl
@[simp] theorem copyMem_fresh (s : State) (src dst n : Nat) : (copyMem s src dst n).fresh = s.fresh := rfl
@[simp] theorem copyMem_evq (s : State) (src dst n : Nat) : (copyMem s src dst n).evq = s.evq := rfl
@[simp] theorem copyMem_out (s : State) (src dst n : Nat) : (copyMem s src dst n).out = s.out := rfl
@[simp] theorem copyMem_rdata (s : State) (src dst n : Nat) : (copyMem s src dst n).rdata = s.rdata := rfl
@[simp] theorem copyMem_rwords (s : State) (src dst n : Nat) : (copyMem s src dst n).rwords = s.rwords := rfl
@[simp] theorem copyMem_rstat (s : State) (src dst n : Nat) : (copyMem s src dst n).rstat = s.rstat := rfl
@[simp] theorem copyMem_nPfail (s : State) (src dst n : Nat) : (copyMem s src dst n).nPfail = s.nPfail := rfl
@[simp] theorem copyMem_slck (s : State) (src dst n : Nat) : (copyMem s src dst n).slck = s.slck := rfl
@[simp] theorem copyMem_pic (s : State) (src dst n : Nat) : (copyMem s src dst n).pic = s.pic := rfl
@[simp] theorem copyMem_qe (s : State) (src dst n : Nat) : (copyMem s src dst n).qe = s.qe := rfl
@[simp] theorem copyMem_triads (s : State) (src dst n : Nat) : (copyMem s src dst n).triads = s.triads := rfl
@[simp] theorem copyMem_flog (s : State) (src dst n : Nat) : (copyMem s src dst n).flog = s.flog := rfl
@[simp] theorem copyMem_flogLatch (s : State) (src dst n : Nat) : (copyMem s src dst n).flogLatch = s.flogLatch := rfl
@[simp] theorem copyMem_clvLatch (s : State) (src dst n : Nat) : (copyMem s src dst n).clvLatch = s.clvLatch := rfl
@[simp] theorem copyMem_lat (s : State) (src dst n : Nat) : (copyMem s src dst n).lat = s.lat := rfl
@[simp] theorem copyMem_weft (s : State) (src dst n : Nat) : (copyMem s src dst n).weft = s.weft := rfl
@[simp] theorem copyMem_tly (s : State) (src dst n : Nat) : (copyMem s src dst n).tly = s.tly := rfl
@[simp] theorem copyMem_led (s : State) (src dst n : Nat) : (copyMem s src dst n).led = s.led := rfl
@[simp] theorem copyMem_cry (s : State) (src dst n : Nat) : (copyMem s src dst n).cry = s.cry := rfl
@[simp] theorem copyMem_drw (s : State) (src dst n : Nat) : (copyMem s src dst n).drw = s.drw := rfl
@[simp] theorem copyMem_tmr (s : State) (src dst n : Nat) : (copyMem s src dst n).tmr = s.tmr := rfl
@[simp] theorem copyMem_rtc (s : State) (src dst n : Nat) : (copyMem s src dst n).rtc = s.rtc := rfl
@[simp] theorem copyMem_evf (s : State) (src dst n : Nat) : (copyMem s src dst n).evf = s.evf := rfl
@[simp] theorem copyMem_mon (s : State) (src dst n : Nat) : (copyMem s src dst n).mon = s.mon := rfl
@[simp] theorem copyMem_wakeCause (s : State) (src dst n : Nat) : (copyMem s src dst n).wakeCause = s.wakeCause := rfl
@[simp] theorem copyMem_mbx (s : State) (src dst n : Nat) : (copyMem s src dst n).mbx = s.mbx := rfl
@[simp] theorem copyMem_hostFn (s : State) (src dst n : Nat) : (copyMem s src dst n).hostFn = s.hostFn := rfl
@[simp] theorem copyMem_net (s : State) (src dst n : Nat) : (copyMem s src dst n).net = s.net := rfl
@[simp] theorem copyMem_upd (s : State) (src dst n : Nat) : (copyMem s src dst n).upd = s.upd := rfl
@[simp] theorem copyMem_keys (s : State) (src dst n : Nat) : (copyMem s src dst n).keys = s.keys := rfl
@[simp] theorem copyMem_tlog (s : State) (src dst n : Nat) : (copyMem s src dst n).tlog = s.tlog := rfl
@[simp] theorem copyMem_tlogLatch (s : State) (src dst n : Nat) : (copyMem s src dst n).tlogLatch = s.tlogLatch := rfl
@[simp] theorem copyMem_tacted (s : State) (src dst n : Nat) : (copyMem s src dst n).tacted = s.tacted := rfl
@[simp] theorem copyMem_islandOff (s : State) (src dst n : Nat) : (copyMem s src dst n).islandOff = s.islandOff := rfl
@[simp] theorem copyMem_vbatIn (s : State) (src dst n : Nat) : (copyMem s src dst n).vbatIn = s.vbatIn := rfl
@[simp] theorem copyMem_aud (s : State) (src dst n : Nat) : (copyMem s src dst n).aud = s.aud := rfl

@[simp] theorem drawFree_pending (s : State) : (drawFree s).2.pending = s.pending := rfl
@[simp] theorem drawFree_csr (s : State) : (drawFree s).2.csr = s.csr := rfl
@[simp] theorem drawFree_mem (s : State) : (drawFree s).2.mem = s.mem := rfl
@[simp] theorem drawFree_poison (s : State) : (drawFree s).2.poison = s.poison := rfl
@[simp] theorem drawFree_evq (s : State) : (drawFree s).2.evq = s.evq := rfl
@[simp] theorem drawFree_out (s : State) : (drawFree s).2.out = s.out := rfl
@[simp] theorem drawFree_rdata (s : State) : (drawFree s).2.rdata = s.rdata := rfl
@[simp] theorem drawFree_rwords (s : State) : (drawFree s).2.rwords = s.rwords := rfl
@[simp] theorem drawFree_rstat (s : State) : (drawFree s).2.rstat = s.rstat := rfl
@[simp] theorem drawFree_nPfail (s : State) : (drawFree s).2.nPfail = s.nPfail := rfl
@[simp] theorem drawFree_slck (s : State) : (drawFree s).2.slck = s.slck := rfl
@[simp] theorem drawFree_pic (s : State) : (drawFree s).2.pic = s.pic := rfl
@[simp] theorem drawFree_qe (s : State) : (drawFree s).2.qe = s.qe := rfl
@[simp] theorem drawFree_triads (s : State) : (drawFree s).2.triads = s.triads := rfl
@[simp] theorem drawFree_flog (s : State) : (drawFree s).2.flog = s.flog := rfl
@[simp] theorem drawFree_flogLatch (s : State) : (drawFree s).2.flogLatch = s.flogLatch := rfl
@[simp] theorem drawFree_clvLatch (s : State) : (drawFree s).2.clvLatch = s.clvLatch := rfl
@[simp] theorem drawFree_lat (s : State) : (drawFree s).2.lat = s.lat := rfl
@[simp] theorem drawFree_weft (s : State) : (drawFree s).2.weft = s.weft := rfl
@[simp] theorem drawFree_tly (s : State) : (drawFree s).2.tly = s.tly := rfl
@[simp] theorem drawFree_led (s : State) : (drawFree s).2.led = s.led := rfl
@[simp] theorem drawFree_cry (s : State) : (drawFree s).2.cry = s.cry := rfl
@[simp] theorem drawFree_drw (s : State) : (drawFree s).2.drw = s.drw := rfl
@[simp] theorem drawFree_tmr (s : State) : (drawFree s).2.tmr = s.tmr := rfl
@[simp] theorem drawFree_rtc (s : State) : (drawFree s).2.rtc = s.rtc := rfl
@[simp] theorem drawFree_evf (s : State) : (drawFree s).2.evf = s.evf := rfl
@[simp] theorem drawFree_mon (s : State) : (drawFree s).2.mon = s.mon := rfl
@[simp] theorem drawFree_wakeCause (s : State) : (drawFree s).2.wakeCause = s.wakeCause := rfl
@[simp] theorem drawFree_mbx (s : State) : (drawFree s).2.mbx = s.mbx := rfl
@[simp] theorem drawFree_hostFn (s : State) : (drawFree s).2.hostFn = s.hostFn := rfl
@[simp] theorem drawFree_net (s : State) : (drawFree s).2.net = s.net := rfl
@[simp] theorem drawFree_upd (s : State) : (drawFree s).2.upd = s.upd := rfl
@[simp] theorem drawFree_keys (s : State) : (drawFree s).2.keys = s.keys := rfl
@[simp] theorem drawFree_tlog (s : State) : (drawFree s).2.tlog = s.tlog := rfl
@[simp] theorem drawFree_tlogLatch (s : State) : (drawFree s).2.tlogLatch = s.tlogLatch := rfl
@[simp] theorem drawFree_tacted (s : State) : (drawFree s).2.tacted = s.tacted := rfl
@[simp] theorem drawFree_islandOff (s : State) : (drawFree s).2.islandOff = s.islandOff := rfl
@[simp] theorem drawFree_vbatIn (s : State) : (drawFree s).2.vbatIn = s.vbatIn := rfl
@[simp] theorem drawFree_aud (s : State) : (drawFree s).2.aud = s.aud := rfl

@[simp] theorem produce_pending (s : State) (n : Nat) : (produce s n).pending = s.pending := rfl
@[simp] theorem produce_csr (s : State) (n : Nat) : (produce s n).csr = s.csr := rfl
@[simp] theorem produce_mem (s : State) (n : Nat) : (produce s n).mem = s.mem := rfl
@[simp] theorem produce_poison (s : State) (n : Nat) : (produce s n).poison = s.poison := rfl
@[simp] theorem produce_fresh (s : State) (n : Nat) : (produce s n).fresh = s.fresh := rfl
@[simp] theorem produce_out (s : State) (n : Nat) : (produce s n).out = s.out := rfl
@[simp] theorem produce_rdata (s : State) (n : Nat) : (produce s n).rdata = s.rdata := rfl
@[simp] theorem produce_rwords (s : State) (n : Nat) : (produce s n).rwords = s.rwords := rfl
@[simp] theorem produce_rstat (s : State) (n : Nat) : (produce s n).rstat = s.rstat := rfl
@[simp] theorem produce_nPfail (s : State) (n : Nat) : (produce s n).nPfail = s.nPfail := rfl
@[simp] theorem produce_slck (s : State) (n : Nat) : (produce s n).slck = s.slck := rfl
@[simp] theorem produce_pic (s : State) (n : Nat) : (produce s n).pic = s.pic := rfl
@[simp] theorem produce_qe (s : State) (n : Nat) : (produce s n).qe = s.qe := rfl
@[simp] theorem produce_triads (s : State) (n : Nat) : (produce s n).triads = s.triads := rfl
@[simp] theorem produce_flog (s : State) (n : Nat) : (produce s n).flog = s.flog := rfl
@[simp] theorem produce_flogLatch (s : State) (n : Nat) : (produce s n).flogLatch = s.flogLatch := rfl
@[simp] theorem produce_clvLatch (s : State) (n : Nat) : (produce s n).clvLatch = s.clvLatch := rfl
@[simp] theorem produce_lat (s : State) (n : Nat) : (produce s n).lat = s.lat := rfl
@[simp] theorem produce_weft (s : State) (n : Nat) : (produce s n).weft = s.weft := rfl
@[simp] theorem produce_tly (s : State) (n : Nat) : (produce s n).tly = s.tly := rfl
@[simp] theorem produce_led (s : State) (n : Nat) : (produce s n).led = s.led := rfl
@[simp] theorem produce_cry (s : State) (n : Nat) : (produce s n).cry = s.cry := rfl
@[simp] theorem produce_drw (s : State) (n : Nat) : (produce s n).drw = s.drw := rfl
@[simp] theorem produce_tmr (s : State) (n : Nat) : (produce s n).tmr = s.tmr := rfl
@[simp] theorem produce_rtc (s : State) (n : Nat) : (produce s n).rtc = s.rtc := rfl
@[simp] theorem produce_evf (s : State) (n : Nat) : (produce s n).evf = s.evf := rfl
@[simp] theorem produce_mon (s : State) (n : Nat) : (produce s n).mon = s.mon := rfl
@[simp] theorem produce_wakeCause (s : State) (n : Nat) : (produce s n).wakeCause = s.wakeCause := rfl
@[simp] theorem produce_mbx (s : State) (n : Nat) : (produce s n).mbx = s.mbx := rfl
@[simp] theorem produce_hostFn (s : State) (n : Nat) : (produce s n).hostFn = s.hostFn := rfl
@[simp] theorem produce_net (s : State) (n : Nat) : (produce s n).net = s.net := rfl
@[simp] theorem produce_upd (s : State) (n : Nat) : (produce s n).upd = s.upd := rfl
@[simp] theorem produce_keys (s : State) (n : Nat) : (produce s n).keys = s.keys := rfl
@[simp] theorem produce_tlog (s : State) (n : Nat) : (produce s n).tlog = s.tlog := rfl
@[simp] theorem produce_tlogLatch (s : State) (n : Nat) : (produce s n).tlogLatch = s.tlogLatch := rfl
@[simp] theorem produce_tacted (s : State) (n : Nat) : (produce s n).tacted = s.tacted := rfl
@[simp] theorem produce_islandOff (s : State) (n : Nat) : (produce s n).islandOff = s.islandOff := rfl
@[simp] theorem produce_vbatIn (s : State) (n : Nat) : (produce s n).vbatIn = s.vbatIn := rfl
@[simp] theorem produce_aud (s : State) (n : Nat) : (produce s n).aud = s.aud := rfl

@[simp] theorem emit_pending (s : State) (o : Output) : (emit s o).pending = s.pending := rfl
@[simp] theorem emit_csr (s : State) (o : Output) : (emit s o).csr = s.csr := rfl
@[simp] theorem emit_mem (s : State) (o : Output) : (emit s o).mem = s.mem := rfl
@[simp] theorem emit_poison (s : State) (o : Output) : (emit s o).poison = s.poison := rfl
@[simp] theorem emit_fresh (s : State) (o : Output) : (emit s o).fresh = s.fresh := rfl
@[simp] theorem emit_evq (s : State) (o : Output) : (emit s o).evq = s.evq := rfl
@[simp] theorem emit_rdata (s : State) (o : Output) : (emit s o).rdata = s.rdata := rfl
@[simp] theorem emit_rwords (s : State) (o : Output) : (emit s o).rwords = s.rwords := rfl
@[simp] theorem emit_rstat (s : State) (o : Output) : (emit s o).rstat = s.rstat := rfl
@[simp] theorem emit_nPfail (s : State) (o : Output) : (emit s o).nPfail = s.nPfail := rfl
@[simp] theorem emit_slck (s : State) (o : Output) : (emit s o).slck = s.slck := rfl
@[simp] theorem emit_pic (s : State) (o : Output) : (emit s o).pic = s.pic := rfl
@[simp] theorem emit_qe (s : State) (o : Output) : (emit s o).qe = s.qe := rfl
@[simp] theorem emit_triads (s : State) (o : Output) : (emit s o).triads = s.triads := rfl
@[simp] theorem emit_flog (s : State) (o : Output) : (emit s o).flog = s.flog := rfl
@[simp] theorem emit_flogLatch (s : State) (o : Output) : (emit s o).flogLatch = s.flogLatch := rfl
@[simp] theorem emit_clvLatch (s : State) (o : Output) : (emit s o).clvLatch = s.clvLatch := rfl
@[simp] theorem emit_lat (s : State) (o : Output) : (emit s o).lat = s.lat := rfl
@[simp] theorem emit_weft (s : State) (o : Output) : (emit s o).weft = s.weft := rfl
@[simp] theorem emit_tly (s : State) (o : Output) : (emit s o).tly = s.tly := rfl
@[simp] theorem emit_led (s : State) (o : Output) : (emit s o).led = s.led := rfl
@[simp] theorem emit_cry (s : State) (o : Output) : (emit s o).cry = s.cry := rfl
@[simp] theorem emit_drw (s : State) (o : Output) : (emit s o).drw = s.drw := rfl
@[simp] theorem emit_tmr (s : State) (o : Output) : (emit s o).tmr = s.tmr := rfl
@[simp] theorem emit_rtc (s : State) (o : Output) : (emit s o).rtc = s.rtc := rfl
@[simp] theorem emit_evf (s : State) (o : Output) : (emit s o).evf = s.evf := rfl
@[simp] theorem emit_mon (s : State) (o : Output) : (emit s o).mon = s.mon := rfl
@[simp] theorem emit_wakeCause (s : State) (o : Output) : (emit s o).wakeCause = s.wakeCause := rfl
@[simp] theorem emit_mbx (s : State) (o : Output) : (emit s o).mbx = s.mbx := rfl
@[simp] theorem emit_hostFn (s : State) (o : Output) : (emit s o).hostFn = s.hostFn := rfl
@[simp] theorem emit_net (s : State) (o : Output) : (emit s o).net = s.net := rfl
@[simp] theorem emit_upd (s : State) (o : Output) : (emit s o).upd = s.upd := rfl
@[simp] theorem emit_keys (s : State) (o : Output) : (emit s o).keys = s.keys := rfl
@[simp] theorem emit_tlog (s : State) (o : Output) : (emit s o).tlog = s.tlog := rfl
@[simp] theorem emit_tlogLatch (s : State) (o : Output) : (emit s o).tlogLatch = s.tlogLatch := rfl
@[simp] theorem emit_tacted (s : State) (o : Output) : (emit s o).tacted = s.tacted := rfl
@[simp] theorem emit_islandOff (s : State) (o : Output) : (emit s o).islandOff = s.islandOff := rfl
@[simp] theorem emit_vbatIn (s : State) (o : Output) : (emit s o).vbatIn = s.vbatIn := rfl
@[simp] theorem emit_aud (s : State) (o : Output) : (emit s o).aud = s.aud := rfl

@[simp] theorem setT_pending (s : State) (t : Nat) (x : Triad) : (setT s t x).pending = s.pending := rfl
@[simp] theorem setT_csr (s : State) (t : Nat) (x : Triad) : (setT s t x).csr = s.csr := rfl
@[simp] theorem setT_mem (s : State) (t : Nat) (x : Triad) : (setT s t x).mem = s.mem := rfl
@[simp] theorem setT_poison (s : State) (t : Nat) (x : Triad) : (setT s t x).poison = s.poison := rfl
@[simp] theorem setT_fresh (s : State) (t : Nat) (x : Triad) : (setT s t x).fresh = s.fresh := rfl
@[simp] theorem setT_evq (s : State) (t : Nat) (x : Triad) : (setT s t x).evq = s.evq := rfl
@[simp] theorem setT_out (s : State) (t : Nat) (x : Triad) : (setT s t x).out = s.out := rfl
@[simp] theorem setT_rdata (s : State) (t : Nat) (x : Triad) : (setT s t x).rdata = s.rdata := rfl
@[simp] theorem setT_rwords (s : State) (t : Nat) (x : Triad) : (setT s t x).rwords = s.rwords := rfl
@[simp] theorem setT_rstat (s : State) (t : Nat) (x : Triad) : (setT s t x).rstat = s.rstat := rfl
@[simp] theorem setT_nPfail (s : State) (t : Nat) (x : Triad) : (setT s t x).nPfail = s.nPfail := rfl
@[simp] theorem setT_slck (s : State) (t : Nat) (x : Triad) : (setT s t x).slck = s.slck := rfl
@[simp] theorem setT_pic (s : State) (t : Nat) (x : Triad) : (setT s t x).pic = s.pic := rfl
@[simp] theorem setT_qe (s : State) (t : Nat) (x : Triad) : (setT s t x).qe = s.qe := rfl
@[simp] theorem setT_flog (s : State) (t : Nat) (x : Triad) : (setT s t x).flog = s.flog := rfl
@[simp] theorem setT_flogLatch (s : State) (t : Nat) (x : Triad) : (setT s t x).flogLatch = s.flogLatch := rfl
@[simp] theorem setT_clvLatch (s : State) (t : Nat) (x : Triad) : (setT s t x).clvLatch = s.clvLatch := rfl
@[simp] theorem setT_lat (s : State) (t : Nat) (x : Triad) : (setT s t x).lat = s.lat := rfl
@[simp] theorem setT_weft (s : State) (t : Nat) (x : Triad) : (setT s t x).weft = s.weft := rfl
@[simp] theorem setT_tly (s : State) (t : Nat) (x : Triad) : (setT s t x).tly = s.tly := rfl
@[simp] theorem setT_led (s : State) (t : Nat) (x : Triad) : (setT s t x).led = s.led := rfl
@[simp] theorem setT_cry (s : State) (t : Nat) (x : Triad) : (setT s t x).cry = s.cry := rfl
@[simp] theorem setT_drw (s : State) (t : Nat) (x : Triad) : (setT s t x).drw = s.drw := rfl
@[simp] theorem setT_tmr (s : State) (t : Nat) (x : Triad) : (setT s t x).tmr = s.tmr := rfl
@[simp] theorem setT_rtc (s : State) (t : Nat) (x : Triad) : (setT s t x).rtc = s.rtc := rfl
@[simp] theorem setT_evf (s : State) (t : Nat) (x : Triad) : (setT s t x).evf = s.evf := rfl
@[simp] theorem setT_mon (s : State) (t : Nat) (x : Triad) : (setT s t x).mon = s.mon := rfl
@[simp] theorem setT_wakeCause (s : State) (t : Nat) (x : Triad) : (setT s t x).wakeCause = s.wakeCause := rfl
@[simp] theorem setT_mbx (s : State) (t : Nat) (x : Triad) : (setT s t x).mbx = s.mbx := rfl
@[simp] theorem setT_hostFn (s : State) (t : Nat) (x : Triad) : (setT s t x).hostFn = s.hostFn := rfl
@[simp] theorem setT_net (s : State) (t : Nat) (x : Triad) : (setT s t x).net = s.net := rfl
@[simp] theorem setT_upd (s : State) (t : Nat) (x : Triad) : (setT s t x).upd = s.upd := rfl
@[simp] theorem setT_keys (s : State) (t : Nat) (x : Triad) : (setT s t x).keys = s.keys := rfl
@[simp] theorem setT_tlog (s : State) (t : Nat) (x : Triad) : (setT s t x).tlog = s.tlog := rfl
@[simp] theorem setT_tlogLatch (s : State) (t : Nat) (x : Triad) : (setT s t x).tlogLatch = s.tlogLatch := rfl
@[simp] theorem setT_tacted (s : State) (t : Nat) (x : Triad) : (setT s t x).tacted = s.tacted := rfl
@[simp] theorem setT_islandOff (s : State) (t : Nat) (x : Triad) : (setT s t x).islandOff = s.islandOff := rfl
@[simp] theorem setT_vbatIn (s : State) (t : Nat) (x : Triad) : (setT s t x).vbatIn = s.vbatIn := rfl
@[simp] theorem setT_aud (s : State) (t : Nat) (x : Triad) : (setT s t x).aud = s.aud := rfl

end Sys2Proof.Machine
end

