-- ==== Sys2Proof/Laws/Memory.lean ====
section
/-!
SUPPORT. The laws of memory: a byte read after it is stored, bytes elsewhere, and that every operation over memory and
poison marks keeps their canonical forms.
-/

namespace Sys2Proof.Machine

/-- Memory and poison marks are in their canonical forms. -/
def State.memWf (s : State) : Bool := Memory.wf s.mem && twf (fun _ => false) s.poison

theorem memWf_iff (s : State) : s.memWf = true ↔ twf memInit s.mem = true ∧ twf (fun _ => false) s.poison = true := by
  simp [State.memWf, Memory.wf]

/-! ### Reading after writing -/

@[simp] theorem getByte_putByte_same (s : State) (k : Nat) (b : Byte) : getByte (putByte s k b) k = b :=
  tget_tset_same ..

theorem getByte_putByte_other (s : State) {k j : Nat} (b : Byte) (h : j ≠ k) :
    getByte (putByte s k b) j = getByte s j :=
  tget_tset_other _ _ _ h

@[simp] theorem getByte_setPoison (s : State) (k : Nat) (p : Bool) (j : Nat) :
    getByte (setPoison s k p) j = getByte s j := rfl

theorem getByte_putBytes_other (l : List Byte) (s : State) {k j : Nat} (h : j < k ∨ k + l.length ≤ j) :
    getByte (putBytes s k l) j = getByte s j := by
  induction l generalizing s k with
  | nil => rfl
  | cons b r ih =>
    simp only [List.length_cons] at h
    simp only [putBytes]
    rw [ih _ (by omega), getByte_putByte_other _ _ (by omega)]

theorem getByte_putBytes_in (l : List Byte) (s : State) {k : Nat} {i : Nat} (h : i < l.length) :
    getByte (putBytes s k l) (k + i) = l[i] := by
  induction l generalizing s k i with
  | nil => cases h
  | cons b r ih =>
    simp only [putBytes]
    cases i with
    | zero => rw [getByte_putBytes_other _ _ (by omega)]; simp
    | succ n =>
      have h' : n < r.length := by simpa using h
      rw [show k + (n + 1) = k + 1 + n by omega, ih _ h']; simp

theorem putBytes_poison (l : List Byte) (s : State) (k : Nat) : (putBytes s k l).poison = s.poison := by
  induction l generalizing s k with
  | nil => rfl
  | cons b r ih => simp only [putBytes]; rw [ih]; rfl

theorem leBytes_length (n v : Nat) : (leBytes n v).length = n := by
  induction n generalizing v with
  | zero => rfl
  | succ n ih => simp [leBytes, ih]

/-! ### The canonical forms -/

theorem trange_keysRise_some {α : Type} {t : Tab α} {lo hi b : Nat} (h : keysRise (some b) t = true) :
    keysRise (some b) (trange lo hi t) = true := by
  induction t generalizing b with
  | nil => rfl
  | cons p r ih =>
    simp [keysRise] at h
    by_cases hk : (lo ≤ p.1 && p.1 < hi) = true
    · simp only [trange, hk, if_true]; simp [keysRise]; exact ⟨h.1, ih h.2⟩
    · simp only [trange, hk]; exact keysRise_lower (Nat.le_of_lt h.1) (ih h.2)

/-- A range of a table is in canonical form. -/
theorem trange_wf {α : Type} [DecidableEq α] {d : Nat → α} {t : Tab α} (lo hi : Nat) (h : twf d t = true) :
    twf d (trange lo hi t) = true := by
  simp only [twf, Bool.and_eq_true] at h ⊢
  constructor
  · cases t with
    | nil => rfl
    | cons p r =>
      have h1 := h.1
      simp [keysRise] at h1
      by_cases hk : (lo ≤ p.1 && p.1 < hi) = true
      · simp only [trange, hk, if_true]; simp [keysRise]; exact trange_keysRise_some h1
      · simp only [trange, hk]; exact keysRise_weaken (trange_keysRise_some h1)
  · have h2 := h.2
    clear h
    induction t with
    | nil => rfl
    | cons p r ih =>
      simp [noDefaults] at h2
      by_cases hk : (lo ≤ p.1 && p.1 < hi) = true
      · simp only [trange, hk, if_true]; simp [noDefaults, h2.1]; exact ih h2.2
      · simp only [trange, hk]; exact ih h2.2

theorem putByte_memWf (s : State) (k : Nat) (b : Byte) (h : s.memWf = true) : (putByte s k b).memWf = true := by
  rw [memWf_iff] at h ⊢
  exact ⟨tset_wf _ _ h.1, h.2⟩

theorem putBytes_memWf (l : List Byte) (s : State) (k : Nat) (h : s.memWf = true) : (putBytes s k l).memWf = true := by
  induction l generalizing s k with
  | nil => exact h
  | cons b r ih => exact ih _ _ (putByte_memWf s k b h)

theorem putWord_memWf (s : State) (k : Nat) (w : Word) (h : s.memWf = true) : (putWord s k w).memWf = true :=
  putBytes_memWf _ s k h

theorem setPoison_memWf (s : State) (k : Nat) (b : Bool) (h : s.memWf = true) : (setPoison s k b).memWf = true := by
  rw [memWf_iff] at h ⊢
  exact ⟨h.1, tset_wf _ _ h.2⟩

theorem wipe_memWf (s : State) (lo hi : Nat) (h : s.memWf = true) : (wipe s lo hi).memWf = true := by
  rw [memWf_iff] at h ⊢
  exact ⟨tclear_wf _ _ h.1, tclear_wf _ _ h.2⟩

theorem copyMem_memWf (s : State) (src dst n : Nat) (h : s.memWf = true) : (copyMem s src dst n).memWf = true := by
  rw [memWf_iff] at h ⊢
  exact ⟨tcopy_wf _ _ _ h.1, tclear_wf _ _ h.2⟩

theorem storeBytes_memWf (s s' : State) (k z : Nat) (w : Word) (h : s.memWf = true)
    (e : storeBytes s k z w = some s') : s'.memWf = true := by
  unfold storeBytes at e
  split at e
  · cases e; exact setPoison_memWf _ _ _ (putWord_memWf _ _ _ h)
  · split at e
    · cases e
    · cases e; exact putBytes_memWf _ _ _ h

theorem putMram_memWf (s : State) (a : Nat) (l : List Byte) (h : s.memWf = true) : (putMram s a l).memWf = true := by
  have h' := putBytes_memWf l s a h
  rw [memWf_iff] at h' ⊢
  exact ⟨h'.1, tclear_wf _ _ h'.2⟩

/-- The charger changes registers alone. -/
theorem chargerSync_rest (s : State) : chargerSync s = { s with csr := (chargerSync s).csr } := by
  unfold chargerSync
  dsimp only
  split <;> rfl

theorem chargerSync_mem (s : State) : (chargerSync s).mem = s.mem := by rw [chargerSync_rest]

theorem chargerSync_poison (s : State) : (chargerSync s).poison = s.poison := by rw [chargerSync_rest]

theorem keptState_mem (s : State) : (keptState s).mem = trange 0x30000000 0x34000000 s.mem := by
  unfold keptState
  exact (chargerSync_mem _).trans rfl

theorem keptState_poison (s : State) : (keptState s).poison = trange 0x30000000 0x34000000 s.poison := by
  unfold keptState
  exact (chargerSync_poison _).trans rfl

/-- What a reset of the card keeps of memory is in canonical form. -/
theorem keptState_memWf (s : State) (h : s.memWf = true) : (keptState s).memWf = true := by
  rw [memWf_iff] at h ⊢
  rw [keptState_mem, keptState_poison]
  exact ⟨trange_wf _ _ h.1, trange_wf _ _ h.2⟩

/-- Memory at reset is in canonical form. -/
theorem reset_memWf : State.reset.memWf = true := rfl

end Sys2Proof.Machine
end

