-- ==== Sys2Proof/Laws/Settle.lean ====
section
/-!
SUPPORT. What the card does of itself after a command leaves alone: memory, every triad but for a halt that was due, and
the parts of the card outside the units that react.
-/

namespace Sys2Proof.Machine

theorem SameButHalt.refl (x : Triad) : SameButHalt x x := rfl

theorem SameButHalt.trans {x y z : Triad} (h : SameButHalt x y) (k : SameButHalt y z) : SameButHalt x z := by
  unfold SameButHalt at *
  rw [k, h]

@[simp] theorem getT_setT_same (s : State) (t : Nat) (x : Triad) : getT (setT s t x) t = x := tget_tset_same ..

theorem getT_setT_other (s : State) {t j : Nat} (x : Triad) (h : j ≠ t) : getT (setT s t x) j = getT s j :=
  tget_tset_other _ _ _ h

@[simp] theorem getT_setReg (s : State) (a : Nat) (w : Word) (t : Nat) : getT (setReg s a w) t = getT s t := rfl

/-- Setting a triad's record to one that differs only in its halt. -/
theorem sameButHalt_setT (s : State) (t : Nat) (x : Triad) (h : SameButHalt (getT s t) x) (j : Nat) :
    SameButHalt (getT s j) (getT (setT s t x) j) := by
  by_cases e : j = t
  · subst e; rw [getT_setT_same]; exact h
  · rw [getT_setT_other _ _ e]; exact .refl _

theorem haltTriad_triads (s : State) (t j : Nat) : SameButHalt (getT s j) (getT (haltTriad s t) j) :=
  sameButHalt_setT (setReg s DBG_STAT (reg s DBG_STAT ||| BitVec.ofNat 32 (2 ^ t))) t
    { getT s t with halted := true, stepping := false, haltAt := none, pairA := none } rfl j

/-- The state s with other registers and triads. -/
def regsTriads (s u : State) : State := { s with csr := u.csr, triads := u.triads }

theorem haltTriad_rest (s : State) (t : Nat) : haltTriad s t = regsTriads s (haltTriad s t) := rfl

/-- HALT changes registers and triads alone. -/
theorem debugHalt_rest (s : State) (t : Nat) : debugHalt s t = regsTriads s (debugHalt s t) := by
  unfold debugHalt
  dsimp only
  repeat' split
  all_goals rfl

/-- HALT changes of a triad nothing but its halt. -/
theorem debugHalt_triads (s : State) (t j : Nat) : SameButHalt (getT s j) (getT (debugHalt s t) j) := by
  unfold debugHalt
  dsimp only
  split
  · exact .refl _
  · split
    · exact sameButHalt_setT s t { getT s t with haltDue := true } rfl j
    · split
      · exact haltTriad_triads s t j
      · exact sameButHalt_setT s t { getT s t with haltAt := some ((getT s t).haltAt.getD ((getT s t).rcount + 64)) } rfl j

theorem regsTriads_trans {s u w : State} (h : u = regsTriads s u) (k : w = regsTriads u w) : w = regsTriads s w := by
  unfold regsTriads at *
  rw [k, h]

/-- One triad's due halt. -/
def haltDueOf (s : State) (p : Nat × Triad) : State :=
  if p.2.haltDue && unsealed s && !flag s (SUP_TRIAD p.1) SUP_TRIAD_PAUSED then
    debugHalt (setT s p.1 { getT s p.1 with haltDue := false }) p.1
  else s

theorem haltDueOf_rest (s : State) (p : Nat × Triad) : haltDueOf s p = regsTriads s (haltDueOf s p) := by
  unfold haltDueOf
  split
  · exact regsTriads_trans (u := setT s p.1 { getT s p.1 with haltDue := false }) rfl (debugHalt_rest _ _)
  · rfl

theorem haltDueOf_triads (s : State) (p : Nat × Triad) (j : Nat) : SameButHalt (getT s j) (getT (haltDueOf s p) j) := by
  unfold haltDueOf
  split
  · exact (sameButHalt_setT s p.1 { getT s p.1 with haltDue := false } rfl j).trans (debugHalt_triads _ _ j)
  · exact .refl _

theorem haltsDue_eq (s : State) : haltsDue s = s.triads.foldl haltDueOf s := rfl

theorem foldl_haltDueOf (l : List (Nat × Triad)) (s : State) :
    l.foldl haltDueOf s = regsTriads s (l.foldl haltDueOf s) ∧
      ∀ j, SameButHalt (getT s j) (getT (l.foldl haltDueOf s) j) := by
  induction l generalizing s with
  | nil => exact ⟨rfl, fun _ => .refl _⟩
  | cons p r ih =>
    have h := ih (haltDueOf s p)
    exact ⟨regsTriads_trans (haltDueOf_rest s p) h.1, fun j => (haltDueOf_triads s p j).trans (h.2 j)⟩

theorem haltsDue_rest (s : State) : haltsDue s = regsTriads s (haltsDue s) := (foldl_haltDueOf s.triads s).1

theorem haltsDue_triads (s : State) (j : Nat) : SameButHalt (getT s j) (getT (haltsDue s) j) :=
  (foldl_haltDueOf s.triads s).2 j

@[simp] theorem withReactions_mem (s u : State) : (withReactions s u).mem = s.mem := rfl
@[simp] theorem withReactions_poison (s u : State) : (withReactions s u).poison = s.poison := rfl
@[simp] theorem getT_withReactions (s u : State) (j : Nat) : getT (withReactions s u) j = getT s j := rfl

theorem CardSame.trans {u w z : State} (h : CardSame u w) (k : CardSame w z) : CardSame u z := by
  constructor
  · exact k.pending.trans h.pending
  · exact k.rdata.trans h.rdata
  · exact k.rwords.trans h.rwords
  · exact k.rstat.trans h.rstat
  · exact k.nPfail.trans h.nPfail
  · exact k.slck.trans h.slck
  · exact k.flog.trans h.flog
  · exact k.flogLatch.trans h.flogLatch
  · exact k.clvLatch.trans h.clvLatch
  · exact k.weft.trans h.weft
  · exact k.tly.trans h.tly
  · exact k.cry.trans h.cry
  · exact k.drw.trans h.drw
  · exact k.rtc.trans h.rtc
  · exact k.net.trans h.net
  · exact k.upd.trans h.upd
  · exact k.keys.trans h.keys
  · exact k.tlog.trans h.tlog
  · exact k.tlogLatch.trans h.tlogLatch
  · exact k.tacted.trans h.tacted
  · exact k.islandOff.trans h.islandOff
  · exact k.vbatIn.trans h.vbatIn
  · exact k.aud.trans h.aud

theorem withReactions_card (s u : State) : CardSame s (withReactions s u) := by constructor <;> rfl

theorem regsTriads_card (s u : State) : CardSame s (regsTriads s u) := by constructor <;> rfl

/-- The state s with other levels of the pins, and the outputs that show them. -/
def padsOut (s u : State) : State := { s with pads := u.pads, out := u.out }

theorem padSync_rest (s : State) (i : Nat) : padSync s i = padsOut s (padSync s i) := by
  unfold padSync
  dsimp only
  split <;> rfl

theorem foldl_padSync (l : List Nat) (s : State) : l.foldl padSync s = padsOut s (l.foldl padSync s) := by
  induction l generalizing s with
  | nil => rfl
  | cons i r ih =>
    have h := ih (padSync s i)
    rw [padSync_rest s i] at h
    rw [List.foldl_cons, padSync_rest s i, h]
    rfl

/-- The pins that follow their blocks change nothing else. -/
theorem padsSync_rest (s : State) : padsSync s = padsOut s (padsSync s) := foldl_padSync outPads s

theorem padsOut_card (s u : State) : CardSame s (padsOut s u) := by constructor <;> rfl

@[simp] theorem padsOut_mem (s u : State) : (padsOut s u).mem = s.mem := rfl
@[simp] theorem padsOut_poison (s u : State) : (padsOut s u).poison = s.poison := rfl
@[simp] theorem getT_padsOut (s u : State) (j : Nat) : getT (padsOut s u) j = getT s j := rfl
@[simp] theorem padsSync_mem (s : State) : (padsSync s).mem = s.mem := by rw [padsSync_rest, padsOut_mem]
@[simp] theorem padsSync_poison (s : State) : (padsSync s).poison = s.poison := by rw [padsSync_rest, padsOut_poison]
@[simp] theorem getT_padsSync (s : State) (j : Nat) : getT (padsSync s) j = getT s j := by rw [padsSync_rest, getT_padsOut]

theorem settle_eq (s : State) : settle s = padsSync (withReactions (haltsDue s) (reactions (haltsDue s))) := by unfold settle; rfl

/-- What the card does of itself leaves every triad alone but for a due halt. -/
theorem settle_triads (s : State) (j : Nat) : SameButHalt (getT s j) (getT (settle s) j) := by
  rw [settle_eq, getT_padsSync, getT_withReactions]
  exact haltsDue_triads s j

theorem settle_mem (s : State) : (settle s).mem = s.mem := by
  rw [settle_eq, padsSync_mem, withReactions_mem, haltsDue_rest]; rfl

theorem settle_poison (s : State) : (settle s).poison = s.poison := by
  rw [settle_eq, padsSync_poison, withReactions_poison, haltsDue_rest]; rfl

theorem settle_memory (s : State) : MemSame s (settle s) :=
  ⟨fun k => by unfold getByte; rw [settle_mem], fun k => by unfold poisoned; rw [settle_poison]⟩

theorem settle_card (s : State) : CardSame s (settle s) := by
  rw [settle_eq]
  have h := withReactions_card (haltsDue s) (reactions (haltsDue s))
  have k : CardSame s (haltsDue s) := by rw [haltsDue_rest]; exact regsTriads_card _ _
  refine (k.trans h).trans ?_
  rw [padsSync_rest]
  exact padsOut_card _ _

/-- With no access of DBG_ACC waiting, the command's own effect is followed by the card's reactions alone. -/
theorem afterwards_eq (s : State) (h : s.aud.acc = false) : afterwards s = settle s := by
  unfold afterwards debugAccess
  rw [h]; rfl

/-- Every command ends with its own effect and what follows it. -/
theorem finish_eq (s : State) : finish s = .next (afterwards s) := rfl

end Sys2Proof.Machine
end

