-- ==== Sys2Proof/Laws/Moves.lean ====
section
/-!
SUPPORT. One move of a triad from fetch to retirement, said once: what `runMove` leaves for each answer of the move's unit,
and what a reader of the state sees of it when the command ends.
-/

namespace Sys2Proof.Machine

theorem moveOf_len {dst : Nat} {f : MoveForm} {m : Move} (h : moveOf dst f = .ok m) : m.len = formLen f := by
  cases f with
  | short src last =>
    simp only [moveOf] at h
    split at h
    · cases h
    · cases h; rfl
  | port src seg =>
    simp only [moveOf] at h
    split at h
    · cases h
    · cases h; rfl
  | imm v => cases h; rfl

theorem decodeMove_len {e : Encoding} {m : Move} (h : decodeMove e = .ok m) : m.len = encLen e := by
  cases e with
  | short x =>
    simp only [decodeMove, decodeShort] at h
    split at h
    · cases h
    · split at h
      · cases h
      · cases h; rfl
  | long x =>
    simp only [decodeMove, decodeLong] at h
    split at h <;> (repeat' split at h) <;> first | (cases h; rfl) | cases h

/-! ### Ports -/

@[simp] theorem port_setPort_same (x : Triad) (id : Nat) (w : Word) : port (setPort x id w) id = w := tget_tset_same ..

theorem port_setPort_other (x : Triad) {id j : Nat} (w : Word) (h : j ≠ id) : port (setPort x id w) j = port x j :=
  tget_tset_other _ _ _ h

@[simp] theorem setPort_pc (x : Triad) (id : Nat) (w : Word) : (setPort x id w).pc = x.pc := rfl
@[simp] theorem setPort_loops (x : Triad) (id : Nat) (w : Word) : (setPort x id w).loops = x.loops := rfl
@[simp] theorem setPort_rcount (x : Triad) (id : Nat) (w : Word) : (setPort x id w).rcount = x.rcount := rfl
@[simp] theorem setPort_lcnt (x : Triad) (id : Nat) (w : Word) : (setPort x id w).lcnt = x.lcnt := rfl
@[simp] theorem setPort_dec (x : Triad) (id : Nat) (w : Word) : (setPort x id w).dec = x.dec := rfl
@[simp] theorem setPort_gth (x : Triad) (id : Nat) (w : Word) : (setPort x id w).gth = x.gth := rfl

/-! ### Retirement -/

theorem counted_aud (s : State) (t : Nat) (x : Triad) : (counted s t x).aud = s.aud := by
  unfold counted
  dsimp only
  split <;> rfl

/-- One counted retirement: triad t's record is x but for what debug does to it. -/
theorem counted_self (s : State) (t : Nat) (x : Triad) :
    SameButHalt { x with bptPass := false } (getT (counted s t x) t) := by
  unfold counted
  dsimp only
  split
  · have h := haltTriad_triads (setT s t { x with bptPass := false }) t t
    rwa [getT_setT_same] at h
  · rw [getT_setT_same]; exact .refl _

theorem counted_other (s : State) (t : Nat) (x : Triad) (j : Nat) (h : j ≠ t) :
    SameButHalt (getT s j) (getT (counted s t x) j) := by
  unfold counted
  dsimp only
  split
  · have k := haltTriad_triads (setT s t { x with bptPass := false }) t j
    rwa [getT_setT_other _ _ h] at k
  · rw [getT_setT_other _ _ h]; exact .refl _

/-- One counted retirement changes registers and triads alone. -/
theorem counted_rest (s : State) (t : Nat) (x : Triad) : counted s t x = regsTriads s (counted s t x) := by
  unfold counted
  dsimp only
  split
  · exact regsTriads_trans (u := setT s t { x with bptPass := false }) rfl (haltTriad_rest _ _)
  · rfl

theorem counted_mem (s : State) (t : Nat) (x : Triad) : (counted s t x).mem = s.mem := by
  rw [counted_rest]; rfl

theorem counted_poison (s : State) (t : Nat) (x : Triad) : (counted s t x).poison = s.poison := by
  rw [counted_rest]; rfl

theorem counted_memory (s : State) (t : Nat) (x : Triad) : MemSame s (counted s t x) :=
  ⟨fun k => by unfold getByte; rw [counted_mem], fun k => by unfold poisoned; rw [counted_poison]⟩

theorem counted_card (s : State) (t : Nat) (x : Triad) : CardSame s (counted s t x) := by
  have h := counted_rest s t x
  constructor
  all_goals (rw [h]; rfl)

theorem MemSame.trans {u w z : State} (h : MemSame u w) (k : MemSame w z) : MemSame u z :=
  ⟨fun i => (k.1 i).trans (h.1 i), fun i => (k.2 i).trans (h.2 i)⟩

theorem MemSame.of_eq {u w : State} (h : w.mem = u.mem) (k : w.poison = u.poison) : MemSame u w :=
  ⟨fun i => by unfold getByte; rw [h], fun i => by unfold poisoned; rw [k]⟩

/-! ### Settled triads -/

theorem SameButHalt.settled {x y : Triad} (h : SameButHalt x y) (k : Settled x) : Settled y := by
  unfold SameButHalt at h
  rw [h]
  exact k

theorem settled_retireOf {x : Triad} (k : Settled x) (m : Move) (c : Option Word) (npc : Word) (pair rti : Bool) :
    Settled (retireOf x m c npc pair rti) := k

/-- Where nothing is due in a triad, a command ends with the move it ran. -/
theorem ends_settled (s w : State) (t : Nat) (k : Settled (getT w t)) : splitDone (keepPace s (atPoint w t) t) t = w := by
  obtain ⟨h1, h2, h3⟩ := k
  have e1 : atPoint w t = w := by unfold atPoint; rw [h1]
  have e2 : keepPace s w t = w := by unfold keepPace; simp [h2]
  rw [e1, e2]
  unfold splitDone
  rw [h3]

theorem OthersSame.trans {u w z : State} {t : Nat} (h : OthersSame u w t) (k : OthersSame w z t) : OthersSame u z t :=
  fun j e => (h j e).trans (k j e)

theorem othersSame_setT (s : State) (t : Nat) (x : Triad) : OthersSame s (setT s t x) t :=
  fun j h => by rw [getT_setT_other _ _ h]; exact .refl _

theorem settle_others (s : State) (t : Nat) : OthersSame s (settle s) t := fun j _ => settle_triads s j

/-- A command that ends with a counted retirement of triad t: the triad's record, the others, memory, the card. -/
theorem afterwards_counted (s : State) (t : Nat) (x : Triad) (h : s.aud.acc = false) :
    SameButHalt { x with bptPass := false } (getT (afterwards (counted s t x)) t) ∧
      OthersSame s (afterwards (counted s t x)) t ∧ MemSame s (afterwards (counted s t x)) ∧
      CardSame s (afterwards (counted s t x)) := by
  rw [afterwards_eq _ (by rw [counted_aud]; exact h)]
  exact ⟨(counted_self s t x).trans (settle_triads _ t),
    OthersSame.trans (fun j e => counted_other s t x j e) (settle_others _ t),
    (counted_memory s t x).trans (settle_memory _), (counted_card s t x).trans (settle_card _)⟩

/-- What a retired move leaves of triad t's record. -/
theorem retireOf_retiredTo (x : Triad) (m : Move) (c : Option Word) (npc : Word) (pair : Bool) (y : Triad)
    (h : SameButHalt { retireOf x m c npc pair false with bptPass := false } y) :
    RetiredTo x y npc ∧ y.ports = x.ports := by
  unfold SameButHalt at h
  rw [h]
  exact ⟨⟨rfl, rfl, rfl⟩, rfl⟩

/-! ### From fetch to retirement -/

theorem traceCommit_made (old new : State) (h : new.aud.made = []) : traceCommit old new = new := by
  unfold traceCommit
  rw [h]; rfl

/-- A command that ends with a counted retirement of a triad in which nothing is due. -/
theorem ends_counted (s u : State) (t : Nat) (x : Triad) (hm : u.aud.made = []) (k : Settled x) :
    splitDone (keepPace s (atPoint (traceCommit s (counted u t x)) t) t) t = counted u t x := by
  rw [traceCommit_made _ _ ((congrArg Audit.made (counted_aud _ _ _)).trans hm)]
  have h : Settled { x with bptPass := false } := k
  exact ends_settled _ _ _ ((counted_self u t x).settled h)

/-- What a move that its triad performs does, unless its unit raises an exception: the retirement by the unit's answer. -/
theorem runMove_performs {s u : State} {t : Nat} {m : Move} {v : Word} {c : Circ} (P : Performs s t m v u c) (eff : UnitEff)
    (hx : ∀ e, eff u t v (segOf m.op) m none ≠ .exc e) :
    ∃ pair, runMove s t (.ok m) m.len c eff = splitDone (keepPace s
      (atPoint (traceCommit s (settleMove u t m v false pair c (eff u t v (segOf m.op) m none))) t) t) t := by
  obtain ⟨s1, hf, hr, hp, hs⟩ := P.fetched
  refine ⟨pairNow s t (.ok m) m.len, ?_⟩
  have ht : trail s t c.late = s := by unfold trail; rw [P.abreast]
  have hd : pointDue s t = false := by unfold pointDue; dsimp only; rw [P.before.1]
  unfold runMove runLed moveOrStep oneMove
  rw [P.issues, ht]
  simp only [if_true, hd, P.free, P.passes, Bool.false_eq_true, if_false, Option.isSome_none, fetchAndRun, hf, execMove, hp,
    checkResume, hr, Bool.not_false, moveValue, hs, Option.map_none]

/-- A move whose unit answers `done`: it retires, with the next move after it. -/
theorem run_done {s u u' : State} {t : Nat} {m : Move} {v : Word} {c : Circ} (P : Performs s t m v u c) {eff : UnitEff}
    (he : eff u t v (segOf m.op) m none = .done u') (hm : u'.aud.made = []) (hk : Settled (getT u' t)) :
    ∃ k pair, runMove s t (.ok m) m.len c eff =
      counted u' t (retireOf (getT u' t) m k ((getT u' t).pc + BitVec.ofNat 32 m.len) pair false) := by
  obtain ⟨pair, h⟩ := runMove_performs P eff (by rw [he]; exact fun _ => Eff.noConfusion)
  rw [he] at h
  exact ⟨_, pair, h.trans (ends_counted s u' t _ hm (settled_retireOf hk m _ _ pair false))⟩

/-- A move whose unit answers with a next PC. -/
theorem run_jump {s u u' : State} {t : Nat} {m : Move} {v npc : Word} {c : Circ} {taken : Bool} (P : Performs s t m v u c)
    {eff : UnitEff} (he : eff u t v (segOf m.op) m none = .jump u' npc taken ∨ eff u t v (segOf m.op) m none = .moved u' npc)
    (hm : u'.aud.made = []) (hk : Settled (getT u' t)) :
    ∃ l k pair, runMove s t (.ok m) m.len c eff =
      counted u' t (retireOf { getT u' t with landed := l } m k npc pair false) := by
  obtain ⟨pair, h⟩ := runMove_performs P eff (by rcases he with he | he <;> rw [he] <;> exact fun _ => Eff.noConfusion)
  rcases he with he | he <;> rw [he] at h
  · exact ⟨taken, none, pair, h.trans (ends_counted s u' t _ hm
      (settled_retireOf (x := { getT u' t with landed := taken }) hk m _ _ pair false))⟩
  · exact ⟨(getT u' t).landed, some v, pair, h.trans (ends_counted s u' t _ hm (settled_retireOf hk m _ _ pair false))⟩

/-- A command that performs a move whose unit leaves state u': what it answers. -/
theorem finish_done {s u u' : State} {t : Nat} {m : Move} {v : Word} {c : Circ} (P : Performs s t m v u c) {eff : UnitEff}
    (he : eff u t v (segOf m.op) m none = .done u') (ha : u'.aud = u.aud) (hk : Settled (getT u' t)) :
    ∃ w, finish (runMove s t (.ok m) m.len c eff) = .next w ∧
      RetiredTo (getT u' t) (getT w t) ((getT u' t).pc + BitVec.ofNat 32 m.len) ∧
      (getT w t).ports = (getT u' t).ports ∧ OthersSame u' w t ∧ MemSame u' w ∧ CardSame u' w := by
  obtain ⟨k, pair, h⟩ := run_done P he (by rw [ha]; exact P.untraced) hk
  obtain ⟨h1, h2, h3, h4⟩ := afterwards_counted u' t
    (retireOf (getT u' t) m k ((getT u' t).pc + BitVec.ofNat 32 m.len) pair false) (by rw [ha]; exact P.noAccess)
  obtain ⟨k1, k2⟩ := retireOf_retiredTo _ _ _ _ _ _ h1
  exact ⟨_, by rw [h]; rfl, k1, k2, h2, h3, h4⟩

/-- The same for a move whose unit answers with a next PC. -/
theorem finish_jump {s u u' : State} {t : Nat} {m : Move} {v npc : Word} {c : Circ} {taken : Bool} (P : Performs s t m v u c)
    {eff : UnitEff} (he : eff u t v (segOf m.op) m none = .jump u' npc taken ∨ eff u t v (segOf m.op) m none = .moved u' npc)
    (ha : u'.aud = u.aud) (hk : Settled (getT u' t)) :
    ∃ w, finish (runMove s t (.ok m) m.len c eff) = .next w ∧
      RetiredTo (getT u' t) (getT w t) npc ∧
      (getT w t).ports = (getT u' t).ports ∧ OthersSame u' w t ∧ MemSame u' w ∧ CardSame u' w := by
  obtain ⟨l, k, pair, h⟩ := run_jump P he (by rw [ha]; exact P.untraced) hk
  obtain ⟨h1, h2, h3, h4⟩ := afterwards_counted u' t (retireOf { getT u' t with landed := l } m k npc pair false)
    (by rw [ha]; exact P.noAccess)
  obtain ⟨k1, k2⟩ := retireOf_retiredTo _ _ _ _ _ _ h1
  exact ⟨_, by rw [h]; rfl, ⟨k1.rest, k1.next, k1.count⟩, k2, h2, h3, h4⟩

/-- A record that differs from x in its ports alone, and what a retirement makes of it. -/
theorem RetiredTo.of_ports {x y : Triad} {ps : Tab Word} {npc : Word} (h : RetiredTo { x with ports := ps } y npc) :
    RetiredTo x y npc :=
  ⟨h.rest, h.next, h.count⟩

/-- What a state that follows another by a change of triad t's record leaves of the card. -/
theorem CardSame.of_setT {u w : State} {t : Nat} {x : Triad} (h : CardSame (setT u t x) w) : CardSame u w :=
  ⟨h.1, h.2, h.3, h.4, h.5, h.6, h.7, h.8, h.9, h.10, h.11, h.12, h.13, h.14, h.15, h.16, h.17, h.18, h.19, h.20, h.21, h.22, h.23⟩

/-- A command that performs a move whose unit changes triad t's record alone: to x, and its ports to those of y. -/
theorem finish_record {s u : State} {t : Nat} {m : Move} {v : Word} {c : Circ} (P : Performs s t m v u c) {eff : UnitEff}
    (x y : Triad) (hy : y = { x with ports := y.ports }) (he : eff u t v (segOf m.op) m none = .done (setT u t y))
    (hk : Settled x) (ps : List Nat) (hp : ∀ id, id ∉ ps → port y id = port (getT u t) id) :
    ∃ w, finish (runMove s t (.ok m) m.len c eff) = .next w ∧ MoveFrame u w t x ps (x.pc + BitVec.ofNat 32 m.len) ∧
      ∀ id, port (getT w t) id = port y id := by
  have hs : Settled (getT (setT u t y) t) := by rw [getT_setT_same, hy]; exact hk
  obtain ⟨w, h0, h1, h2, h3, h4, h5⟩ := finish_done P he rfl hs
  rw [getT_setT_same] at h1 h2
  have hq : ∀ id, port (getT w t) id = port y id := fun id => by unfold port; rw [h2]
  have hpc : y.pc = x.pc := by rw [hy]
  refine ⟨w, h0, ⟨?_, fun id hid => (hq id).trans (hp id hid), (othersSame_setT u t y).trans h3, ⟨h4.1, h4.2⟩, h5.of_setT⟩, hq⟩
  rw [hpc, hy] at h1
  exact h1.of_ports

/-- A command that performs a move whose unit writes ports of triad t alone. -/
theorem finish_ports {s u : State} {t : Nat} {m : Move} {v : Word} {c : Circ} (P : Performs s t m v u c) {eff : UnitEff}
    (y : Triad) (hy : y = { getT u t with ports := y.ports }) (he : eff u t v (segOf m.op) m none = .done (setT u t y))
    (ps : List Nat) (hp : ∀ id, id ∉ ps → port y id = port (getT u t) id) :
    ∃ w, finish (runMove s t (.ok m) m.len c eff) = .next w ∧ MoveFrame u w t (getT u t) ps (nextPc u t m) ∧
      ∀ id, port (getT w t) id = port y id :=
  finish_record P (getT u t) y hy he P.after ps hp

/-- A command that performs a move whose unit changes triad t's record to x and answers with a next PC. -/
theorem finish_recordJump {s u : State} {t : Nat} {m : Move} {v npc : Word} {c : Circ} {taken : Bool}
    (P : Performs s t m v u c) {eff : UnitEff} (x y : Triad) (hy : y = { x with ports := y.ports })
    (he : eff u t v (segOf m.op) m none = .jump (setT u t y) npc taken ∨ eff u t v (segOf m.op) m none = .moved (setT u t y) npc)
    (hk : Settled x) (ps : List Nat) (hp : ∀ id, id ∉ ps → port y id = port (getT u t) id) :
    ∃ w, finish (runMove s t (.ok m) m.len c eff) = .next w ∧ MoveFrame u w t x ps npc ∧
      ∀ id, port (getT w t) id = port y id := by
  have hs : Settled (getT (setT u t y) t) := by rw [getT_setT_same, hy]; exact hk
  obtain ⟨w, h0, h1, h2, h3, h4, h5⟩ := finish_jump P he rfl hs
  rw [getT_setT_same] at h1 h2
  have hq : ∀ id, port (getT w t) id = port y id := fun id => by unfold port; rw [h2]
  refine ⟨w, h0, ⟨?_, fun id hid => (hq id).trans (hp id hid), (othersSame_setT u t y).trans h3, ⟨h4.1, h4.2⟩, h5.of_setT⟩, hq⟩
  rw [hy] at h1
  exact h1.of_ports

/-- A move whose unit answers with a next PC and no other change. -/
theorem finish_onlyJump {s u : State} {t : Nat} {m : Move} {v npc : Word} {c : Circ} {taken : Bool} (P : Performs s t m v u c)
    {eff : UnitEff} (he : eff u t v (segOf m.op) m none = .jump u npc taken ∨ eff u t v (segOf m.op) m none = .moved u npc) :
    ∃ w, finish (runMove s t (.ok m) m.len c eff) = .next w ∧ MoveFrame u w t (getT u t) [] npc := by
  obtain ⟨w, h0, h1, h2, h3, h4, h5⟩ := finish_jump P he rfl P.after
  exact ⟨w, h0, h1, fun id _ => by unfold port; rw [h2], h3, h4, h5⟩

/-- The same for the two ways a command names its move. -/
theorem runForm_eq {dst : Nat} {f : MoveForm} {m : Move} (h : moveOf dst f = .ok m) (s : State) (t : Nat) (c : Circ)
    (eff : UnitEff) : runForm s t dst f c eff = runMove s t (.ok m) m.len c eff := by
  unfold runForm
  rw [h, moveOf_len h]

theorem runEnc_eq {e : Encoding} {m : Move} (h : decodeMove e = .ok m) (s : State) (t : Nat) (c : Circ) :
    runEnc s t e c = runMove s t (.ok m) m.len c (moveEff m.op c) := by
  unfold runEnc
  rw [h, decodeMove_len h]

end Sys2Proof.Machine
end

