-- ==== Sys2Proof/WellFormed.lean ====
section
/-!
DEFINITION. When a command's operands are ones that the card can meet: a move's encoding is one that R82 does not call
illegal, positions, ports, domains, links and groups exist, an engine-port burst has 1 to 120 words. A command that is
not well formed has no effect of its own, or takes the exception that R82 names.
-/

namespace Sys2Proof

open Sys2Proof.Machine

/-- A fabric master (R236). -/
def masterOk (m : BitVec 6) : Bool := m.toNat < 40

/-- A form of a move to port `dst` that R77, R78 and R82 allow. -/
def formOk (dst : Nat) : MoveForm → Bool
  | .short src last => (shortDstCode dst).isSome && !(last && 23 < src.toNat)
  | .port _ seg => seg == 0 || segAllowed dst
  | .imm _ => true

/-- Whether a decoding found a move. -/
def decodedOk : Except Exc Move → Bool
  | .ok _ => true
  | .error _ => false

/-- An encoding that R82 does not call illegal; a long one has bit 31 set (R78). -/
def encodingOk : Encoding → Bool
  | .short h => decodedOk (decodeShort h)
  | .long w => w.getLsbD 31 && decodedOk (decodeLong w)

/-- A core position of a triad, a copy of three. -/
def posOk (p : BitVec 2) : Bool := p.toNat < 3

/-- A timer group (R433): one per cluster, one of SYS. -/
def groupOk (g : BitVec 4) : Bool := g.toNat < 9

/-- A power domain (R475). -/
def domainOk (d : BitVec 5) : Bool := d.toNat < 18

/-- A word burst of the engine port (R277). -/
def portBurstOk (n : Nat) : Bool := 0 < n && n ≤ 120

/-- A recovery action that names an existing position. -/
def supActOk : SupAct → Bool
  | .resync _ p | .swap _ p | .duplex _ p => posOk p
  | .stop _ => true

/-- The position that trails in a move exists (R206). -/
def circOk (c : Circ) : Bool := c.late.all posOk

/-- What a scrub of a row finds names its eight words (R247). -/
def spotOk : ScrubSpot → Bool
  | .common _ found => found.length == 8
  | .local _ _ | .desc _ | .link _ | .mram _ => true

/-- Whether a command's operands are ones that the card can meet. -/
def WellFormed : Instr → Bool
  | .registerWrite m _ _ _ => masterOk m
  | .powerOnResetRelease _ _ _ => true
  | .bootCtlWrite m _ => masterOk m
  | .bootCtlDurable => true
  | .plainMove _ e c => encodingOk e && circOk c
  | .immediateMove _ dst hi imm => !hi || (dst.toNat ≤ 0x1F && imm.toNat < 0x10000)
  | .ctlModeWrite _ f => formOk 0xDA f
  | .segmentDescriptorWrite _ port f => 0xC0 ≤ port.toNat && port.toNat < 0xD8 && formOk port.toNat f
  | .conditionalBranch _ _ _ => true
  | .callWithMask _ _ tgtSrc off => !tgtSrc || off == 0
  | .aluAdd _ f => formOk 0x40 f
  | .aluAdc _ f => formOk 0x41 f
  | .aluSub _ f => formOk 0x42 f
  | .aluSbc _ f => formOk 0x43 f
  | .aluAnd _ f => formOk 0x44 f
  | .aluOr _ f => formOk 0x45 f
  | .aluXor _ f => formOk 0x46 f
  | .aluAndn _ f => formOk 0x47 f
  | .aluShl _ f => formOk 0x48 f
  | .aluShr _ f => formOk 0x49 f
  | .aluSar _ f => formOk 0x4A f
  | .aluRol _ f => formOk 0x4B f
  | .aluRor _ f => formOk 0x4C f
  | .aluCmp _ f => formOk 0x4D f
  | .aluTst _ f => formOk 0x4E f
  | .decAdd _ f => formOk 0x60 f
  | .decAdc _ f => formOk 0x61 f
  | .decSub _ f => formOk 0x62 f
  | .decSbc _ f => formOk 0x63 f
  | .decAdj _ f => formOk 0x64 f
  | .decCmp _ f => formOk 0x65 f
  | .decShl _ f => formOk 0x66 f
  | .decShr _ f => formOk 0x67 f
  | .decB2d _ f => formOk 0x68 f
  | .decD2b _ f => formOk 0x69 f
  | .decRound _ f => formOk 0x6C f
  | .decMulw _ f => formOk 0x6A f
  | .decDivw _ f => formOk 0x6B f
  | .longRoutineStep _ c => circOk c
  | .mulMulu _ f => formOk 0x74 f
  | .mulMuls _ f => formOk 0x75 f
  | .mulMac _ f => formOk 0x76 f
  | .lsuLdb _ f c => formOk 0x80 f && circOk c
  | .lsuLdbu _ f c => formOk 0x81 f && circOk c
  | .lsuLdh _ f c => formOk 0x82 f && circOk c
  | .lsuLdhu _ f c => formOk 0x83 f && circOk c
  | .lsuLdw _ f c => formOk 0x84 f && circOk c
  | .lsuStb _ f => formOk 0x85 f
  | .lsuSth _ f => formOk 0x86 f
  | .lsuStw _ f => formOk 0x87 f
  | .gthGo _ f => formOk 0x8C f
  | .gthResume _ f => formOk 0x8D f
  | .gatherElement _ c => circOk c
  | .brJmp _ f => formOk 0xA1 f
  | .brCall _ f => formOk 0xA2 f
  | .brRet _ f => formOk 0xA3 f
  | .brRti _ f => formOk 0xA4 f
  | .lpGo _ f => formOk 0xAC f
  | .lpExit _ f => formOk 0xAD f
  | .qpPush _ f _ => formOk 0xB8 f
  | .qpPop _ f _ => formOk 0xB9 f
  | .qpDrop _ f _ => formOk 0xBA f
  | .qpStat _ f _ => formOk 0xBB f
  | .ctlEoi _ f => formOk 0xE0 f
  | .ctlWait _ f => formOk 0xE1 f
  | .ctlFlush _ f => formOk 0xE2 f
  | .ctlFence _ f => formOk 0xE3 f
  | .ctlUsave _ f => formOk 0xE4 f
  | .ctlUrest _ f => formOk 0xE5 f
  | .ctlTrap _ f => formOk 0xE6 f
  | .ctlClaim _ _ => true
  | .voterEffect _ p _ => posOk p
  | .votedRead _ p _ => posOk p
  | .retirementCheck _ _ _ _ => true
  | .lagTimeout _ p => posOk p
  | .rebuild _ _ => true
  | .interruptEntry _ => true
  | .voterCopyMismatch _ v => posOk v
  | .engineCopyMismatch e _ => e.toNat < 4 || 8 ≤ e.toNat
  | .supervisorAction a0 a1 a2 => [a0, a1, a2].all (fun a => a.all supActOk)
  | .supervisorVoteTimeout late => late.all posOk
  | .supervisorRebuild i _ _ => posOk i
  | .scrubRow spot _ _ => spotOk spot
  | .commonStoreAccess m _ _ => masterOk m
  | .linkFlitError i _ _ => i.toNat < 24
  | .packetCrcFailure _ _ _ => true
  | .stopIntake who => who.toNat < 3
  | .resumeIntake who => who.toNat < 3
  | .throttleOn => true
  | .throttleOff => true
  | .fatal => true
  | .hostFence => true
  | .hostFenceDone => true
  | .enginePortPush m _ ws => masterOk m && 32 ≤ m.toNat && portBurstOk ws.length
  | .enginePortPop m _ n _ => masterOk m && 32 ≤ m.toNat && portBurstOk n.toNat
  | .enginePortStat m _ _ => masterOk m && 32 ≤ m.toNat
  | .staleTimerDue _ => true
  | .qcmdReset m _ => masterOk m
  | .qcmdInspect m _ _ => masterOk m
  | .qcmdInvalid m v => masterOk m && v.toNat / 2 ^ 28 != 1 && v.toNat / 2 ^ 28 != 2
  | .wsCtrlEnWrite m _ => masterOk m
  | .tokenCreate _ => true
  | .stageDispatch _ => true
  | .stageResult _ => true
  | .stageTimeout _ => true
  | .intakePacketDiscard _ _ => true
  | .readerReport => true
  | .tallyBegin => true
  | .tallyHead => true
  | .tallyCommit => true
  | .tallyAbort => true
  | .tallyRewind => true
  | .tallyEnd => true
  | .tallyAdd _ => true
  | .tallyReadspec _ => true
  | .tallyReadcomm _ => true
  | .tlyLdcmdGo m _ => masterOk m
  | .tlyCtrlOpen m _ => masterOk m
  | .tlySelWrite m _ => masterOk m
  | .ledgerCommit _ _ => true
  | .ledgerHead _ => true
  | .recordDurable => true
  | .cairnSigned _ => true
  | .ledAckhiWrite m _ => masterOk m
  | .anchorDurable => true
  | .drainDmaGo m _ => masterOk m
  | .drainDmaDone => true
  | .ledDurseqloRead m => masterOk m
  | .powerFail => true
  | .cryptoVerify _ _ _ _ _ => true
  | .cryptoSeal _ _ _ _ _ => true
  | .cryptoHash _ _ _ _ _ => true
  | .drawRange _ _ _ _ => true
  | .drawKofn _ _ _ _ => true
  | .drawHealth _ => true
  | .picSsetWrite m _ => masterOk m
  | .picPsetWrite m _ _ => masterOk m
  | .moderationTimer _ => true
  | .picModWrite m _ _ => masterOk m
  | .tgStart m g _ => masterOk m && groupOk g
  | .tgStop m g _ => masterOk m && groupOk g
  | .timerMatch g _ => groupOk g
  | .timerOverflow g _ => groupOk g
  | .timerCapture g _ => groupOk g
  | .linkRestart g _ _ => groupOk g
  | .linkOpen g _ _ => groupOk g
  | .linkShut g _ _ => groupOk g
  | .linkArm g _ _ => groupOk g
  | .linkFollow g _ _ => groupOk g
  | .tmrKickZero m g _ => masterOk m && groupOk g
  | .tmrKickSnap m g _ => masterOk m && groupOk g
  | .tmrCnthiWrite m g _ _ => masterOk m && groupOk g
  | .tmrCntloRead m g _ => masterOk m && groupOk g
  | .tmrCaploRead m g _ => masterOk m && groupOk g
  | .tmrCmphiWrite m g _ _ => masterOk m && groupOk g
  | .tmrTophiWrite m g _ _ => masterOk m && groupOk g
  | .tmrPscWrite m g _ _ => masterOk m && groupOk g
  | .tmrLinkWrite m g _ _ => masterOk m && groupOk g
  | .evfSwtrigWrite m _ => masterOk m
  | .evfSelWrite m i _ => masterOk m && i.toNat < 96
  | .rtcSecond => true
  | .rtcTrimCorrection => true
  | .rtcLoad m _ => masterOk m
  | .rtcLoadApply => true
  | .rtcSubRead m => masterOk m
  | .monStart => true
  | .monInterval => true
  | .monConversion _ => true
  | .pdVoteaWrite m d _ => masterOk m && domainOk d
  | .pdVotebWrite m d _ => masterOk m && domainOk d
  | .domainEntry d _ => domainOk d
  | .domainExit d _ => domainOk d
  | .railFault _ => true
  | .clkSrcWrite m d _ => masterOk m && (d.toNat == 1 || (4 ≤ d.toNat && domainOk d))
  | .pllLock => true
  | .clockFailure _ => true
  | .clkstopTimeout m _ _ _ _ => masterOk m
  | .perstAssert _ => true
  | .perstDeassert _ _ => true
  | .flr _ => true
  | .hbMsigenWrite m _ => masterOk m
  | .ptmDialogue _ => true
  | .hbPtmloRead m => masterOk m
  | .mbxCmdWord _ _ => true
  | .serviceUartWord bytes => bytes.length == 4
  | .frameAbandon => true
  | .mbxRspRead => true
  | .nop => true
  | .status => true
  | .switchProfile _ _ => true
  | .keyLoad => true
  | .keyZero => true
  | .keyInfo => true
  | .updBegin => true
  | .updData => true
  | .updVerify => true
  | .updActivate _ _ _ => true
  | .updConfirm => true
  | .updAbort => true
  | .doorbellStopIntake => true
  | .doorbellResumeIntake => true
  | .ethFrameReceive _ _ _ _ => true
  | .ethLinkChange _ _ _ _ _ => true
  | .txFault _ _ => true
  | .modAbsChange _ _ => true
  | .sfpRead m _ _ => masterOk m
  | .sfpReadDone _ _ => true
  | .egressDispatch port _ _ => port.toNat < 3
  | .egressRawFrame port _ => port.toNat < 3
  | .serFrameReceive _ _ => true
  | .coverLoop _ => true
  | .temperature _ => true
  | .vaonGlitch _ _ => true
  | .aonfault => true
  | .supplySwitchover _ => true
  | .batgone => true
  | .batgoneClear m _ => masterOk m
  | .loopen m => masterOk m
  | .islandPowerLoss => true
  | .tmpLogd0Read m => masterOk m
  | .supFlogd0Read m => masterOk m
  | .clvRcntloRead m _ => masterOk m
  | .wsSeqloRead m => masterOk m
  | .wsSlotstRead m => masterOk m
  | .ethPeerstRead m _ => masterOk m
  | .auditOpen _ => true
  | .auditClose _ => true
  | .auditRead _ _ => true
  | .auditTrace _ => true
  | .auditSessionTimeout => true
  | .audTrcselWrite m _ => masterOk m
  | .halt m _ => masterOk m
  | .step m _ => masterOk m
  | .resume m _ => masterOk m
  | .dbgAccGo m _ => masterOk m
  | .tapReset => true
  | .samplePreload _ _ => true
  | .idcode => true
  | .extest _ => true
  | .clamp => true
  | .highz => true
  | .dbgacc _ => true
  | .keytab _ => true
  | .seal _ => true
  | .bypass => true
  | .registerRead m _ => masterOk m
  | .kernelEdge g _ => groupOk g
  | .evPinEdge _ _ _ _ => true
  | .slckEdge => true
  | .tmrCtrlWrite m g _ _ => masterOk m && groupOk g
  | .tmrIenWrite m g _ _ => masterOk m && groupOk g
  | .tmrCapctlWrite m g _ _ => masterOk m && groupOk g
  | .drwEntinWrite m _ => masterOk m
  | .drainWindowWrite => true
  | .configurationRequest _ => true
  | .msixVectorUnmask _ => true
  | .pcieLinkStateChange _ => true
  | .routerFailure _ => true
  | .duplicatedLogicMismatch => true
  | .ingressComparatorDisagreement _ => true
  | .islandPowerUp _ => true
  | .coverLoopClosed _ => true
  | .tamperTemperatureNormal _ => true

/-- The fabric master that a command names, if it names one. -/
def masterOf : Instr → Option (BitVec 6)
  | .registerWrite m _ _ _ => some m
  | .powerOnResetRelease _ _ _ => none
  | .bootCtlWrite m _ => some m
  | .bootCtlDurable => none
  | .plainMove _ _ _ => none
  | .immediateMove _ _ _ _ => none
  | .ctlModeWrite _ _ => none
  | .segmentDescriptorWrite _ _ _ => none
  | .conditionalBranch _ _ _ => none
  | .callWithMask _ _ _ _ => none
  | .aluAdd _ _ => none
  | .aluAdc _ _ => none
  | .aluSub _ _ => none
  | .aluSbc _ _ => none
  | .aluAnd _ _ => none
  | .aluOr _ _ => none
  | .aluXor _ _ => none
  | .aluAndn _ _ => none
  | .aluShl _ _ => none
  | .aluShr _ _ => none
  | .aluSar _ _ => none
  | .aluRol _ _ => none
  | .aluRor _ _ => none
  | .aluCmp _ _ => none
  | .aluTst _ _ => none
  | .decAdd _ _ => none
  | .decAdc _ _ => none
  | .decSub _ _ => none
  | .decSbc _ _ => none
  | .decAdj _ _ => none
  | .decCmp _ _ => none
  | .decShl _ _ => none
  | .decShr _ _ => none
  | .decB2d _ _ => none
  | .decD2b _ _ => none
  | .decRound _ _ => none
  | .decMulw _ _ => none
  | .decDivw _ _ => none
  | .longRoutineStep _ _ => none
  | .mulMulu _ _ => none
  | .mulMuls _ _ => none
  | .mulMac _ _ => none
  | .lsuLdb _ _ _ => none
  | .lsuLdbu _ _ _ => none
  | .lsuLdh _ _ _ => none
  | .lsuLdhu _ _ _ => none
  | .lsuLdw _ _ _ => none
  | .lsuStb _ _ => none
  | .lsuSth _ _ => none
  | .lsuStw _ _ => none
  | .gthGo _ _ => none
  | .gthResume _ _ => none
  | .gatherElement _ _ => none
  | .brJmp _ _ => none
  | .brCall _ _ => none
  | .brRet _ _ => none
  | .brRti _ _ => none
  | .lpGo _ _ => none
  | .lpExit _ _ => none
  | .qpPush _ _ _ => none
  | .qpPop _ _ _ => none
  | .qpDrop _ _ _ => none
  | .qpStat _ _ _ => none
  | .ctlEoi _ _ => none
  | .ctlWait _ _ => none
  | .ctlFlush _ _ => none
  | .ctlFence _ _ => none
  | .ctlUsave _ _ => none
  | .ctlUrest _ _ => none
  | .ctlTrap _ _ => none
  | .ctlClaim _ _ => none
  | .voterEffect _ _ _ => none
  | .votedRead _ _ _ => none
  | .retirementCheck _ _ _ _ => none
  | .lagTimeout _ _ => none
  | .rebuild _ _ => none
  | .interruptEntry _ => none
  | .voterCopyMismatch _ _ => none
  | .engineCopyMismatch _ _ => none
  | .supervisorAction _ _ _ => none
  | .supervisorVoteTimeout _ => none
  | .supervisorRebuild _ _ _ => none
  | .scrubRow _ _ _ => none
  | .commonStoreAccess m _ _ => some m
  | .linkFlitError _ _ _ => none
  | .packetCrcFailure _ _ _ => none
  | .stopIntake _ => none
  | .resumeIntake _ => none
  | .throttleOn => none
  | .throttleOff => none
  | .fatal => none
  | .hostFence => none
  | .hostFenceDone => none
  | .enginePortPush m _ _ => some m
  | .enginePortPop m _ _ _ => some m
  | .enginePortStat m _ _ => some m
  | .staleTimerDue _ => none
  | .qcmdReset m _ => some m
  | .qcmdInspect m _ _ => some m
  | .qcmdInvalid m _ => some m
  | .wsCtrlEnWrite m _ => some m
  | .tokenCreate _ => none
  | .stageDispatch _ => none
  | .stageResult _ => none
  | .stageTimeout _ => none
  | .intakePacketDiscard _ _ => none
  | .readerReport => none
  | .tallyBegin => none
  | .tallyHead => none
  | .tallyCommit => none
  | .tallyAbort => none
  | .tallyRewind => none
  | .tallyEnd => none
  | .tallyAdd _ => none
  | .tallyReadspec _ => none
  | .tallyReadcomm _ => none
  | .tlyLdcmdGo m _ => some m
  | .tlyCtrlOpen m _ => some m
  | .tlySelWrite m _ => some m
  | .ledgerCommit _ _ => none
  | .ledgerHead _ => none
  | .recordDurable => none
  | .cairnSigned _ => none
  | .ledAckhiWrite m _ => some m
  | .anchorDurable => none
  | .drainDmaGo m _ => some m
  | .drainDmaDone => none
  | .ledDurseqloRead m => some m
  | .powerFail => none
  | .cryptoVerify _ _ _ _ _ => none
  | .cryptoSeal _ _ _ _ _ => none
  | .cryptoHash _ _ _ _ _ => none
  | .drawRange _ _ _ _ => none
  | .drawKofn _ _ _ _ => none
  | .drawHealth _ => none
  | .picSsetWrite m _ => some m
  | .picPsetWrite m _ _ => some m
  | .moderationTimer _ => none
  | .picModWrite m _ _ => some m
  | .tgStart m _ _ => some m
  | .tgStop m _ _ => some m
  | .timerMatch _ _ => none
  | .timerOverflow _ _ => none
  | .timerCapture _ _ => none
  | .linkRestart _ _ _ => none
  | .linkOpen _ _ _ => none
  | .linkShut _ _ _ => none
  | .linkArm _ _ _ => none
  | .linkFollow _ _ _ => none
  | .tmrKickZero m _ _ => some m
  | .tmrKickSnap m _ _ => some m
  | .tmrCnthiWrite m _ _ _ => some m
  | .tmrCntloRead m _ _ => some m
  | .tmrCaploRead m _ _ => some m
  | .tmrCmphiWrite m _ _ _ => some m
  | .tmrTophiWrite m _ _ _ => some m
  | .tmrPscWrite m _ _ _ => some m
  | .tmrLinkWrite m _ _ _ => some m
  | .evfSwtrigWrite m _ => some m
  | .evfSelWrite m _ _ => some m
  | .rtcSecond => none
  | .rtcTrimCorrection => none
  | .rtcLoad m _ => some m
  | .rtcLoadApply => none
  | .rtcSubRead m => some m
  | .monStart => none
  | .monInterval => none
  | .monConversion _ => none
  | .pdVoteaWrite m _ _ => some m
  | .pdVotebWrite m _ _ => some m
  | .domainEntry _ _ => none
  | .domainExit _ _ => none
  | .railFault _ => none
  | .clkSrcWrite m _ _ => some m
  | .pllLock => none
  | .clockFailure _ => none
  | .clkstopTimeout m _ _ _ _ => some m
  | .perstAssert _ => none
  | .perstDeassert _ _ => none
  | .flr _ => none
  | .hbMsigenWrite m _ => some m
  | .ptmDialogue _ => none
  | .hbPtmloRead m => some m
  | .mbxCmdWord _ _ => none
  | .serviceUartWord _ => none
  | .frameAbandon => none
  | .mbxRspRead => none
  | .nop => none
  | .status => none
  | .switchProfile _ _ => none
  | .keyLoad => none
  | .keyZero => none
  | .keyInfo => none
  | .updBegin => none
  | .updData => none
  | .updVerify => none
  | .updActivate _ _ _ => none
  | .updConfirm => none
  | .updAbort => none
  | .doorbellStopIntake => none
  | .doorbellResumeIntake => none
  | .ethFrameReceive _ _ _ _ => none
  | .ethLinkChange _ _ _ _ _ => none
  | .txFault _ _ => none
  | .modAbsChange _ _ => none
  | .sfpRead m _ _ => some m
  | .sfpReadDone _ _ => none
  | .egressDispatch _ _ _ => none
  | .egressRawFrame _ _ => none
  | .serFrameReceive _ _ => none
  | .coverLoop _ => none
  | .temperature _ => none
  | .vaonGlitch _ _ => none
  | .aonfault => none
  | .supplySwitchover _ => none
  | .batgone => none
  | .batgoneClear m _ => some m
  | .loopen m => some m
  | .islandPowerLoss => none
  | .tmpLogd0Read m => some m
  | .supFlogd0Read m => some m
  | .clvRcntloRead m _ => some m
  | .wsSeqloRead m => some m
  | .wsSlotstRead m => some m
  | .ethPeerstRead m _ => some m
  | .auditOpen _ => none
  | .auditClose _ => none
  | .auditRead _ _ => none
  | .auditTrace _ => none
  | .auditSessionTimeout => none
  | .audTrcselWrite m _ => some m
  | .halt m _ => some m
  | .step m _ => some m
  | .resume m _ => some m
  | .dbgAccGo m _ => some m
  | .tapReset => none
  | .samplePreload _ _ => none
  | .idcode => none
  | .extest _ => none
  | .clamp => none
  | .highz => none
  | .dbgacc _ => none
  | .keytab _ => none
  | .seal _ => none
  | .bypass => none
  | .registerRead m _ => some m
  | .kernelEdge _ _ => none
  | .evPinEdge _ _ _ _ => none
  | .slckEdge => none
  | .tmrCtrlWrite m _ _ _ => some m
  | .tmrIenWrite m _ _ _ => some m
  | .tmrCapctlWrite m _ _ _ => some m
  | .drwEntinWrite m _ => some m
  | .drainWindowWrite => none
  | .configurationRequest _ => none
  | .msixVectorUnmask _ => none
  | .pcieLinkStateChange _ => none
  | .routerFailure _ => none
  | .duplicatedLogicMismatch => none
  | .ingressComparatorDisagreement _ => none
  | .islandPowerUp _ => none
  | .coverLoopClosed _ => none
  | .tamperTemperatureNormal _ => none

end Sys2Proof
end

