-- ==== Sys2Proof/Laws/PerInstr.lean ====
section
/-!
SUPPORT. Statements about every command as syntax, one lemma per constructor: a well-formed command that names a fabric
master names one of the forty that R236 lists.
-/

namespace Sys2Proof.Laws

/-- A well-formed command's master is one of the forty. -/
def MasterExists.Statement (i : Instr) : Prop := WellFormed i = true → ∀ m, masterOf i = some m → m.toNat < 40

theorem MasterExists.of_and0 {m x : BitVec 6} (w : masterOk m = true) (h : some m = some x) : x.toNat < 40 := by
  cases h
  exact of_decide_eq_true w

theorem MasterExists.of_and1 {m x : BitVec 6} {a : Bool} (w : (masterOk m && a) = true) (h : some m = some x) :
    x.toNat < 40 :=
  MasterExists.of_and0 (Bool.and_eq_true_iff.mp w).1 h

theorem MasterExists.of_and2 {m x : BitVec 6} {a b : Bool} (w : (masterOk m && a && b) = true) (h : some m = some x) :
    x.toNat < 40 :=
  MasterExists.of_and1 (Bool.and_eq_true_iff.mp w).1 h

theorem MasterExists.registerWrite (m : BitVec 6) (p : Place) (v : Word) (be : BitVec 4) : MasterExists.Statement (.registerWrite m p v be) :=
  fun w _ h => MasterExists.of_and0 w h

theorem MasterExists.powerOnResetRelease (psel : BitVec 2) (st : SelfTest) (noise : List Byte) : MasterExists.Statement (.powerOnResetRelease psel st noise) :=
  fun _ _ h => nomatch h

theorem MasterExists.bootCtlWrite (m : BitVec 6) (v : Word) : MasterExists.Statement (.bootCtlWrite m v) :=
  fun w _ h => MasterExists.of_and0 w h

theorem MasterExists.bootCtlDurable : MasterExists.Statement (.bootCtlDurable) :=
  fun _ _ h => nomatch h

theorem MasterExists.plainMove (t : BitVec 5) (e : Encoding) (c : Circ) : MasterExists.Statement (.plainMove t e c) :=
  fun _ _ h => nomatch h

theorem MasterExists.immediateMove (t : BitVec 5) (dst : BitVec 8) (hi : Bool) (imm : BitVec 20) : MasterExists.Statement (.immediateMove t dst hi imm) :=
  fun _ _ h => nomatch h

theorem MasterExists.ctlModeWrite (t : BitVec 5) (f : MoveForm) : MasterExists.Statement (.ctlModeWrite t f) :=
  fun _ _ h => nomatch h

theorem MasterExists.segmentDescriptorWrite (t : BitVec 5) (port : BitVec 8) (f : MoveForm) : MasterExists.Statement (.segmentDescriptorWrite t port f) :=
  fun _ _ h => nomatch h

theorem MasterExists.conditionalBranch (t : BitVec 5) (cond : BitVec 4) (off : BitVec 24) : MasterExists.Statement (.conditionalBranch t cond off) :=
  fun _ _ h => nomatch h

theorem MasterExists.callWithMask (t : BitVec 5) (mask : BitVec 16) (tgtSrc : Bool) (off : BitVec 12) : MasterExists.Statement (.callWithMask t mask tgtSrc off) :=
  fun _ _ h => nomatch h

theorem MasterExists.aluAdd (t : BitVec 5) (f : MoveForm) : MasterExists.Statement (.aluAdd t f) :=
  fun _ _ h => nomatch h

theorem MasterExists.aluAdc (t : BitVec 5) (f : MoveForm) : MasterExists.Statement (.aluAdc t f) :=
  fun _ _ h => nomatch h

theorem MasterExists.aluSub (t : BitVec 5) (f : MoveForm) : MasterExists.Statement (.aluSub t f) :=
  fun _ _ h => nomatch h

theorem MasterExists.aluSbc (t : BitVec 5) (f : MoveForm) : MasterExists.Statement (.aluSbc t f) :=
  fun _ _ h => nomatch h

theorem MasterExists.aluAnd (t : BitVec 5) (f : MoveForm) : MasterExists.Statement (.aluAnd t f) :=
  fun _ _ h => nomatch h

theorem MasterExists.aluOr (t : BitVec 5) (f : MoveForm) : MasterExists.Statement (.aluOr t f) :=
  fun _ _ h => nomatch h

theorem MasterExists.aluXor (t : BitVec 5) (f : MoveForm) : MasterExists.Statement (.aluXor t f) :=
  fun _ _ h => nomatch h

theorem MasterExists.aluAndn (t : BitVec 5) (f : MoveForm) : MasterExists.Statement (.aluAndn t f) :=
  fun _ _ h => nomatch h

theorem MasterExists.aluShl (t : BitVec 5) (f : MoveForm) : MasterExists.Statement (.aluShl t f) :=
  fun _ _ h => nomatch h

theorem MasterExists.aluShr (t : BitVec 5) (f : MoveForm) : MasterExists.Statement (.aluShr t f) :=
  fun _ _ h => nomatch h

theorem MasterExists.aluSar (t : BitVec 5) (f : MoveForm) : MasterExists.Statement (.aluSar t f) :=
  fun _ _ h => nomatch h

theorem MasterExists.aluRol (t : BitVec 5) (f : MoveForm) : MasterExists.Statement (.aluRol t f) :=
  fun _ _ h => nomatch h

theorem MasterExists.aluRor (t : BitVec 5) (f : MoveForm) : MasterExists.Statement (.aluRor t f) :=
  fun _ _ h => nomatch h

theorem MasterExists.aluCmp (t : BitVec 5) (f : MoveForm) : MasterExists.Statement (.aluCmp t f) :=
  fun _ _ h => nomatch h

theorem MasterExists.aluTst (t : BitVec 5) (f : MoveForm) : MasterExists.Statement (.aluTst t f) :=
  fun _ _ h => nomatch h

theorem MasterExists.decAdd (t : BitVec 5) (f : MoveForm) : MasterExists.Statement (.decAdd t f) :=
  fun _ _ h => nomatch h

theorem MasterExists.decAdc (t : BitVec 5) (f : MoveForm) : MasterExists.Statement (.decAdc t f) :=
  fun _ _ h => nomatch h

theorem MasterExists.decSub (t : BitVec 5) (f : MoveForm) : MasterExists.Statement (.decSub t f) :=
  fun _ _ h => nomatch h

theorem MasterExists.decSbc (t : BitVec 5) (f : MoveForm) : MasterExists.Statement (.decSbc t f) :=
  fun _ _ h => nomatch h

theorem MasterExists.decAdj (t : BitVec 5) (f : MoveForm) : MasterExists.Statement (.decAdj t f) :=
  fun _ _ h => nomatch h

theorem MasterExists.decCmp (t : BitVec 5) (f : MoveForm) : MasterExists.Statement (.decCmp t f) :=
  fun _ _ h => nomatch h

theorem MasterExists.decShl (t : BitVec 5) (f : MoveForm) : MasterExists.Statement (.decShl t f) :=
  fun _ _ h => nomatch h

theorem MasterExists.decShr (t : BitVec 5) (f : MoveForm) : MasterExists.Statement (.decShr t f) :=
  fun _ _ h => nomatch h

theorem MasterExists.decB2d (t : BitVec 5) (f : MoveForm) : MasterExists.Statement (.decB2d t f) :=
  fun _ _ h => nomatch h

theorem MasterExists.decD2b (t : BitVec 5) (f : MoveForm) : MasterExists.Statement (.decD2b t f) :=
  fun _ _ h => nomatch h

theorem MasterExists.decRound (t : BitVec 5) (f : MoveForm) : MasterExists.Statement (.decRound t f) :=
  fun _ _ h => nomatch h

theorem MasterExists.decMulw (t : BitVec 5) (f : MoveForm) : MasterExists.Statement (.decMulw t f) :=
  fun _ _ h => nomatch h

theorem MasterExists.decDivw (t : BitVec 5) (f : MoveForm) : MasterExists.Statement (.decDivw t f) :=
  fun _ _ h => nomatch h

theorem MasterExists.longRoutineStep (t : BitVec 5) (c : Circ) : MasterExists.Statement (.longRoutineStep t c) :=
  fun _ _ h => nomatch h

theorem MasterExists.mulMulu (t : BitVec 5) (f : MoveForm) : MasterExists.Statement (.mulMulu t f) :=
  fun _ _ h => nomatch h

theorem MasterExists.mulMuls (t : BitVec 5) (f : MoveForm) : MasterExists.Statement (.mulMuls t f) :=
  fun _ _ h => nomatch h

theorem MasterExists.mulMac (t : BitVec 5) (f : MoveForm) : MasterExists.Statement (.mulMac t f) :=
  fun _ _ h => nomatch h

theorem MasterExists.lsuLdb (t : BitVec 5) (f : MoveForm) (c : Circ) : MasterExists.Statement (.lsuLdb t f c) :=
  fun _ _ h => nomatch h

theorem MasterExists.lsuLdbu (t : BitVec 5) (f : MoveForm) (c : Circ) : MasterExists.Statement (.lsuLdbu t f c) :=
  fun _ _ h => nomatch h

theorem MasterExists.lsuLdh (t : BitVec 5) (f : MoveForm) (c : Circ) : MasterExists.Statement (.lsuLdh t f c) :=
  fun _ _ h => nomatch h

theorem MasterExists.lsuLdhu (t : BitVec 5) (f : MoveForm) (c : Circ) : MasterExists.Statement (.lsuLdhu t f c) :=
  fun _ _ h => nomatch h

theorem MasterExists.lsuLdw (t : BitVec 5) (f : MoveForm) (c : Circ) : MasterExists.Statement (.lsuLdw t f c) :=
  fun _ _ h => nomatch h

theorem MasterExists.lsuStb (t : BitVec 5) (f : MoveForm) : MasterExists.Statement (.lsuStb t f) :=
  fun _ _ h => nomatch h

theorem MasterExists.lsuSth (t : BitVec 5) (f : MoveForm) : MasterExists.Statement (.lsuSth t f) :=
  fun _ _ h => nomatch h

theorem MasterExists.lsuStw (t : BitVec 5) (f : MoveForm) : MasterExists.Statement (.lsuStw t f) :=
  fun _ _ h => nomatch h

theorem MasterExists.gthGo (t : BitVec 5) (f : MoveForm) : MasterExists.Statement (.gthGo t f) :=
  fun _ _ h => nomatch h

theorem MasterExists.gthResume (t : BitVec 5) (f : MoveForm) : MasterExists.Statement (.gthResume t f) :=
  fun _ _ h => nomatch h

theorem MasterExists.gatherElement (t : BitVec 5) (c : Circ) : MasterExists.Statement (.gatherElement t c) :=
  fun _ _ h => nomatch h

theorem MasterExists.brJmp (t : BitVec 5) (f : MoveForm) : MasterExists.Statement (.brJmp t f) :=
  fun _ _ h => nomatch h

theorem MasterExists.brCall (t : BitVec 5) (f : MoveForm) : MasterExists.Statement (.brCall t f) :=
  fun _ _ h => nomatch h

theorem MasterExists.brRet (t : BitVec 5) (f : MoveForm) : MasterExists.Statement (.brRet t f) :=
  fun _ _ h => nomatch h

theorem MasterExists.brRti (t : BitVec 5) (f : MoveForm) : MasterExists.Statement (.brRti t f) :=
  fun _ _ h => nomatch h

theorem MasterExists.lpGo (t : BitVec 5) (f : MoveForm) : MasterExists.Statement (.lpGo t f) :=
  fun _ _ h => nomatch h

theorem MasterExists.lpExit (t : BitVec 5) (f : MoveForm) : MasterExists.Statement (.lpExit t f) :=
  fun _ _ h => nomatch h

theorem MasterExists.qpPush (t : BitVec 5) (f : MoveForm) (u : QueueUpset) : MasterExists.Statement (.qpPush t f u) :=
  fun _ _ h => nomatch h

theorem MasterExists.qpPop (t : BitVec 5) (f : MoveForm) (u : QueueUpset) : MasterExists.Statement (.qpPop t f u) :=
  fun _ _ h => nomatch h

theorem MasterExists.qpDrop (t : BitVec 5) (f : MoveForm) (u : QueueUpset) : MasterExists.Statement (.qpDrop t f u) :=
  fun _ _ h => nomatch h

theorem MasterExists.qpStat (t : BitVec 5) (f : MoveForm) (u : QueueUpset) : MasterExists.Statement (.qpStat t f u) :=
  fun _ _ h => nomatch h

theorem MasterExists.ctlEoi (t : BitVec 5) (f : MoveForm) : MasterExists.Statement (.ctlEoi t f) :=
  fun _ _ h => nomatch h

theorem MasterExists.ctlWait (t : BitVec 5) (f : MoveForm) : MasterExists.Statement (.ctlWait t f) :=
  fun _ _ h => nomatch h

theorem MasterExists.ctlFlush (t : BitVec 5) (f : MoveForm) : MasterExists.Statement (.ctlFlush t f) :=
  fun _ _ h => nomatch h

theorem MasterExists.ctlFence (t : BitVec 5) (f : MoveForm) : MasterExists.Statement (.ctlFence t f) :=
  fun _ _ h => nomatch h

theorem MasterExists.ctlUsave (t : BitVec 5) (f : MoveForm) : MasterExists.Statement (.ctlUsave t f) :=
  fun _ _ h => nomatch h

theorem MasterExists.ctlUrest (t : BitVec 5) (f : MoveForm) : MasterExists.Statement (.ctlUrest t f) :=
  fun _ _ h => nomatch h

theorem MasterExists.ctlTrap (t : BitVec 5) (f : MoveForm) : MasterExists.Statement (.ctlTrap t f) :=
  fun _ _ h => nomatch h

theorem MasterExists.ctlClaim (t : BitVec 5) (dst : BitVec 8) : MasterExists.Statement (.ctlClaim t dst) :=
  fun _ _ h => nomatch h

theorem MasterExists.voterEffect (t : BitVec 5) (p : BitVec 2) (e : EffCopy) : MasterExists.Statement (.voterEffect t p e) :=
  fun _ _ h => nomatch h

theorem MasterExists.votedRead (t : BitVec 5) (p : BitVec 2) (r : ReadCopy) : MasterExists.Statement (.votedRead t p r) :=
  fun _ _ h => nomatch h

theorem MasterExists.retirementCheck (t : BitVec 5) (d0 d1 d2 : BitVec 64) : MasterExists.Statement (.retirementCheck t d0 d1 d2) :=
  fun _ _ h => nomatch h

theorem MasterExists.lagTimeout (t : BitVec 5) (p : BitVec 2) : MasterExists.Statement (.lagTimeout t p) :=
  fun _ _ h => nomatch h

theorem MasterExists.rebuild (t : BitVec 5) (e : RebuildEnd) : MasterExists.Statement (.rebuild t e) :=
  fun _ _ h => nomatch h

theorem MasterExists.interruptEntry (t : BitVec 5) : MasterExists.Statement (.interruptEntry t) :=
  fun _ _ h => nomatch h

theorem MasterExists.voterCopyMismatch (n : BitVec 3) (v : BitVec 2) : MasterExists.Statement (.voterCopyMismatch n v) :=
  fun _ _ h => nomatch h

theorem MasterExists.engineCopyMismatch (e : BitVec 4) (torn : Torn) : MasterExists.Statement (.engineCopyMismatch e torn) :=
  fun _ _ h => nomatch h

theorem MasterExists.supervisorAction (a0 a1 a2 : Option SupAct) : MasterExists.Statement (.supervisorAction a0 a1 a2) :=
  fun _ _ h => nomatch h

theorem MasterExists.supervisorVoteTimeout (late : Option (BitVec 2)) : MasterExists.Statement (.supervisorVoteTimeout late) :=
  fun _ _ h => nomatch h

theorem MasterExists.supervisorRebuild (i : BitVec 2) (ok : Bool) (torn : Torn) : MasterExists.Statement (.supervisorRebuild i ok torn) :=
  fun _ _ h => nomatch h

theorem MasterExists.scrubRow (spot : ScrubSpot) (u : Upset) (last : Bool) : MasterExists.Statement (.scrubRow spot u last) :=
  fun _ _ h => nomatch h

theorem MasterExists.commonStoreAccess (m : BitVec 6) (a : Word) (op : BankOp) : MasterExists.Statement (.commonStoreAccess m a op) :=
  fun w _ h => MasterExists.of_and0 w h

theorem MasterExists.linkFlitError (i : BitVec 5) (back again : Bool) : MasterExists.Statement (.linkFlitError i back again) :=
  fun _ _ h => nomatch h

theorem MasterExists.packetCrcFailure (src dst : BitVec 4) (second : Bool) : MasterExists.Statement (.packetCrcFailure src dst second) :=
  fun _ _ h => nomatch h

theorem MasterExists.stopIntake (who : BitVec 2) : MasterExists.Statement (.stopIntake who) :=
  fun _ _ h => nomatch h

theorem MasterExists.resumeIntake (who : BitVec 2) : MasterExists.Statement (.resumeIntake who) :=
  fun _ _ h => nomatch h

theorem MasterExists.throttleOn : MasterExists.Statement (.throttleOn) :=
  fun _ _ h => nomatch h

theorem MasterExists.throttleOff : MasterExists.Statement (.throttleOff) :=
  fun _ _ h => nomatch h

theorem MasterExists.fatal : MasterExists.Statement (.fatal) :=
  fun _ _ h => nomatch h

theorem MasterExists.hostFence : MasterExists.Statement (.hostFence) :=
  fun _ _ h => nomatch h

theorem MasterExists.hostFenceDone : MasterExists.Statement (.hostFenceDone) :=
  fun _ _ h => nomatch h

theorem MasterExists.enginePortPush (m : BitVec 6) (q : BitVec 20) (ws : List (Word × Bool)) : MasterExists.Statement (.enginePortPush m q ws) :=
  fun w _ h => MasterExists.of_and2 w h

theorem MasterExists.enginePortPop (m : BitVec 6) (q : BitVec 20) (n : BitVec 7) (u : QueueUpset) : MasterExists.Statement (.enginePortPop m q n u) :=
  fun w _ h => MasterExists.of_and2 w h

theorem MasterExists.enginePortStat (m : BitVec 6) (q : BitVec 20) (u : QueueUpset) : MasterExists.Statement (.enginePortStat m q u) :=
  fun w _ h => MasterExists.of_and1 w h

theorem MasterExists.staleTimerDue (q : BitVec 20) : MasterExists.Statement (.staleTimerDue q) :=
  fun _ _ h => nomatch h

theorem MasterExists.qcmdReset (m : BitVec 6) (q : BitVec 20) : MasterExists.Statement (.qcmdReset m q) :=
  fun w _ h => MasterExists.of_and0 w h

theorem MasterExists.qcmdInspect (m : BitVec 6) (q : BitVec 20) (u : QueueUpset) : MasterExists.Statement (.qcmdInspect m q u) :=
  fun w _ h => MasterExists.of_and0 w h

theorem MasterExists.qcmdInvalid (m : BitVec 6) (v : Word) : MasterExists.Statement (.qcmdInvalid m v) :=
  fun w _ h => MasterExists.of_and2 w h

theorem MasterExists.wsCtrlEnWrite (m : BitVec 6) (v : Word) : MasterExists.Statement (.wsCtrlEnWrite m v) :=
  fun w _ h => MasterExists.of_and0 w h

theorem MasterExists.tokenCreate (u : QueueUpset) : MasterExists.Statement (.tokenCreate u) :=
  fun _ _ h => nomatch h

theorem MasterExists.stageDispatch (slot : BitVec 16) : MasterExists.Statement (.stageDispatch slot) :=
  fun _ _ h => nomatch h

theorem MasterExists.stageResult (u : QueueUpset) : MasterExists.Statement (.stageResult u) :=
  fun _ _ h => nomatch h

theorem MasterExists.stageTimeout (slot : BitVec 16) : MasterExists.Statement (.stageTimeout slot) :=
  fun _ _ h => nomatch h

theorem MasterExists.intakePacketDiscard (slot : BitVec 16) (u : QueueUpset) : MasterExists.Statement (.intakePacketDiscard slot u) :=
  fun _ _ h => nomatch h

theorem MasterExists.readerReport : MasterExists.Statement (.readerReport) :=
  fun _ _ h => nomatch h

theorem MasterExists.tallyBegin : MasterExists.Statement (.tallyBegin) :=
  fun _ _ h => nomatch h

theorem MasterExists.tallyHead : MasterExists.Statement (.tallyHead) :=
  fun _ _ h => nomatch h

theorem MasterExists.tallyCommit : MasterExists.Statement (.tallyCommit) :=
  fun _ _ h => nomatch h

theorem MasterExists.tallyAbort : MasterExists.Statement (.tallyAbort) :=
  fun _ _ h => nomatch h

theorem MasterExists.tallyRewind : MasterExists.Statement (.tallyRewind) :=
  fun _ _ h => nomatch h

theorem MasterExists.tallyEnd : MasterExists.Statement (.tallyEnd) :=
  fun _ _ h => nomatch h

theorem MasterExists.tallyAdd (u : QueueUpset) : MasterExists.Statement (.tallyAdd u) :=
  fun _ _ h => nomatch h

theorem MasterExists.tallyReadspec (u : QueueUpset) : MasterExists.Statement (.tallyReadspec u) :=
  fun _ _ h => nomatch h

theorem MasterExists.tallyReadcomm (u : QueueUpset) : MasterExists.Statement (.tallyReadcomm u) :=
  fun _ _ h => nomatch h

theorem MasterExists.tlyLdcmdGo (m : BitVec 6) (v : Word) : MasterExists.Statement (.tlyLdcmdGo m v) :=
  fun w _ h => MasterExists.of_and0 w h

theorem MasterExists.tlyCtrlOpen (m : BitVec 6) (v : Word) : MasterExists.Statement (.tlyCtrlOpen m v) :=
  fun w _ h => MasterExists.of_and0 w h

theorem MasterExists.tlySelWrite (m : BitVec 6) (v : Word) : MasterExists.Statement (.tlySelWrite m v) :=
  fun w _ h => MasterExists.of_and0 w h

theorem MasterExists.ledgerCommit (u v : QueueUpset) : MasterExists.Statement (.ledgerCommit u v) :=
  fun _ _ h => nomatch h

theorem MasterExists.ledgerHead (u : QueueUpset) : MasterExists.Statement (.ledgerHead u) :=
  fun _ _ h => nomatch h

theorem MasterExists.recordDurable : MasterExists.Statement (.recordDurable) :=
  fun _ _ h => nomatch h

theorem MasterExists.cairnSigned (keyBad : Bool) : MasterExists.Statement (.cairnSigned keyBad) :=
  fun _ _ h => nomatch h

theorem MasterExists.ledAckhiWrite (m : BitVec 6) (v : Word) : MasterExists.Statement (.ledAckhiWrite m v) :=
  fun w _ h => MasterExists.of_and0 w h

theorem MasterExists.anchorDurable : MasterExists.Statement (.anchorDurable) :=
  fun _ _ h => nomatch h

theorem MasterExists.drainDmaGo (m : BitVec 6) (v : Word) : MasterExists.Statement (.drainDmaGo m v) :=
  fun w _ h => MasterExists.of_and0 w h

theorem MasterExists.drainDmaDone : MasterExists.Statement (.drainDmaDone) :=
  fun _ _ h => nomatch h

theorem MasterExists.ledDurseqloRead (m : BitVec 6) : MasterExists.Statement (.ledDurseqloRead m) :=
  fun w _ h => MasterExists.of_and0 w h

theorem MasterExists.powerFail : MasterExists.Statement (.powerFail) :=
  fun _ _ h => nomatch h

theorem MasterExists.cryptoVerify (n : BitVec 3) (u v : QueueUpset) (mismatch keyBad : Bool) : MasterExists.Statement (.cryptoVerify n u v mismatch keyBad) :=
  fun _ _ h => nomatch h

theorem MasterExists.cryptoSeal (n : BitVec 3) (u v : QueueUpset) (mismatch keyBad : Bool) : MasterExists.Statement (.cryptoSeal n u v mismatch keyBad) :=
  fun _ _ h => nomatch h

theorem MasterExists.cryptoHash (n : BitVec 3) (u v : QueueUpset) (mismatch keyBad : Bool) : MasterExists.Statement (.cryptoHash n u v mismatch keyBad) :=
  fun _ _ h => nomatch h

theorem MasterExists.drawRange (u : QueueUpset) (noise : List Byte) (bad : DrbgUpset) (keyBad : Bool) : MasterExists.Statement (.drawRange u noise bad keyBad) :=
  fun _ _ h => nomatch h

theorem MasterExists.drawKofn (u : QueueUpset) (noise : List Byte) (bad : DrbgUpset) (keyBad : Bool) : MasterExists.Statement (.drawKofn u noise bad keyBad) :=
  fun _ _ h => nomatch h

theorem MasterExists.drawHealth (u : QueueUpset) : MasterExists.Statement (.drawHealth u) :=
  fun _ _ h => nomatch h

theorem MasterExists.picSsetWrite (m : BitVec 6) (v : Word) : MasterExists.Statement (.picSsetWrite m v) :=
  fun w _ h => MasterExists.of_and0 w h

theorem MasterExists.picPsetWrite (m : BitVec 6) (t : BitVec 5) (v : Word) : MasterExists.Statement (.picPsetWrite m t v) :=
  fun w _ h => MasterExists.of_and0 w h

theorem MasterExists.moderationTimer (g : BitVec 5) : MasterExists.Statement (.moderationTimer g) :=
  fun _ _ h => nomatch h

theorem MasterExists.picModWrite (m : BitVec 6) (g : BitVec 5) (v : Word) : MasterExists.Statement (.picModWrite m g v) :=
  fun w _ h => MasterExists.of_and0 w h

theorem MasterExists.tgStart (m : BitVec 6) (g : BitVec 4) (c : BitVec 8) : MasterExists.Statement (.tgStart m g c) :=
  fun w _ h => MasterExists.of_and1 w h

theorem MasterExists.tgStop (m : BitVec 6) (g : BitVec 4) (c : BitVec 8) : MasterExists.Statement (.tgStop m g c) :=
  fun w _ h => MasterExists.of_and1 w h

theorem MasterExists.timerMatch (g : BitVec 4) (c : BitVec 3) : MasterExists.Statement (.timerMatch g c) :=
  fun _ _ h => nomatch h

theorem MasterExists.timerOverflow (g : BitVec 4) (c : BitVec 3) : MasterExists.Statement (.timerOverflow g c) :=
  fun _ _ h => nomatch h

theorem MasterExists.timerCapture (g : BitVec 4) (c : BitVec 3) : MasterExists.Statement (.timerCapture g c) :=
  fun _ _ h => nomatch h

theorem MasterExists.linkRestart (g : BitVec 4) (c : BitVec 3) (k : BitVec 1) : MasterExists.Statement (.linkRestart g c k) :=
  fun _ _ h => nomatch h

theorem MasterExists.linkOpen (g : BitVec 4) (c : BitVec 3) (k : BitVec 1) : MasterExists.Statement (.linkOpen g c k) :=
  fun _ _ h => nomatch h

theorem MasterExists.linkShut (g : BitVec 4) (c : BitVec 3) (k : BitVec 1) : MasterExists.Statement (.linkShut g c k) :=
  fun _ _ h => nomatch h

theorem MasterExists.linkArm (g : BitVec 4) (c : BitVec 3) (k : BitVec 1) : MasterExists.Statement (.linkArm g c k) :=
  fun _ _ h => nomatch h

theorem MasterExists.linkFollow (g : BitVec 4) (c : BitVec 3) (level : Bool) : MasterExists.Statement (.linkFollow g c level) :=
  fun _ _ h => nomatch h

theorem MasterExists.tmrKickZero (m : BitVec 6) (g : BitVec 4) (c : BitVec 3) : MasterExists.Statement (.tmrKickZero m g c) :=
  fun w _ h => MasterExists.of_and1 w h

theorem MasterExists.tmrKickSnap (m : BitVec 6) (g : BitVec 4) (c : BitVec 3) : MasterExists.Statement (.tmrKickSnap m g c) :=
  fun w _ h => MasterExists.of_and1 w h

theorem MasterExists.tmrCnthiWrite (m : BitVec 6) (g : BitVec 4) (c : BitVec 3) (v : Word) : MasterExists.Statement (.tmrCnthiWrite m g c v) :=
  fun w _ h => MasterExists.of_and1 w h

theorem MasterExists.tmrCntloRead (m : BitVec 6) (g : BitVec 4) (c : BitVec 3) : MasterExists.Statement (.tmrCntloRead m g c) :=
  fun w _ h => MasterExists.of_and1 w h

theorem MasterExists.tmrCaploRead (m : BitVec 6) (g : BitVec 4) (c : BitVec 3) : MasterExists.Statement (.tmrCaploRead m g c) :=
  fun w _ h => MasterExists.of_and1 w h

theorem MasterExists.tmrCmphiWrite (m : BitVec 6) (g : BitVec 4) (c : BitVec 3) (v : Word) : MasterExists.Statement (.tmrCmphiWrite m g c v) :=
  fun w _ h => MasterExists.of_and1 w h

theorem MasterExists.tmrTophiWrite (m : BitVec 6) (g : BitVec 4) (c : BitVec 3) (v : Word) : MasterExists.Statement (.tmrTophiWrite m g c v) :=
  fun w _ h => MasterExists.of_and1 w h

theorem MasterExists.tmrPscWrite (m : BitVec 6) (g : BitVec 4) (c : BitVec 3) (v : Word) : MasterExists.Statement (.tmrPscWrite m g c v) :=
  fun w _ h => MasterExists.of_and1 w h

theorem MasterExists.tmrLinkWrite (m : BitVec 6) (g : BitVec 4) (c : BitVec 3) (v : Word) : MasterExists.Statement (.tmrLinkWrite m g c v) :=
  fun w _ h => MasterExists.of_and1 w h

theorem MasterExists.evfSwtrigWrite (m : BitVec 6) (v : Word) : MasterExists.Statement (.evfSwtrigWrite m v) :=
  fun w _ h => MasterExists.of_and0 w h

theorem MasterExists.evfSelWrite (m : BitVec 6) (i : BitVec 7) (v : Word) : MasterExists.Statement (.evfSelWrite m i v) :=
  fun w _ h => MasterExists.of_and1 w h

theorem MasterExists.rtcSecond : MasterExists.Statement (.rtcSecond) :=
  fun _ _ h => nomatch h

theorem MasterExists.rtcTrimCorrection : MasterExists.Statement (.rtcTrimCorrection) :=
  fun _ _ h => nomatch h

theorem MasterExists.rtcLoad (m : BitVec 6) (v : Word) : MasterExists.Statement (.rtcLoad m v) :=
  fun w _ h => MasterExists.of_and0 w h

theorem MasterExists.rtcLoadApply : MasterExists.Statement (.rtcLoadApply) :=
  fun _ _ h => nomatch h

theorem MasterExists.rtcSubRead (m : BitVec 6) : MasterExists.Statement (.rtcSubRead m) :=
  fun w _ h => MasterExists.of_and0 w h

theorem MasterExists.monStart : MasterExists.Statement (.monStart) :=
  fun _ _ h => nomatch h

theorem MasterExists.monInterval : MasterExists.Statement (.monInterval) :=
  fun _ _ h => nomatch h

theorem MasterExists.monConversion (code : BitVec 12) : MasterExists.Statement (.monConversion code) :=
  fun _ _ h => nomatch h

theorem MasterExists.pdVoteaWrite (m : BitVec 6) (d : BitVec 5) (v : Word) : MasterExists.Statement (.pdVoteaWrite m d v) :=
  fun w _ h => MasterExists.of_and1 w h

theorem MasterExists.pdVotebWrite (m : BitVec 6) (d : BitVec 5) (v : Word) : MasterExists.Statement (.pdVotebWrite m d v) :=
  fun w _ h => MasterExists.of_and1 w h

theorem MasterExists.domainEntry (d : BitVec 5) (wake : BitVec 4) : MasterExists.Statement (.domainEntry d wake) :=
  fun _ _ h => nomatch h

theorem MasterExists.domainExit (d : BitVec 5) (reserveOk : Bool) : MasterExists.Statement (.domainExit d reserveOk) :=
  fun _ _ h => nomatch h

theorem MasterExists.railFault (n : BitVec 3) : MasterExists.Statement (.railFault n) :=
  fun _ _ h => nomatch h

theorem MasterExists.clkSrcWrite (m : BitVec 6) (d : BitVec 5) (v : Word) : MasterExists.Statement (.clkSrcWrite m d v) :=
  fun w _ h => MasterExists.of_and1 w h

theorem MasterExists.pllLock : MasterExists.Statement (.pllLock) :=
  fun _ _ h => nomatch h

theorem MasterExists.clockFailure (root : Bool) : MasterExists.Statement (.clockFailure root) :=
  fun _ _ h => nomatch h

theorem MasterExists.clkstopTimeout (m : BitVec 6) (a : Word) (wr : Bool) (v : Word) (captured : Bool) : MasterExists.Statement (.clkstopTimeout m a wr v captured) :=
  fun w _ h => MasterExists.of_and0 w h

theorem MasterExists.perstAssert (torn : Torn) : MasterExists.Statement (.perstAssert torn) :=
  fun _ _ h => nomatch h

theorem MasterExists.perstDeassert (speed : BitVec 4) (width : BitVec 6) : MasterExists.Statement (.perstDeassert speed width) :=
  fun _ _ h => nomatch h

theorem MasterExists.flr (torn : Torn) : MasterExists.Statement (.flr torn) :=
  fun _ _ h => nomatch h

theorem MasterExists.hbMsigenWrite (m : BitVec 6) (v : Word) : MasterExists.Statement (.hbMsigenWrite m v) :=
  fun w _ h => MasterExists.of_and0 w h

theorem MasterExists.ptmDialogue (time : BitVec 64) : MasterExists.Statement (.ptmDialogue time) :=
  fun _ _ h => nomatch h

theorem MasterExists.hbPtmloRead (m : BitVec 6) : MasterExists.Statement (.hbPtmloRead m) :=
  fun w _ h => MasterExists.of_and0 w h

theorem MasterExists.mbxCmdWord (v : Word) (be : BitVec 4) : MasterExists.Statement (.mbxCmdWord v be) :=
  fun _ _ h => nomatch h

theorem MasterExists.serviceUartWord (bytes : List Byte) : MasterExists.Statement (.serviceUartWord bytes) :=
  fun _ _ h => nomatch h

theorem MasterExists.frameAbandon : MasterExists.Statement (.frameAbandon) :=
  fun _ _ h => nomatch h

theorem MasterExists.mbxRspRead : MasterExists.Statement (.mbxRspRead) :=
  fun _ _ h => nomatch h

theorem MasterExists.nop : MasterExists.Statement (.nop) :=
  fun _ _ h => nomatch h

theorem MasterExists.status : MasterExists.Statement (.status) :=
  fun _ _ h => nomatch h

theorem MasterExists.switchProfile (st : SelfTest) (noise : List Byte) : MasterExists.Statement (.switchProfile st noise) :=
  fun _ _ h => nomatch h

theorem MasterExists.keyLoad : MasterExists.Statement (.keyLoad) :=
  fun _ _ h => nomatch h

theorem MasterExists.keyZero : MasterExists.Statement (.keyZero) :=
  fun _ _ h => nomatch h

theorem MasterExists.keyInfo : MasterExists.Statement (.keyInfo) :=
  fun _ _ h => nomatch h

theorem MasterExists.updBegin : MasterExists.Statement (.updBegin) :=
  fun _ _ h => nomatch h

theorem MasterExists.updData : MasterExists.Statement (.updData) :=
  fun _ _ h => nomatch h

theorem MasterExists.updVerify : MasterExists.Statement (.updVerify) :=
  fun _ _ h => nomatch h

theorem MasterExists.updActivate (how : ActEnd) (st : SelfTest) (noise : List Byte) :
    MasterExists.Statement (.updActivate how st noise) :=
  fun _ _ h => nomatch h

theorem MasterExists.updConfirm : MasterExists.Statement (.updConfirm) :=
  fun _ _ h => nomatch h

theorem MasterExists.updAbort : MasterExists.Statement (.updAbort) :=
  fun _ _ h => nomatch h

theorem MasterExists.doorbellStopIntake : MasterExists.Statement (.doorbellStopIntake) :=
  fun _ _ h => nomatch h

theorem MasterExists.doorbellResumeIntake : MasterExists.Statement (.doorbellResumeIntake) :=
  fun _ _ h => nomatch h

theorem MasterExists.ethFrameReceive (p : BitVec 1) (frame : List Byte) (corr uncorr : BitVec 16) : MasterExists.Statement (.ethFrameReceive p frame corr uncorr) :=
  fun _ _ h => nomatch h

theorem MasterExists.ethLinkChange (p : BitVec 1) (blk fec ok los : Bool) : MasterExists.Statement (.ethLinkChange p blk fec ok los) :=
  fun _ _ h => nomatch h

theorem MasterExists.txFault (p : BitVec 1) (level : Bool) : MasterExists.Statement (.txFault p level) :=
  fun _ _ h => nomatch h

theorem MasterExists.modAbsChange (p : BitVec 1) (absent : Bool) : MasterExists.Statement (.modAbsChange p absent) :=
  fun _ _ h => nomatch h

theorem MasterExists.sfpRead (m : BitVec 6) (p : BitVec 1) (v : Word) : MasterExists.Statement (.sfpRead m p v) :=
  fun w _ h => MasterExists.of_and0 w h

theorem MasterExists.sfpReadDone (p : BitVec 1) (data : Option Word) : MasterExists.Statement (.sfpReadDone p data) :=
  fun _ _ h => nomatch h

theorem MasterExists.egressDispatch (port : BitVec 2) (u v : QueueUpset) : MasterExists.Statement (.egressDispatch port u v) :=
  fun _ _ h => nomatch h

theorem MasterExists.egressRawFrame (port : BitVec 2) (u : QueueUpset) : MasterExists.Statement (.egressRawFrame port u) :=
  fun _ _ h => nomatch h

theorem MasterExists.serFrameReceive (line : List Bool) (before : Bool) :
    MasterExists.Statement (.serFrameReceive line before) :=
  fun _ _ h => nomatch h

theorem MasterExists.coverLoop (ohms : BitVec 12) : MasterExists.Statement (.coverLoop ohms) :=
  fun _ _ h => nomatch h

theorem MasterExists.temperature (code : BitVec 12) : MasterExists.Statement (.temperature code) :=
  fun _ _ h => nomatch h

theorem MasterExists.vaonGlitch (mv : BitVec 16) (merged : Bool) : MasterExists.Statement (.vaonGlitch mv merged) :=
  fun _ _ h => nomatch h

theorem MasterExists.aonfault : MasterExists.Statement (.aonfault) :=
  fun _ _ h => nomatch h

theorem MasterExists.supplySwitchover (cell : Bool) : MasterExists.Statement (.supplySwitchover cell) :=
  fun _ _ h => nomatch h

theorem MasterExists.batgone : MasterExists.Statement (.batgone) :=
  fun _ _ h => nomatch h

theorem MasterExists.batgoneClear (m : BitVec 6) (inRange : Bool) : MasterExists.Statement (.batgoneClear m inRange) :=
  fun w _ h => MasterExists.of_and0 w h

theorem MasterExists.loopen (m : BitVec 6) : MasterExists.Statement (.loopen m) :=
  fun w _ h => MasterExists.of_and0 w h

theorem MasterExists.islandPowerLoss : MasterExists.Statement (.islandPowerLoss) :=
  fun _ _ h => nomatch h

theorem MasterExists.tmpLogd0Read (m : BitVec 6) : MasterExists.Statement (.tmpLogd0Read m) :=
  fun w _ h => MasterExists.of_and0 w h

theorem MasterExists.supFlogd0Read (m : BitVec 6) : MasterExists.Statement (.supFlogd0Read m) :=
  fun w _ h => MasterExists.of_and0 w h

theorem MasterExists.clvRcntloRead (m : BitVec 6) (t : BitVec 5) : MasterExists.Statement (.clvRcntloRead m t) :=
  fun w _ h => MasterExists.of_and0 w h

theorem MasterExists.wsSeqloRead (m : BitVec 6) : MasterExists.Statement (.wsSeqloRead m) :=
  fun w _ h => MasterExists.of_and0 w h

theorem MasterExists.wsSlotstRead (m : BitVec 6) : MasterExists.Statement (.wsSlotstRead m) :=
  fun w _ h => MasterExists.of_and0 w h

theorem MasterExists.ethPeerstRead (m : BitVec 6) (p : BitVec 1) : MasterExists.Statement (.ethPeerstRead m p) :=
  fun w _ h => MasterExists.of_and0 w h

theorem MasterExists.auditOpen (n : BitVec 16) : MasterExists.Statement (.auditOpen n) :=
  fun _ _ h => nomatch h

theorem MasterExists.auditClose (n : BitVec 16) : MasterExists.Statement (.auditClose n) :=
  fun _ _ h => nomatch h

theorem MasterExists.auditRead (w : Word) (n : BitVec 16) : MasterExists.Statement (.auditRead w n) :=
  fun _ _ h => nomatch h

theorem MasterExists.auditTrace (n : BitVec 16) : MasterExists.Statement (.auditTrace n) :=
  fun _ _ h => nomatch h

theorem MasterExists.auditSessionTimeout : MasterExists.Statement (.auditSessionTimeout) :=
  fun _ _ h => nomatch h

theorem MasterExists.audTrcselWrite (m : BitVec 6) (v : Word) : MasterExists.Statement (.audTrcselWrite m v) :=
  fun w _ h => MasterExists.of_and0 w h

theorem MasterExists.halt (m : BitVec 6) (t : BitVec 5) : MasterExists.Statement (.halt m t) :=
  fun w _ h => MasterExists.of_and0 w h

theorem MasterExists.step (m : BitVec 6) (t : BitVec 5) : MasterExists.Statement (.step m t) :=
  fun w _ h => MasterExists.of_and0 w h

theorem MasterExists.resume (m : BitVec 6) (t : BitVec 5) : MasterExists.Statement (.resume m t) :=
  fun w _ h => MasterExists.of_and0 w h

theorem MasterExists.dbgAccGo (m : BitVec 6) (v : Word) : MasterExists.Statement (.dbgAccGo m v) :=
  fun w _ h => MasterExists.of_and0 w h

theorem MasterExists.tapReset : MasterExists.Statement (.tapReset) :=
  fun _ _ h => nomatch h

theorem MasterExists.samplePreload (sampled load : Nat) : MasterExists.Statement (.samplePreload sampled load) :=
  fun _ _ h => nomatch h

theorem MasterExists.idcode : MasterExists.Statement (.idcode) :=
  fun _ _ h => nomatch h

theorem MasterExists.extest (load : Nat) : MasterExists.Statement (.extest load) :=
  fun _ _ h => nomatch h

theorem MasterExists.clamp : MasterExists.Statement (.clamp) :=
  fun _ _ h => nomatch h

theorem MasterExists.highz : MasterExists.Statement (.highz) :=
  fun _ _ h => nomatch h

theorem MasterExists.dbgacc (w : BitVec 48) : MasterExists.Statement (.dbgacc w) :=
  fun _ _ h => nomatch h

theorem MasterExists.keytab (w : BitVec 1027) : MasterExists.Statement (.keytab w) :=
  fun _ _ h => nomatch h

theorem MasterExists.seal (v : Word) : MasterExists.Statement (.seal v) :=
  fun _ _ h => nomatch h

theorem MasterExists.bypass : MasterExists.Statement (.bypass) :=
  fun _ _ h => nomatch h

theorem MasterExists.registerRead (m : BitVec 6) (p : Place) : MasterExists.Statement (.registerRead m p) :=
  fun w _ h => MasterExists.of_and0 w h

theorem MasterExists.kernelEdge (g : BitVec 4) (c : BitVec 3) : MasterExists.Statement (.kernelEdge g c) :=
  fun _ _ h => nomatch h

theorem MasterExists.evPinEdge (k : BitVec 3) (level : Bool) (periods : BitVec 32) (restart : BitVec 72) :
    MasterExists.Statement (.evPinEdge k level periods restart) :=
  fun _ _ h => nomatch h

theorem MasterExists.slckEdge : MasterExists.Statement (.slckEdge) :=
  fun _ _ h => nomatch h

theorem MasterExists.tmrCtrlWrite (m : BitVec 6) (g : BitVec 4) (c : BitVec 3) (v : Word) : MasterExists.Statement (.tmrCtrlWrite m g c v) :=
  fun w _ h => MasterExists.of_and1 w h

theorem MasterExists.tmrIenWrite (m : BitVec 6) (g : BitVec 4) (c : BitVec 3) (v : Word) : MasterExists.Statement (.tmrIenWrite m g c v) :=
  fun w _ h => MasterExists.of_and1 w h

theorem MasterExists.tmrCapctlWrite (m : BitVec 6) (g : BitVec 4) (c : BitVec 3) (v : Word) : MasterExists.Statement (.tmrCapctlWrite m g c v) :=
  fun w _ h => MasterExists.of_and1 w h

theorem MasterExists.drwEntinWrite (m : BitVec 6) (v : Word) : MasterExists.Statement (.drwEntinWrite m v) :=
  fun w _ h => MasterExists.of_and0 w h

theorem MasterExists.drainWindowWrite : MasterExists.Statement (.drainWindowWrite) :=
  fun _ _ h => nomatch h

theorem MasterExists.configurationRequest (r : CfgReq) : MasterExists.Statement (.configurationRequest r) :=
  fun _ _ h => nomatch h

theorem MasterExists.msixVectorUnmask (v : Option (BitVec 6)) : MasterExists.Statement (.msixVectorUnmask v) :=
  fun _ _ h => nomatch h

theorem MasterExists.pcieLinkStateChange (c : LinkChange) : MasterExists.Statement (.pcieLinkStateChange c) :=
  fun _ _ h => nomatch h

theorem MasterExists.routerFailure (r : BitVec 4) : MasterExists.Statement (.routerFailure r) :=
  fun _ _ h => nomatch h

theorem MasterExists.duplicatedLogicMismatch : MasterExists.Statement (.duplicatedLogicMismatch) :=
  fun _ _ h => nomatch h

theorem MasterExists.ingressComparatorDisagreement (n : BitVec 3) : MasterExists.Statement (.ingressComparatorDisagreement n) :=
  fun _ _ h => nomatch h

theorem MasterExists.islandPowerUp (cell : Bool) : MasterExists.Statement (.islandPowerUp cell) :=
  fun _ _ h => nomatch h

theorem MasterExists.coverLoopClosed (ohms : BitVec 12) : MasterExists.Statement (.coverLoopClosed ohms) :=
  fun _ _ h => nomatch h

theorem MasterExists.tamperTemperatureNormal (code : BitVec 12) : MasterExists.Statement (.tamperTemperatureNormal code) :=
  fun _ _ h => nomatch h

end Sys2Proof.Laws
end

