-- ==== Sys2Proof/Laws/Queue.lean ====
section
/-!
SUPPORT. What the operations of the interrupt controller and the queue engine may change: their own parts, registers, events
and open values, and nothing else of the card.
-/

namespace Sys2Proof.Machine

/-- The state s with the parts of u that the interrupt controller and the queue engine may change, and the fault log. -/
def queueParts (s u : State) : State :=
  { s with qe := u.qe, csr := u.csr, pic := u.pic, evq := u.evq, fresh := u.fresh, wakeCause := u.wakeCause,
           flog := u.flog }

/-- From s to u nothing has changed outside those parts. -/
def InQueue (s u : State) : Prop := u = queueParts s u

theorem InQueue.refl (s : State) : InQueue s s := rfl

theorem InQueue.trans {s u w : State} (h : InQueue s u) (k : InQueue u w) : InQueue s w := by
  unfold InQueue queueParts at *
  rw [k, h]

theorem InQueue.ite {s u w : State} {p : Prop} [Decidable p] (h : InQueue s u) (k : InQueue s w) :
    InQueue s (if p then u else w) := by
  split
  · exact h
  · exact k

theorem InQueue.foldl {α : Type} {f : State → α → State} (h : ∀ s x, InQueue s (f s x)) (l : List α) (s : State) :
    InQueue s (l.foldl f s) := by
  induction l generalizing s with
  | nil => exact .refl s
  | cons x r ih => exact (h s x).trans (ih _)

theorem InQueue.triads {s u : State} (h : InQueue s u) : u.triads = s.triads := by rw [h]; rfl
theorem InQueue.aud {s u : State} (h : InQueue s u) : u.aud = s.aud := by rw [h]; rfl
theorem InQueue.mem {s u : State} (h : InQueue s u) : u.mem = s.mem := by rw [h]; rfl
theorem InQueue.poison {s u : State} (h : InQueue s u) : u.poison = s.poison := by rw [h]; rfl

theorem csr_inQueue (s : State) (c : Tab Word) : InQueue s { s with csr := c } := rfl
theorem pic_inQueue (s : State) (c : Pic) : InQueue s { s with pic := c } := rfl
theorem qe_inQueue (s : State) (c : Qe) : InQueue s { s with qe := c } := rfl
theorem evq_inQueue (s : State) (l : List Nat) : InQueue s { s with evq := l } := rfl
theorem fresh_inQueue (s : State) (n : Nat) : InQueue s { s with fresh := n } := rfl
theorem wakeCause_inQueue (s : State) (l : Tab Nat) : InQueue s { s with wakeCause := l } := rfl
theorem flog_inQueue (s : State) (l : Tab (BitVec 128)) : InQueue s { s with flog := l } := rfl

theorem setReg_inQueue (s : State) (a : Nat) (w : Word) : InQueue s (setReg s a w) := csr_inQueue s _
theorem setF_inQueue (s : State) (a : Nat) (f : Fld) (n : Nat) : InQueue s (setF s a f n) := setReg_inQueue ..
theorem setFlag_inQueue (s : State) (a : Nat) (f : Fld) (b : Bool) : InQueue s (setFlag s a f b) := setF_inQueue ..
theorem incSat_inQueue (s : State) (a : Nat) (f : Fld) (n : Nat) : InQueue s (incSat s a f n) := setF_inQueue ..
theorem produce_inQueue (s : State) (n : Nat) : InQueue s (produce s n) := evq_inQueue s _
theorem setQ_inQueue (s : State) (q : Nat) (d : QDesc) : InQueue s (setQ s q d) := qe_inQueue s _
theorem setBank_inQueue (s : State) (t : Nat) (b : PicBank) : InQueue s (setBank s t b) := pic_inQueue s _
theorem setGroup_inQueue (s : State) (m : Nat) (g : ModGroup) : InQueue s (setGroup s m g) := pic_inQueue s _

/-! ### Interrupt controller -/

theorem wakeRequest_inQueue (s : State) (d c : Nat) : InQueue s (wakeRequest s d c) := by
  unfold wakeRequest
  dsimp only
  split
  · exact .refl s
  · refine (setFlag_inQueue s (PD_VOTEB d) PD_VOTEB_WAKE true).trans ?_
    split
    · exact wakeCause_inQueue (setFlag s (PD_VOTEB d) PD_VOTEB_WAKE true) _
    · exact .refl _

theorem releaseGroup_inQueue (s : State) (m : Nat) : InQueue s (releaseGroup s m) :=
  (setGroup_inQueue s m {}).trans (pic_inQueue (setGroup s m {}) _)

theorem modEvent_inQueue (s : State) (n : Nat) : InQueue s (modEvent s n) := by
  unfold modEvent
  dsimp only
  split
  · exact releaseGroup_inQueue ..
  · exact InQueue.ite ((setGroup_inQueue ..).trans (releaseGroup_inQueue _ _)) (setGroup_inQueue ..)

theorem watchWake_inQueue (s : State) (n : Nat) : InQueue s (watchWake s n) := by
  unfold watchWake
  dsimp only
  split
  · exact wakeRequest_inQueue ..
  · exact .refl s

theorem pendShared_inQueue (s : State) (n : Nat) : InQueue s (pendShared s n) := by
  unfold pendShared
  dsimp only
  refine InQueue.trans ?_ (watchWake_inQueue _ _)
  refine InQueue.trans ?_ (modEvent_inQueue _ _)
  exact InQueue.ite (pic_inQueue s _) ((pic_inQueue s _).trans (incSat_inQueue ..))

theorem srcEvent_inQueue (s : State) (n : Nat) : InQueue s (srcEvent s n) := pendShared_inQueue s n

theorem privEvent_inQueue (s : State) (t k : Nat) : InQueue s (privEvent s t k) := setBank_inQueue ..

theorem takeClaim_inQueue (s : State) (t id : Nat) (p : BitVec 4) : InQueue s (takeClaim s t id p) := by
  unfold takeClaim
  dsimp only
  refine InQueue.trans ?_ (setBank_inQueue ..)
  split
  · exact setBank_inQueue ..
  · exact pic_inQueue s _

theorem claim_inQueue (s : State) (t : Nat) : InQueue s (claim s t).2 := by
  unfold claim
  split
  · exact takeClaim_inQueue ..
  · split
    · exact takeClaim_inQueue ..
    · exact .refl s

theorem clearActive_inQueue (s : State) (t id : Nat) : InQueue s (clearActive s t id) := by
  unfold clearActive
  split
  · exact setBank_inQueue ..
  · exact pic_inQueue s _

theorem endOfInterrupt_inQueue (s : State) (t id : Nat) : InQueue s (endOfInterrupt s t id) := by
  unfold endOfInterrupt
  dsimp only
  have h : InQueue s (match (getBank s t).stack with
    | [] => incSat s PIC_ERR PIC_ERR_EOIEMPTY 1
    | _ :: r => setBank s t { getBank s t with stack := r }) := by
    split
    · exact incSat_inQueue ..
    · exact setBank_inQueue ..
  exact InQueue.ite (h.trans (clearActive_inQueue ..)) (h.trans (incSat_inQueue ..))

/-- A fault log entry with the interrupt that it raises. -/
theorem logFault_inQueue (s : State) (k : FKind) (e t d : Nat) : InQueue s (logFault s k e t d) := by
  unfold logFault
  dsimp only
  have h : ∀ l, InQueue s (incWrap { s with flog := l } SUP_FLOGCNT SUP_FLOGCNT_COUNT 1) := fun l =>
    (flog_inQueue s l).trans (setF_inQueue ..)
  split
  · exact (h _).trans (srcEvent_inQueue ..)
  · exact h _

/-! ### Queue engine -/

theorem poolCheck_inQueue (s : State) : InQueue s (poolCheck s) := by
  unfold poolCheck
  dsimp only
  refine (setFlag_inQueue s QE_STATUS QE_STATUS_POOLEMPTY (poolFree s == 0)).trans ?_
  split
  · exact .refl _
  · exact (setFlag_inQueue ..).trans (produce_inQueue ..)

theorem freeCells_inQueue (s : State) (l : List Nat) : InQueue s (freeCells s l) :=
  InQueue.foldl (fun s _ => qe_inQueue s _) l s

theorem leakCells_inQueue (s : State) (l : List Nat) : InQueue s (leakCells s l) :=
  (InQueue.foldl (fun s _ => qe_inQueue s _) l s).trans (incSat_inQueue ..)

theorem storeWord_inQueue (s : State) (q : Nat) (w : Word) (e g : Bool) : InQueue s (storeWord s q w e g) := by
  unfold storeWord
  dsimp only
  refine InQueue.trans ?_ (setQ_inQueue ..)
  refine InQueue.trans ?_ (qe_inQueue _ _)
  split
  · exact qe_inQueue s _
  · split
    · exact (qe_inQueue s _).trans (qe_inQueue _ _)
    · exact .refl s

theorem armTimer_inQueue (s : State) (q c : Nat) : InQueue s (armTimer s q c) := by
  unfold armTimer
  dsimp only
  split
  · exact (fresh_inQueue s _).trans (setQ_inQueue ..)
  · exact .refl s

theorem takeGap_inQueue (s : State) (q : Nat) : InQueue s (takeGap s q) := by
  unfold takeGap
  split
  · exact (qe_inQueue s _).trans (setQ_inQueue ..)
  · exact (incSat_inQueue ..).trans (setQ_inQueue ..)

theorem freeGap_inQueue (s : State) (q : Nat) : InQueue s (freeGap s q) := by
  unfold freeGap
  dsimp only
  refine InQueue.trans ?_ (setQ_inQueue ..)
  split
  · exact qe_inQueue s _
  · exact .refl s

theorem countDrop_inQueue (s : State) (q c : Nat) : InQueue s (countDrop s q c) :=
  (setQ_inQueue ..).trans (incSat_inQueue ..)

theorem enterGap_inQueue (s : State) (q c : Nat) (e : Bool) : InQueue s (enterGap s q c e) := by
  unfold enterGap disarm
  dsimp only
  exact (((InQueue.trans (setQ_inQueue ..) (takeGap_inQueue ..)).trans (incSat_inQueue ..)).trans (incSat_inQueue ..)).trans
    (setQ_inQueue ..)

theorem pushCore_inQueue (s : State) (q c : Nat) (w : Word) (e : Bool) : InQueue s (pushCore s q c w e).1 := by
  unfold pushCore
  split
  · exact .refl s
  · dsimp only
    split
    · split
      · exact enterGap_inQueue ..
      · dsimp only
        split
        · exact (storeWord_inQueue ..).trans (armTimer_inQueue ..)
        · exact storeWord_inQueue ..
    · split
      · exact (countDrop_inQueue s q c).trans (setQ_inQueue ..)
      · exact countDrop_inQueue ..
    · split
      · exact ((((storeWord_inQueue ..).trans (freeGap_inQueue ..)).trans (setQ_inQueue ..)).trans (storeWord_inQueue ..)).trans
          (armTimer_inQueue ..)
      · dsimp only
        split
        · exact countDrop_inQueue ..
        · exact (countDrop_inQueue s q c).trans (setQ_inQueue ..)
    · dsimp only
      split
      · exact (incSat_inQueue ..).trans (setQ_inQueue ..)
      · exact incSat_inQueue ..
    · exact incSat_inQueue ..

theorem descRead_inQueue (s : State) (q : Nat) : InQueue s (descRead s q) := qe_inQueue s _

theorem broken_inQueue (s : State) (q c : Nat) (f l : List Nat) : InQueue s (broken s q c f l) := by
  unfold broken
  exact ((((freeCells_inQueue s f).trans (leakCells_inQueue ..)).trans (setQ_inQueue ..)).trans
    ((incSat_inQueue ..).trans (produce_inQueue ..))).trans (srcEvent_inQueue ..)

theorem noticeQueue_inQueue (s : State) (nq : Nat) : InQueue s (noticeQueue s nq) := by
  unfold noticeQueue
  split
  · exact (descRead_inQueue ..).trans (broken_inQueue ..)
  · exact descRead_inQueue ..

theorem postNotice_inQueue (q c : Nat) (s : State) (k : Notice) : InQueue s (postNotice q c s k) := by
  unfold postNotice
  split
  · exact (noticeQueue_inQueue ..).trans (pushCore_inQueue ..)
  · exact .refl s

theorem postNotices_inQueue (s : State) (q c : Nat) (l : List Notice) : InQueue s (postNotices s q c l) :=
  InQueue.foldl (postNotice_inQueue q c) l s

theorem markBroken_inQueue (s : State) (q c : Nat) (f l : List Nat) : InQueue s (markBroken s q c f l) :=
  ((broken_inQueue ..).trans (postNotice_inQueue ..)).trans (poolCheck_inQueue _)

theorem checkDesc_inQueue (s : State) (q c : Nat) (u : QueueUpset) : InQueue s (checkDesc s q c u) := by
  unfold checkDesc
  split
  · exact (descRead_inQueue ..).trans (markBroken_inQueue ..)
  · exact descRead_inQueue ..

theorem pushOne_inQueue (s : State) (q c : Nat) (w : Word) (e : Bool) : InQueue s (pushOne s q c w e) :=
  (((checkDesc_inQueue ..).trans (pushCore_inQueue ..)).trans (postNotices_inQueue ..)).trans (poolCheck_inQueue _)

theorem advanceHead_inQueue (s : State) (q c : Nat) (e b : Bool) : InQueue s (advanceHead s q c e b).1 := by
  unfold advanceHead
  dsimp only
  split
  · exact (qe_inQueue s _).trans ((setQ_inQueue ..).trans (setQ_inQueue ..))
  · split
    · split
      · exact markBroken_inQueue ..
      · exact (qe_inQueue s _).trans (setQ_inQueue ..)
    · exact setQ_inQueue ..

theorem rearm_inQueue (s : State) (q c : Nat) : InQueue s (rearm s q c) := by
  unfold rearm
  dsimp only
  split
  · exact armTimer_inQueue ..
  · exact .refl s

theorem popWord_inQueue (s : State) (q c : Nat) (u : QueueUpset) (i : Nat) : InQueue s (popWord s q c u i).2.2 := by
  unfold popWord
  dsimp only
  split
  · exact .refl s
  · split
    · exact .refl s
    · refine InQueue.trans ?_ (poolCheck_inQueue _)
      refine InQueue.trans ?_ (rearm_inQueue ..)
      refine InQueue.trans ?_ (advanceHead_inQueue ..)
      split
      · exact (((incSat_inQueue ..).trans (produce_inQueue ..)).trans (srcEvent_inQueue ..)).trans (logFault_inQueue ..)
      · exact .refl _

theorem popCore_inQueue (s : State) (q c : Nat) (u : QueueUpset) : InQueue s (popCore s q c u).2.2 :=
  (checkDesc_inQueue s q c u).trans (popWord_inQueue ..)

theorem dropWords_inQueue (q c : Nat) (u : QueueUpset) (n i : Nat) (s : State) : InQueue s (dropWords q c u n i s).1 := by
  induction n generalizing s i with
  | zero => exact .refl s
  | succ n ih =>
    unfold dropWords
    dsimp only
    split
    · exact .refl s
    · have h (e b : Bool) := (incSat_inQueue s (QE_CERR c) QE_CERR_DISC 1).trans
        (advanceHead_inQueue (incSat s (QE_CERR c) QE_CERR_DISC 1) q c e b)
      split
      · exact h ..
      · split
        · exact h ..
        · exact (h ..).trans (ih ..)

theorem dropCore_inQueue (s : State) (q c : Nat) (u : QueueUpset) : InQueue s (dropCore s q c u) := by
  refine (checkDesc_inQueue s q c u).trans ?_
  unfold dropCore
  generalize checkDesc s q c u = s
  dsimp only
  split
  · exact .refl _
  · exact .refl _
  · split
    · exact ((dropWords_inQueue ..).trans (rearm_inQueue ..)).trans (poolCheck_inQueue _)
    · split
      · exact ((dropWords_inQueue ..).trans (setQ_inQueue ..)).trans (poolCheck_inQueue _)
      · exact (dropWords_inQueue ..).trans (poolCheck_inQueue _)
  · exact (dropWords_inQueue ..).trans (poolCheck_inQueue _)
  · exact (dropWords_inQueue ..).trans (poolCheck_inQueue _)

theorem heldAccess_inQueue (s : State) (d : Nat) : InQueue s (heldAccess s d) := by
  unfold heldAccess
  split
  · exact ((((incSat_inQueue ..).trans (setFlag_inQueue ..)).trans (wakeCause_inQueue ..)).trans (setF_inQueue ..)).trans
      ((setFlag_inQueue ..).trans (setF_inQueue ..))
  · exact .refl s

end Sys2Proof.Machine
end

