-- ==== Sys2Proof/Tests/Slice0.lean ====
section
/-!
SUPPORT. The model's own tests: an ill-formed command for each check, words of moves written out from the encodings of
spec chapter 03, values of the spec's worked examples, and for each statement with hypotheses a state and operands that
meet them (`witness_<statement>`). Small states are built from the reset state by `withF` and `coreOf`.
-/

namespace Sys2Proof.Tests

open Sys2Proof Sys2Proof.Machine

set_option Elab.async false

/-! ### Small states -/

/-- The state with fields of registers set. -/
def withF (s : State) (l : List (Nat × Fld × Nat)) : State := l.foldl (fun s p => setF s p.1 p.2.1 p.2.2) s

/-- A triad whose eight segments map its local store for every access, with ports set. -/
def coreOf (ps : List (Nat × Word)) : Triad :=
  ((List.range 8).foldl (fun x i => setPort (setPort x (0xC8 + i) 0x20000) (0xD0 + i) 7) ({} : Triad)
    |> ps.foldl (fun x p => setPort x p.1 p.2))

/-- Triad t is started. -/
def started (t : Nat) : List (Nat × Fld × Nat) := [(SUP_TRIAD t, SUP_TRIAD_EN, 1), (SUP_TRIAD t, SUP_TRIAD_MODE, 1)]

/-- The reset state with triad 0 started, its record x. -/
def withCore (x : Triad) : State := setT (withF State.reset (started 0)) 0 x

/-- `Settled`, as a check. -/
def settled (x : Triad) : Bool := x.point.isNone && together x && x.split.isNone

theorem settled_of {x : Triad} (h : settled x = true) : Settled x := by
  simpa [settled, Settled, and_assoc] using h

/-- A step of the routine r can be made in s (the conditions of `StepsOn`, as a check). -/
def stepsOn (s : State) (t : Nat) : Bool :=
  issues s t && settled (getT s t) && (getT s t).run.isSome && s.aud.made.isEmpty && !s.aud.acc

theorem stepsOn_of {s : State} {t : Nat} (h : stepsOn s t = true) : ∃ r, StepsOn s t r {} := by
  simp only [stepsOn, Bool.and_eq_true, Option.isSome_iff_exists, List.isEmpty_iff, Bool.not_eq_true'] at h
  obtain ⟨⟨⟨⟨h1, h2⟩, ⟨r, h3⟩⟩, h4⟩, h5⟩ := h
  exact ⟨r, h1, rfl, settled_of h2, h3, h4, h5⟩

/-- Triad t performs m: the transported value and the state after the read (the conditions of `Performs`, as a check). -/
def performs? (s : State) (t : Nat) (m : Move) : Option (Word × State) :=
  match fetchMove s t m.len {} {} with
  | .ok s1 =>
    let r := readSrc s1 t (srcOf m.op)
    if issues s t = true ∧ settled (getT s t) = true ∧ (getT s t).run = none ∧ breakHere s t = false ∧
      (getT s1 t).rtiCheck = false ∧ (portExc (supervisor (getT s1 t)) m.op).isNone = true ∧ settled (getT r.2 t) = true ∧
      r.2.aud.made = [] ∧ r.2.aud.acc = false then some r else none
  | .error _ => none

theorem performs_of {s u : State} {t : Nat} {m : Move} {v : Word} (h : performs? s t m = some (v, u)) :
    Performs s t m v u := by
  unfold performs? at h
  split at h
  · next s1 hf =>
    dsimp only at h
    split at h
    · next c =>
      obtain ⟨c1, c2, c3, c4, c5, c6, c7, c8, c9⟩ := c
      have hr := Option.some.inj h
      rw [hr] at c7 c8 c9
      exact ⟨c1, rfl, settled_of c2, c3, c4, ⟨s1, hf, c5, Option.isNone_iff_eq_none.mp c6, hr⟩, settled_of c7, c8, c9⟩
    · cases h
  · cases h

/-- Triad t performs the move m in s, and q holds of the value and the state after the read. -/
def moves (s : State) (t : Nat) (q : Word → State → Bool) : Except Exc Move → Bool
  | .ok m =>
    match performs? s t m with
    | some r => q r.1 r.2
    | none => false
  | .error _ => false

theorem moves_of {s : State} {t : Nat} {q : Word → State → Bool} {e : Except Exc Move} (h : moves s t q e = true) :
    ∃ m v u, e = .ok m ∧ Performs s t m v u ∧ q v u = true := by
  unfold moves at h
  split at h
  · next m =>
    split at h
    · next r hr => exact ⟨m, r.1, r.2, rfl, performs_of hr, h⟩
    · cases h
  · cases h

/-- The triad takes up the move at its PC (`Ready`, as a check). -/
def ready? (s : State) (t : Nat) : Bool :=
  issues s t && settled (getT s t) && (getT s t).run.isNone && !breakHere s t

theorem ready_of {s : State} {t : Nat} (h : ready? s t = true) : Ready s t {} := by
  simp only [ready?, Bool.and_eq_true, Option.isNone_iff_eq_none, Bool.not_eq_true'] at h
  obtain ⟨⟨⟨h1, h2⟩, h3⟩, h4⟩ := h
  exact ⟨h1, rfl, settled_of h2, h3, h4⟩

/-- The frame of the entry for x finds its place, with nothing traced or waiting (the conditions within `Enters`). -/
def enters? (s1 : State) (t : Nat) (x : Exc) : Bool :=
  let u := excSeen s1 t x
  let y := getT u t
  let p := pushFrame t (frameWords y y.pc x.vec) (port y 0xD9 - 64) u
  p.2 && p.1.aud.made.isEmpty && !p.1.aud.acc && settled (getT p.1 t)

/-- Triad 0 is ready, the fetch of m and the read of its source succeed, and q holds of the state after the fetch, the value
and the state after the read. -/
def fetches (s : State) (m : Move) (q : State → Word → State → Bool) : Bool :=
  ready? s 0 && match fetchMove s 0 m.len {} {} with
    | .ok s1 =>
      let r := readSrc s1 0 (srcOf m.op)
      !(getT s1 0).rtiCheck && q s1 r.1 r.2
    | .error _ => false

/-- The access fails, with an exception of vector vec whose frame finds its place from s1. -/
def fails {α : Type} (s1 : State) (vec : Nat) : Except Exc α → Bool
  | .ok _ => false
  | .error x => x.vec == vec && enters? s1 0 x

/-- Any value, any state. -/
def always (_ : Word) (_ : State) : Bool := true

/-- An access succeeds, and q holds of its answer. -/
def okay {α ε : Type} (e : Except ε α) (q : α → Bool) : Bool :=
  match e with
  | .ok a => q a
  | .error _ => false

/-- The state that a command answers, and what q says of it. -/
def after (c : Instr) (s : State) (q : State → Bool) : Bool :=
  match exec c s with
  | .next t => q t
  | _ => false

theorem test_reset_wf : State.reset.wf = true := by decide

/-! ### Ill-formed commands, one for each check -/

theorem test_ill_formed : [Instr.registerWrite 40 (.fabric 0) 0 15, .plainMove 0 (.short 1) {}, .plainMove 0 (.long 0x7FFFFFFF) {},
    .plainMove 0 (.long 0x80000001) {}, .longRoutineStep 0 { late := some 3 }, .scrubRow (.common 0 []) .none false, .immediateMove 0 0x20 true 0, .immediateMove 0 0 true 0x10000,
    .segmentDescriptorWrite 0 0xD8 (.imm 0), .callWithMask 0 0 true 1, .aluAdd 0 (.port 0 1), .aluAdd 0 (.short 24 true),
    .voterEffect 0 3 (.drop 0), .engineCopyMismatch 4 .none, .supervisorAction (some (.resync 0 3)) none none,
    .supervisorRebuild 3 true .none, .linkFlitError 24 false true, .stopIntake 3, .enginePortPush 31 0 [(0, true)],
    .enginePortPush 32 0 [], .enginePortPop 32 0 121 .none, .qcmdInvalid 0 0x10000000, .kernelEdge 9 0, .domainEntry 18 0,
    .serviceUartWord [0], .egressDispatch 3 .none .none].map WellFormed =
    List.replicate 26 false := by decide +kernel

/-! ### Words of moves, written out from the tables of R78 to R82 -/

/-- The routine at 0x0200, the branch and the call of the worked examples of chapter 03. -/
theorem test_decode_examples :
    decodeMove (.long 0xA1212345) = .ok { op := .mv 0x09 (.imm 0x12345) 0, len := 4, enc := 0xA1212345 } ∧
    decodeMove (.short 0x304C) = .ok { op := .mv 0x30 (.port 9) 0, len := 2, enc := 0x304C } ∧
    decodeMove (.short 0x33B8) = .ok { op := .mv 0x40 (.imm 0xFFFFFFFF) 0, len := 2, enc := 0x33B8 } ∧
    decodeMove (.short 0x06C0) = .ok { op := .mv 3 (.port 0x31) 0, len := 2, enc := 0x06C0 } ∧
    decodeMove (.short 0x61C0) = .ok { op := .mv 0x78 (.imm 0) 0, len := 2, enc := 0x61C0 } ∧
    decodeMove (.long 0x90806600) = .ok { op := .mv 0x84 (.port 3) 3, len := 4, enc := 0x90806600 } ∧
    decodeMove (.short 0x08E8) = .ok { op := .mv 4 (.port 0x7A) 0, len := 2, enc := 0x08E8 } ∧
    decodeMove (.long 0xC4FFFFF6) = .ok { op := .branch 2 0xFFFFF6, len := 4, enc := 0xC4FFFFF6 } ∧
    decodeMove (.long 0xF001E080) = .ok { op := .call 0x800F false 0x080, len := 4, enc := 0xF001E080 } :=
  ⟨rfl, rfl, rfl, rfl, rfl, rfl, rfl, rfl, rfl⟩

/-- hi(0x1234) -> g5, and the illegal encodings of R82. -/
theorem test_decode_rules :
    decodeMove (.long 0xA0B01234) = .ok { op := .hi 5 0x1234, len := 4, enc := 0xA0B01234 } ∧
    [Encoding.short 0x0001, .short 0x00C4, .long 0x80001000, .long 0x80000001, .long 0x80000200, .long 0xA4100000,
      .long 0xA0110000, .long 0xC1000000, .long 0xE0001001].map (fun e => decodedOk (decodeMove e)) =
      List.replicate 9 false := by
  constructor
  · rfl
  · decide

/-! ### Moves and units -/

/-- Operands for the arithmetic units, frames and queues, loops, segments; code at 0 of the local store. -/
def worker : Triad := coreOf [(0x30, 5), (0x50, 0x25), (0x51, 0x10000000), (0x52, 0x21), (0x70, 6), (0x71, 7),
  (0x78, 0x120), (0x79, 0x3438), (0x88, 0x100), (0x89, 0x8000), (0x8A, 2), (0xA0, 0x40), (0x1F, 0x7F00), (0xD9, 0x1000)]

def working : State := withCore worker

/-- Triad 0 performs a move to the port with the immediate 4. -/
def performsPort (p : Nat) : Prop := ∃ m v u, moveOf p (.imm 4) = .ok m ∧ Performs working 0 m v u

theorem performsPort_of {p : Nat} (h : moves working 0 always (moveOf p (.imm 4)) = true) : performsPort p :=
  let ⟨m, v, u, e, P, _⟩ := moves_of h
  ⟨m, v, u, e, P⟩

theorem performs_all : ∀ p ∈ [0x40, 0x41, 0x42, 0x43, 0x44, 0x45, 0x46, 0x47, 0x48, 0x49, 0x4A, 0x4B, 0x4C, 0x4D, 0x4E,
    0x60, 0x61, 0x62, 0x63, 0x64, 0x65, 0x66, 0x67, 0x68, 0x69, 0x6A, 0x6B, 0x6C, 0x74, 0x75, 0x76,
    0xA1, 0xAC, 0xAD, 0xC0, 0xD7, 0xDA, 0xE0, 0xE1, 0xE2, 0xE3], performsPort p := by
  have h : ∀ p ∈ [0x40, 0x41, 0x42, 0x43, 0x44, 0x45, 0x46, 0x47, 0x48, 0x49, 0x4A, 0x4B, 0x4C, 0x4D, 0x4E,
      0x60, 0x61, 0x62, 0x63, 0x64, 0x65, 0x66, 0x67, 0x68, 0x69, 0x6A, 0x6B, 0x6C, 0x74, 0x75, 0x76,
      0xA1, 0xAC, 0xAD, 0xC0, 0xD7, 0xDA, 0xE0, 0xE1, 0xE2, 0xE3], moves working 0 always (moveOf p (.imm 4)) = true := by
    decide +kernel
  exact fun p hp => performsPort_of (h p hp)

theorem witness_AluTriggers : ∀ p ∈ [0x40, 0x43, 0x44, 0x48, 0x4C, 0x4D, 0x4E], performsPort p :=
  fun p hp => performs_all p (by revert p; decide)

theorem witness_AluTriggers_mul : ∀ p ∈ [0x74, 0x75, 0x76], performsPort p :=
  fun p hp => performs_all p (by revert p; decide)

theorem witness_DecArithmetic : ∀ p ∈ [0x60, 0x61, 0x62, 0x63, 0x65, 0x66, 0x67, 0x68, 0x69, 0x6C], performsPort p :=
  fun p hp => performs_all p (by revert p; decide)

/-- The move performs, and 5 - 1 = 4 without a carry from alu.nc is a sum of decimal words: 4 = 1 + 3. -/
theorem witness_DecAdjusts : performsPort 0x64 ∧ badWord 1 = false ∧ badWord 3 = false ∧ (4 : Word) = 1 + 3 ∧
    ∀ i, i < 8 → (port worker 0x32).getLsbD i = decide (2 ^ (4 * i + 4) ≤
      (1 : Word).toNat % 2 ^ (4 * i + 4) + (3 : Word).toNat % 2 ^ (4 * i + 4)) :=
  ⟨performs_all _ (by decide), by decide +kernel⟩

theorem witness_DecProducts : decWord 1 ≠ 0 ∧ decWord 1 ≤ decWord 1 ∧ ¬ decWord 1 ≤ decWord 0 := by decide

/-- Triad 0 in the middle of a routine, `y` its record. -/
def within (r : Routine) (v : Word) (y : Triad := worker) : State :=
  withCore { y with run := some { routine := r, value := v, enc := 0, len := 4, resumed := false, pair := false } }

theorem witness_LongDecimals : (∀ p ∈ [0x6A, 0x6B], performsPort p) ∧ decWord 4 ≠ 0 ∧
    let s := within (.dec 0x6A) 0x1375 (beginRoutine worker 0x1375 (.dec 0x6A))
    (∃ r, StepsOn s 0 r {}) ∧ (getT s 0).dec.step < decSteps (getT s 0).dec.trig (getT s 0).dec.a (getT s 0).dec.v :=
  ⟨fun p hp => performs_all p (by revert p; decide), by decide, stepsOn_of (by decide +kernel), by decide +kernel⟩

theorem witness_Loads :
    (∃ m v u, moveOf 0x84 (.imm 4) = .ok m ∧ Performs working 0 m v u ∧
      okay (segLoad u 0 (supervisor (getT u 0)) 0 (segOf m.op).toNat (port (getT u 0) 0x78 + v) 4 {})
        (fun p => p.2.aud = u.aud ∧ settled (getT p.2 0) = true ∧ traced p.2 0 = false) = true) ∧
    okay (segCheck worker true 0 0x1FFFC 4 .load) (fun fa => regionOf fa = .localStore ∧
      poisoned working (memKey 0 fa) = false ∧ traced working 0 = false ∧ (getT working 0).voter.late = none) = true ∧
    okay (segCheck (coreOf [(0xC3, 0x10000000)]) true 3 0x120 2 .load) (fun fa => regionOf fa = .common ∧
      cacheable (getT working 0) 3 fa = false ∧ accessFailed working 0 fa = false ∧
      poisoned working (memKey 0 fa) = false) = true := by
  refine ⟨?_, by decide +kernel, by decide +kernel⟩
  obtain ⟨m, v, u, hm, P, h⟩ := moves_of (s := working) (t := 0) (e := moveOf 0x84 (.imm 4)) (q := fun v u =>
    okay (segLoad u 0 (supervisor (getT u 0)) 0 0 (port (getT u 0) 0x78 + v) 4 {}) (fun p => p.2.aud = u.aud ∧
      settled (getT p.2 0) = true ∧ traced p.2 0 = false)) (by decide +kernel)
  cases hm
  exact ⟨_, v, u, rfl, P, h⟩

/-- Stores to the local store, to a poisoned word of it, and to a register of the supervisor block. -/
theorem witness_Stores :
    moves working 0 (fun v u => okay (segCheck (getT u 0) (supervisor (getT u 0)) 0 (port (getT u 0) 0x78 + v) 4 .store)
      (fun fa => regionOf fa = .localStore)) (moveOf 0x87 (.imm 4)) = true ∧
    moves (setPoison working (lsKey 0 0x124) true) 0 (fun v u =>
      okay (segCheck (getT u 0) (supervisor (getT u 0)) 0 (port (getT u 0) 0x78 + v) 2 .store) (fun fa =>
        regionOf fa = .localStore ∧ poisoned u (memKey 0 fa) = true)) (moveOf 0x86 (.imm 4)) = true ∧
    moves (withCore (coreOf [(0xC0, 0x40080000)])) 0 (fun v u =>
      okay (segCheck (getT u 0) (supervisor (getT u 0)) 0 (port (getT u 0) 0x78 + v) 4 .store) (fun fa =>
        regionOf fa = .device ∧ okay (deviceReach u 0 fa) (fun u1 =>
          (deviceWrite u1 0 fa 0).aud = u.aud ∧ settled (getT (deviceWrite u1 0 fa 0) 0) = true) = true))
      (moveOf 0x87 (.imm 4)) = true := by decide +kernel

/-- The state and the routine of a gather once triad 0 has performed its trigger p. -/
def gathering (p : Nat) : Option (State × Running × State) :=
  match moveOf p (.imm 4) with
  | .ok m =>
    (performs? working 0 m).map (fun q =>
      let r : Running := { routine := .gth (BitVec.ofNat 8 p) 0, value := q.1, enc := m.enc, len := m.len, resumed := false,
                           pair := pairNow working 0 (.ok m) m.len }
      (q.2, r, setT q.2 0 { beginRoutine (getT q.2 0) q.1 r.routine with run := some r, pairA := none }))
  | .error _ => none

theorem witness_Gathers :
    (∀ p ∈ [0x8C, 0x8D], (gathering p).any (fun q =>
      decide (0 < min (port (getT q.1 0) 0x8A).toNat 16) && !poisoned q.1 (lsKey 0 0x8000) &&
      okay (segLoad q.2.2 0 (supervisor (getT q.1 0)) 2 0
        (0x100 + BitVec.ofNat 32 (4 * leNat (getBytes q.1 (lsKey 0 0x8000) 2))) 4 {}) (fun e => e.2.aud = q.1.aud ∧
        settled (getT e.2 0) = true ∧ (getT e.2 0).gth = (beginRoutine (getT q.1 0) q.2.1.value q.2.1.routine).gth ∧
        (port (getT e.2 0) 0x8B).toNat = 0)) = true) ∧
    (∀ p ∈ [0x8C, 0x8D], moves (withCore (coreOf [])) 0 (fun _ u => min (port (getT u 0) 0x8A).toNat 16 = 0)
      (moveOf p (.imm 4)) = true) ∧
    let s := within (.gth 0x8C 0) 0 (beginRoutine worker 0 (.gth 0x8C 0))
    let x := getT s 0
    stepsOn s 0 = true ∧ (port x 0x8B).toNat = 0 ∧ min x.gth.n.toNat 16 = 2 ∧ poisoned s (lsKey 0 0x8000) = false ∧
      meetWord s 0 (lsKey 0 0x8000) {} = s ∧
      okay (segLoad s 0 (supervisor x) 2 0 (x.gth.base + BitVec.ofNat 32 (4 * leNat (getBytes s (lsKey 0 0x8000) 2))) 4 {})
        (fun p => p.2.aud = s.aud ∧ settled (getT p.2 0) = true ∧ (getT p.2 0).gth = x.gth ∧
          (port (getT p.2 0) 0x8B).toNat = 0) = true := by
  decide +kernel

theorem witness_Branches : moves working 0 always (decodeMove (.long (encBranch 2 0xFFFFF6))) = true ∧
    (∀ p ∈ [0xA1, 0xA2], moves working 0 (fun v u => v.getLsbD 0 = false ∧ ((getT u 0).pc + 4).toNat < 0x20000 ∧
      okay (segStore u 0 (supervisor (getT u 0)) 2 (port (getT u 0) 0x1F - 4) 4
        (BitVec.ofNat 32 (((getT u 0).pc + 4).toNat / 2))) (fun u1 => u1.aud = u.aud ∧
        settled (getT u1 0) = true) = true) (moveOf p (.imm 4)) = true) := by
  decide +kernel

/-- The start of a call that saves g16 to g19 and g31, and its steps after the first. -/
theorem witness_MaskedCalls :
    moves working 0 (fun _ u =>
      let x := getT u 0
      decide (((x.pc + 2 * (0x080 : BitVec 12).signExtend 32).getLsbD 0 = false) ∧ (x.pc + 4).toNat < 0x20000) &&
      let r : Running := { routine := .call 0x800F false 0x080 0, value := 0, enc := 0xF001E080, len := 4, resumed := false,
                           pair := false }
      okay (segStore (setT u 0 { x with run := some r, pairA := none }) 0 (supervisor x) 2 (port x 0x1F - 24) 4
        (BitVec.ofNat 32 (0x800F * 2 ^ 16 + (x.pc + 4).toNat / 2 % 2 ^ 16))) (fun s1 => s1.aud = u.aud ∧
          settled (getT s1 0) = true)) (decodeMove (.long (encCall 0x800F false 0x080))) = true ∧
    ∀ k ∈ [1, 5], let s := within (.call 0x800F false 0x080 k) 0
      stepsOn s 0 = true ∧ k ≤ (maskRegs 0x800F).length ∧
      okay (segStore s 0 (supervisor (getT s 0)) 2 (port (getT s 0) 0x1F + BitVec.ofNat 32 (4 * k)) 4
        (if k = 5 then port (getT s 0) 0x1F + 24 else 0)) (fun s1 => s1.aud = s.aud ∧ settled (getT s1 0) = true) = true := by
  decide +kernel

theorem witness_ReturnMoves :
    moves (putWord working (lsKey 0 0x7F00) 0x800F0182) 0 (fun _ u =>
      okay (segLoad u 0 (supervisor (getT u 0)) 1 2 (port (getT u 0) 0x1F) 4 {}) (fun p =>
        okay (popAll p.2 0 (supervisor (getT u 0)) 1 2 {} (maskRegs (BitVec.ofNat 16 (p.1.toNat / 2 ^ 16))).length 1
            (port (getT u 0) 0x1F + 4))
          (fun q => q.2.aud = u.aud ∧ q.1.length = 5 ∧ settled (getT q.2 0) = true))) (moveOf 0xA3 (.imm 4)) = true ∧
    moves working 0 (fun _ u => okay (popAll u 0 true 0 7 {} 16 0 (port (getT u 0) 0xD9)) (fun p => p.2.aud = u.aud ∧
      settled (getT p.2 0) = true)) (moveOf 0xA4 (.imm 4)) = true := by decide +kernel

/-- lp.go with a count of 0, with an end at the body's start, and with one after it; and the loop-back's cases. -/
theorem witness_LoopMoves :
    moves working 0 (fun w u => (getT u 0).loops.length < 4 ∧ w.getLsbD 0 = false ∧ (getT u 0).lcnt = 0)
      (moveOf 0xAC (.imm 4)) = true ∧
    moves (withCore { worker with lcnt := 3 }) 0 (fun w u => (getT u 0).lcnt ≠ 0 ∧ w.toNat ≤ ((getT u 0).pc + 4).toNat)
      (moveOf 0xAC (.imm 4)) = true ∧
    moves (withCore { worker with lcnt := 3 }) 0 (fun w u => (getT u 0).lcnt ≠ 0 ∧ ((getT u 0).pc + 4).toNat < w.toNat)
      (moveOf 0xAC (.imm 6)) = true ∧
    moves working 0 always (moveOf 0xAD (.imm 4)) = true ∧
    loopBack [{ start := 4, stop := 8, count := 2 }] 8 = ([{ start := 4, stop := 8, count := 1 }], 4) ∧
    loopBack [{ start := 4, stop := 8, count := 1 }] 8 = ([], 8) := by decide +kernel

theorem witness_PlainMoves :
    (∀ e ∈ [Encoding.short (encShort 3 56 false), .short (encShort 0x18 0 true), .long (encPort 0xA8 0x30 0),
      .long (encImm 0x51 false 4), .long (encImm 31 true 0xFFFF)], moves working 0 always (decodeMove e) = true) ∧
    (∀ d ∈ [3, 0x30, 0x51], portKind d = some .rw) ∧ (shortDstCode 0x40).isSome = true := by decide +kernel

theorem witness_ModeAndSegmentWrites : (∀ p ∈ [0xDA, 0xC0, 0xD7], performsPort p) ∧
    moves (withCore (coreOf [(0xD0, 0x107)])) 0 (fun _ u => port (getT u 0) 0xD0 &&& 0x100 ≠ 0)
      (moveOf 0xC8 (.imm 4)) = true := by
  refine ⟨fun p hp => performs_all p (by revert p; decide), by decide +kernel⟩

theorem witness_UnitControl : (∀ p ∈ [0xE1, 0xE2, 0xE3], performsPort p) ∧
    ∀ p ∈ [0xE4, 0xE5], moves working 0 (fun v u => v.toNat % 2 ^ 17 % 4 = 0 ∧
      ∀ i, i < (unitImage (getT u 0) (v.toNat / 2 ^ 28)).length →
        poisoned u (lsKey 0 (v.toNat % 2 ^ 17 + 4 * i)) = false) (moveOf p (.imm 4)) = true := by
  refine ⟨fun p hp => performs_all p (by revert p; decide), by decide +kernel⟩

/-- A fetch beyond the limit of s6, an illegal encoding, an illegal port, a zero divisor, a fifth level, odd ends and targets,
misaligned images, a load and a store beyond the limit of s0: triad 0 takes up the move and its frame finds its place. -/
theorem witness_Traps_entries :
    (let s := withCore (coreOf [(0xD9, 0x1000), (0xCE, 0)]);
      ready? s 0 = true ∧ (getT s 0).entered = false ∧
        (match fetchMove s 0 4 {} {} with | .error x => x.vec == 2 && enters? s 0 (fetchExc (getT s 0) x) | .ok _ => false) = true) ∧
    (∃ x, decodeMove (.long 0x80000001) = .error x ∧ ready? working 0 = true ∧
      okay (fetchMove working 0 4 {} {}) (fun s1 => enters? s1 0 x) = true) ∧
    okay (decodeMove (.long (encPort 0xFF 0 0))) (fun m => fetches working m (fun s1 _ _ =>
      portExc true m.op = some { vec := 1, sub := 0, fadr := 0xFF } ∧ enters? s1 0 { vec := 1, sub := 0, fadr := 0xFF } = true)) = true ∧
    (∀ p ∈ [(0x6B, (0 : BitVec 20), ({ vec := 10 } : Exc)), (0xAC, 5, { vec := 4, fadr := 5, fetch := true }),
        (0xA1, 5, { vec := 4, fadr := 5, fetch := true }), (0xA2, 5, { vec := 4, fadr := 5, fetch := true }),
        (0xE4, 2, { vec := 4, fadr := 2 }), (0xE5, 2, { vec := 4, fadr := 2 })],
      okay (moveOf p.1 (.imm p.2.1)) (fun m => fetches working m (fun s1 v u => portExc true m.op = none ∧
        (decWord v = 0 ∨ v.getLsbD 0 = true ∨ v.toNat % 4 ≠ 0) ∧ (getT u 0).loops.length < 4 ∧ enters? s1 0 p.2.2 = true)) = true) ∧
    okay (moveOf 0xAC (.imm 4)) (fun m => fetches (withCore { worker with loops := List.replicate 4 { start := 0, stop := 8, count := 1 } }) m
      (fun s1 _ u => 4 ≤ (getT u 0).loops.length ∧ enters? s1 0 { vec := 9 } = true)) = true ∧
    (let s := withCore (coreOf [(0xD9, 0x1000), (0xC8, 0)]);
      okay (moveOf 0x84 (.imm 4)) (fun m => fetches s m (fun s1 v u =>
        fails s1 2 (segLoad u 0 true 0 (segOf m.op).toNat (port (getT u 0) 0x78 + v) 4 {}))) = true ∧
      okay (moveOf 0x87 (.imm 4)) (fun m => fetches s m (fun s1 v u =>
        fails s1 2 (segStore u 0 true (segOf m.op).toNat (port (getT u 0) 0x78 + v) 4 0))) = true) := by
  refine ⟨by decide +kernel, ⟨_, rfl, by decide +kernel, by decide +kernel⟩, ?_⟩
  decide +kernel

/-- Ports of each kind and mode; a frame in the local store within s7, two levels of loops. -/
theorem witness_Traps_frames : portKind 0xFF = none ∧ portKind 0x40 = some .t ∧ portKind 0x31 = some .r ∧
    portKind 0 = some .rw ∧ portMode 0 = .any ∧ portMode 0xD9 = .s ∧ portKind 0xD9 = some .rw ∧
    let x := { worker with loops := List.replicate 2 { start := 4, stop := 8, count := 3 } }
    x.loops.length ≤ 4 ∧ (port x 0xC7 + (port x 0xD9 - 64)).toNat = 0xFC0 ∧ 0xFC0 + 64 ≤ 0x20000 ∧
      (port x 0xD9 - 64).toNat + 64 ≤ (port x 0xCF).toNat ∧ (port x 0xD7).getLsbD 1 = true := by decide +kernel

theorem witness_Traps : ∃ m v u, moveOf 0xE6 (.imm 4) = .ok m ∧ Performs working 0 m v u ∧
    let r := retire u 0 (getT u 0) m v (nextPc u 0 m) (pairNow working 0 (.ok m) m.len) false
    let y := getT r 0
    let p := pushFrame 0 (frameWords y y.pc 11) (port y 0xD9 - 64) r
    p.2 = true ∧ p.1.aud = u.aud ∧ Settled (getT p.1 0) := by
  obtain ⟨m, v, u, hm, P, h⟩ := moves_of (s := working) (t := 0) (e := moveOf 0xE6 (.imm 4)) (q := fun v u =>
    let m : Move := { op := .mv 0xE6 (.imm 4) 0, len := 4, enc := encImm 0xE6 false 4 }
    let r := retire u 0 (getT u 0) m v (nextPc u 0 m) (pairNow working 0 (.ok m) m.len) false
    let y := getT r 0
    let p := pushFrame 0 (frameWords y y.pc 11) (port y 0xD9 - 64) r
    decide (p.2 = true ∧ p.1.aud = u.aud ∧ settled (getT p.1 0) = true)) (by decide +kernel)
  cases hm
  obtain ⟨h1, h2, h3⟩ := of_decide_eq_true h
  exact ⟨_, v, u, rfl, P, h1, h2, settled_of h3⟩

/-! ### Values of the spec's worked examples -/

/-- Chapter 04: alu.a = 0x7FFF_FFFF, then 1 to alu.add. -/
theorem test_alu_add : after (.aluAdd 0 (.imm 1)) (withCore (coreOf [(0x30, 0x7FFFFFFF)])) (fun t =>
    let x := getT t 0
    port x 0x31 = 0x80000000 ∧ port x 0x32 = 0x7F ∧ port x 0x20 = 0xA ∧ x.pc = 4) = true := by decide +kernel

/-- Chapter 04: alu.a = 5 and 7 written to alu.sub leaves a borrow and N. -/
theorem test_alu_sub : after (.aluSub 0 (.imm 7)) (withCore (coreOf [(0x30, 5)])) (fun t =>
    port (getT t 0) 0x31 = 0xFFFFFFFE ∧ port (getT t 0) 0x20 = 2) = true := by decide +kernel

/-- Chapter 04: low and high words of 1,9999,9999 + 1. -/
theorem test_dec_add : after (.decAdd 0 (.imm 1)) (withCore (coreOf [(0x50, 0x99999999)])) (fun t =>
    port (getT t 0) 0x53 = 0 ∧ port (getT t 0) 0x20 = 0x10) = true ∧
    after (.decAdc 0 (.imm 0)) (withCore (coreOf [(0x50, 1), (0x20, 0x10)])) (fun t =>
      port (getT t 0) 0x53 = 2 ∧ port (getT t 0) 0x20 = 0) = true := by decide +kernel

/-- Chapter 04: 0x0958 + 0x0067 in binary is 0x09BF; dec.adj makes 0x1025 of it. -/
theorem test_dec_adj : after (.decAdj 0 (.imm 0x9BF)) (withCore (coreOf [])) (fun t =>
    port (getT t 0) 0x53 = 0x1025 ∧ port (getT t 0) 0x20 = 0) = true := by decide +kernel

/-- Chapter 04: 0x250 × 0x1375 after 4 and 8 steps, and 0x0034_3750 rounded half-even by two places. -/
theorem test_dec_mulw :
    let run (n : Nat) := (List.range n).foldl (fun st k => mulwStep (k + 1) 0x250 0x1375 st)
      { r := 0, rh := 0, q := 0, rm := 0, bin := 0, d := none }
    (run 4).r = 0x18750 ∧ (run 8).r = 0x343750 ∧ (run 8).rh = 0 ∧ (run 8).d = some false ∧ decSteps 0x6A 0x250 0x1375 = 8 ∧
    after (.decRound 0 (.port 1 0)) (withCore (coreOf [(1, 0x343750), (0x52, 0x21)])) (fun t =>
      port (getT t 0) 0x53 = 0x3438) = true := by decide +kernel

/-- Chapter 04: 10,000,000 hundredths divided three ways, after 22 and 40 steps. -/
theorem test_dec_divw :
    let run (n : Nat) := (List.range n).foldl (fun st k => divwStep (k + 1) 0 0x10000000 3 st)
      { r := 0, rh := 0, q := 0, rm := 0, bin := 0, d := none }
    (run 22).q = 0x03330000 ∧ (run 22).rm = 1 ∧ (run 40).q = 0x03333333 ∧ (run 40).rm = 1 ∧ (run 40).d = some false ∧
      decSteps 0x6B 5 5 = 1 := by decide +kernel

/-- mul.muls of -1 and 1: the product is -1. -/
theorem test_mul_muls : after (.mulMuls 0 (.imm 0)) (withCore (coreOf [(0x70, 0xFFFFFFFF), (0x71, 1)])) (fun t =>
    port (getT t 0) 0x72 = 0xFFFFFFFF ∧ port (getT t 0) 0x73 = 0xFFFFFFFF) = true := by decide +kernel

/-- Chapter 05: 0x3438 at offset 0x120, its bytes, and the byte at 0x121 loaded with its sign. -/
theorem test_lsu : after (.lsuStw 0 (.imm 0x20)) (withCore (coreOf [(0x78, 0x100), (0x79, 0x3438)])) (fun t =>
      getBytes t (lsKey 0 0x120) 4 = [0x38, 0x34, 0, 0]) = true ∧
    after (.lsuLdb 0 (.imm 0x21) {}) (putWord (withCore (coreOf [(0x78, 0x100)])) (lsKey 0 0x120) 0x3438) (fun t =>
      port (getT t 0) 0x7A = 0x34) = true := by decide +kernel

/-- Chapter 03: the branch at 0x0240 back to 0x022C when Z = 0, and not when Z = 1. -/
theorem test_branch :
    after (.conditionalBranch 0 2 0xFFFFF6) (withCore { coreOf [] with pc := 0x240 }) (fun t => (getT t 0).pc = 0x22C) = true ∧
    after (.conditionalBranch 0 2 0xFFFFF6) (withCore { coreOf [(0x20, 1)] with pc := 0x240 })
      (fun t => (getT t 0).pc = 0x244) = true := by decide +kernel

/-- Chapter 06: the first and the last step of the call at 0x0300 that saves g16 to g19 and g31. -/
theorem test_call :
    let r (k : Nat) (g31 : Word) := withCore { coreOf [(16, 0x11), (0x1F, g31)] with
      pc := 0x300, run := some { routine := .call 0x800F false 0x080 k, value := 0, enc := 0xF001E080, len := 4,
                                 resumed := false, pair := false } }
    after (.longRoutineStep 0 {}) (r 0 0x7F00) (fun t =>
      getWord t (lsKey 0 0x7EE8) = 0x800F0182 ∧ port (getT t 0) 0x1F = 0x7EE8 ∧ (getT t 0).pc = 0x300) = true ∧
    after (.longRoutineStep 0 {}) (r 5 0x7EE8) (fun t =>
      getWord t (lsKey 0 0x7EFC) = 0x7F00 ∧ port (getT t 0) 0x1F = 0x7EE8 ∧ (getT t 0).pc = 0x400) = true := by decide +kernel

/-- Chapter 11: the low word of the token of transaction 0x0001_86A1. Chapter 12: the words of -1,250. -/
theorem test_token_and_tally : tokenLow { tid := 0x186A1, stage := 5, rewound := true, epoch := 1, next := 5 } 0x86A1 = 0x051186A1 ∧
    tallyWords (-1250) = [0x99998750, 0x99999999, 0x99999999, 0x99999999] := by decide +kernel

/-- Chapter 13: bytes 32 to 63 of the digest's input for the example record, and its slot. -/
theorem test_record : (recordBytes 0x989680 0x0000713FB3008000 { type := 1, source := 0x0102, payload := List.replicate 48 0 }).take 32 =
    [0x80, 0x96, 0x98, 0, 0, 0, 0, 0, 0, 0x80, 0, 0xB3, 0x3F, 0x71, 0, 0, 1, 0, 0x30, 0, 2, 1, 0, 0, 0, 0, 0, 0, 0, 0, 0, 0] ∧
    slotAddr 0x4A21 = 0x30251080 := by decide +kernel

/-- SHA-256 of "abc" (FIPS 180-4) and the CMAC with AES-256 of the empty message (NIST SP 800-38B). -/
theorem test_hashes : beNat (sha256 [0x61, 0x62, 0x63]) = 0xBA7816BF8F01CFEA414140DE5DAE2223B00361A396177A9CB410FF61F20015AD ∧
    beNat (cmac (beBytes 32 0x603DEB1015CA71BE2B73AEF0857D77811F352C073B6108D72D9810A30914DFF4) []) =
      0x028962F61B7BF89EFC6B551F4667D983 := by decide +kernel

/-- The check values of CRC-32 and of the serial line's FCS over the digits 1 to 9. -/
theorem test_checks : crc32 ((List.range 9).map (fun i => BitVec.ofNat 8 (0x31 + i))) = 0xCBF43926 ∧
    fcs16 ((List.range 9).map (fun i => BitVec.ofNat 8 (0x31 + i))) = 0x906E := by decide +kernel

/-- Chapter 09: a burst torn after five beats at bank 2. -/
theorem test_torn_burst : after (.commonStoreAccess 37 0x10032000 (.torn (List.replicate 128 0x01010101) 5)) State.reset (fun t =>
    getByte t 0x1003209F = 1 ∧ getByte t 0x100320A0 = 0 ∧ getF t (CS_BANK 2) CS_BANK_TORN = 1 ∧
      getF t LAT_TORN LAT_TORN_SRC = 37 ∧ getF t LAT_TORN LAT_TORN_TGT = 2) = true := by decide +kernel

/-- Chapter 15: MBOX, shared source 96 with priority 2, is claimed as 0x2080. -/
theorem test_claim : (claim (setBank State.reset 20 { resv := some (0x80, 2) }) 20).1 = 0x2080 := by decide +kernel

/-- Chapter 16: P = 156 and F = 64 give D = 40,000. -/
theorem test_divisor : divisor { psc := 0x40009B } = 40000 := by decide

/-- Chapter 17: the RTC's roll-over, and the sequence that MON_SEQ = 0x0060_0001 names. -/
theorem test_rtc_and_monitor :
    after .slckEdge { State.reset with rtc := { sec := 0x713FB2FF, sub := 32767 } }
      (fun t => t.rtc.sec = 0x713FB300 ∧ t.rtc.sub = 0) = true ∧
    after .monStart (setReg (setReg State.reset CLK_EN 0x3FFFF) MON_SEQ 0x00600001) (fun t => t.mon.left = [0, 21, 22]) = true := by
  decide +kernel

/-- Chapter 21: the first words pushed of the example wager. -/
theorem test_datagram_words : packBytes [0x53, 0x42, 0x57, 0x44, 1, 0, 1, 0, 0xC1, 0xA5, 3, 0, 0x57, 4, 0, 0, 0x60, 0, 0, 0] =
    [0x44574253, 0x00010001, 0x0003A5C1, 0x457, 0x60] := by decide

/-! ### Queues -/

/-- Every domain's clock enabled; a queue of ten words that ends in EOP where asked. -/
def clocked? : State := setReg State.reset CLK_EN 0x3FFFF

/-- The queue q with the words pushed, EOP on the last. -/
def withPacket (s : State) (q : Nat) (ws : List Word) : State := pushPacket s (masterRouter 33) q ws

/-- Master m's access to the register at a reaches its block. -/
def reaches? (s : State) (m a : Nat) : Bool :=
  okay (deviceReach s m a) (fun _ => true) && (m != 36 || hostReady s && s.lat.fences == 0)

theorem reaches_of {s : State} {m a : Nat} (h : reaches? s m a = true) : ∃ u, Reaches s m a u := by
  unfold reaches? at h
  obtain ⟨h1, h2⟩ := Bool.and_eq_true_iff.mp h
  unfold okay at h1
  split at h1
  · next u hu =>
    refine ⟨u, fun hm => ?_, hu⟩
    subst hm
    simpa using h2
  · cases h1

/-- The access reaches, and q holds of the state where it does. -/
def reachesWith (s : State) (m a : Nat) (q : State → Bool) : Bool := okay (deviceReach s m a) q && reaches? s m a

/-- The dispatch queue 0xF_F000 in each mode, with room, without room, and with room for one word; a sound head word and one
whose parity fails. -/
theorem witness_QueueModes :
    let q := 0xFF000
    let at_ (m : QMode) := setQ clocked? q { mode := m }
    let full := setReg clocked? (QE_CQUOTA 64) 0
    let one := setReg (at_ .pend) (QE_CQUOTA 64) 1
    q ≠ 0xFFFFF ∧ (getQ clocked? q).mode = .normal ∧ 0 < room clocked? q 64 ∧ room full q 64 = 0 ∧
    (∀ m ∈ [QMode.gap, .pend, .disc, .broken], (getQ (at_ m) q).mode = m) ∧ 2 ≤ room (at_ .pend) q 64 ∧
    room one q 64 = 1 ∧
    let s := withPacket clocked? q [5, 6]
    let w := slotGet s (getQ s q).head (getQ s q).rslot
    tget (fun _ => false) s.qe.badDescs q = false ∧ 0 < (getQ s q).words ∧ parityBits 34 w.toNat = w.getLsbD 34 ∧ qClass s q = some 64 ∧
      (let f := BitVec.ofNat 36 (headSlot s q (.parity 0 3) 0); parityBits 34 f.toNat ≠ f.getLsbD 34) ∧
      tget (fun _ => false) s.qe.badLinks (getQ s q).head = false ∧ (getQ clocked? q).words = 0 := by decide +kernel

theorem witness_QueueMoves :
    (∀ p ∈ [0xB8, 0xB9, 0xBA, 0xBB], moves (withCore (coreOf [(0xB0, 0x0FFF00)])) 0 (fun _ u => accessFailed u 0 0x41000000 = false ∧
      domState u 2 ≠ 2 ∧ traced (checkDesc (heldAccess u 2) 0xFFF00 65 .none) 0 = false ∧
      qClass (heldAccess u 2) 0xFFF00 = some 65 ∧ triadAccess 0xFFF00 0 = .any ∧
      traced (popCore (heldAccess u 2) 0xFFF00 65 .none).2.2 0 = false) (moveOf p (.imm 4)) = true) ∧
    triadAccess 0xFF010 0 = .push ∧ triadAccess 0xFF000 0 = .pop := by decide +kernel

/-- A port with an empty, a broken and a filled queue; an armed queue that holds a word. -/
theorem witness_EnginePort : safeHalt clocked? = false ∧ qeRoute clocked? (masterRouter 33) = true ∧ domState clocked? 2 ≠ 2 ∧
    (∀ s ∈ [clocked?, setQ clocked? 0xFF000 { mode := .broken }, withPacket clocked? 0xFF000 [5, 6]],
      qClass (heldAccess s 2) 0xFF000 = some 64 ∧ safeHalt s = false ∧ qeRoute s (masterRouter 33) = true ∧ domState s 2 ≠ 2) ∧
    (getQ (checkDesc clocked? 0xFF000 64 .none) 0xFF000).words = 0 ∧
    (getQ (withPacket clocked? 0xFF000 [5, 6]) 0xFF000).words = 2 ∧
    let s := setQ clocked? 0xFF000 { armed := true, words := 1 }
    qClass s 0xFF000 = some 64 ∧ domOn s 2 = true ∧ safeHalt s = false ∧ (getQ s 0xFF000).armed = true ∧
      (getQ s 0xFF000).mode = .normal ∧ (getQ s 0xFF000).words ≠ 0 ∧ tget (fun _ => false) s.qe.badDescs 0xFF000 = false := by
  decide +kernel

theorem witness_QueueCommands : reachesWith clocked? 0 QE_QCMD (fun u => qClass u 0xFF000 = some 64 ∧ qClass u 5 = none) = true ∧
    reachesWith (upsetDesc clocked? 0xFF000 .descriptor) 0 QE_QCMD (fun u => qClass u 0xFF000 = some 64) = true ∧
    (0x30000000 : Word).toNat / 2 ^ 28 ≠ 1 ∧ (0x30000000 : Word).toNat / 2 ^ 28 ≠ 2 := by decide +kernel

/-! ### Registers, voters, supervisors, interrupts -/

/-- A served host function with its link up and Memory Space Enable. -/
def hosted (s : State) : State :=
  let s := withF s [(HB_LINK, HB_LINK_UP, 1), (HB_LINK, HB_LINK_DSTATE, 0)]
  { s with hostFn := { s.hostFn with served := true, memEn := true } }

/-- A field of each access type. -/
theorem witness_FieldTypes : (∀ p ∈ [(SUP_FLOGSEL, SUP_FLOGSEL_INDEX), (CLK_EN, CLK_EN_EN), (PD_STATUS 0, PD_STATUS_STATE)],
    ((regRow? p.1).any (fun r => r.flds.contains p.2)) = true) ∧
    SUP_FLOGSEL_INDEX.ty = .rw ∧ CLK_EN_EN.ty = .lk ∧ PD_STATUS_STATE.ty = .ro ∧
    (regRows.any (fun r => r.flds.any (fun f => f.ty = .w1c))) = true ∧ (regRows.any (fun r => r.flds.any (fun f => f.ty = .w1s))) = true ∧
    (regRows.any (fun r => r.flds.any (fun f => f.ty = .wo))) = true ∧ (regRows.any (fun r => r.flds.any (fun f => f.ty = .rc))) = true := by
  decide +kernel

theorem witness_RegisterAccesses : regionOf 0x40080000 = .device ∧ reaches? clocked? 0 0x40080000 = true ∧
    regRow? 0x4008FFFC = none ∧ reaches? (hosted clocked?) 36 0x40080000 = true ∧
    hostReady (hosted clocked?) = true ∧ (hosted clocked?).lat.fences = 0 ∧ regionOf 0x60000000 = .hole := by decide +kernel

/-- Triad 0 of three live cores, the voter's contents by position. -/
def voting (v : Voter) : State := withCore { coreOf [] with voter := v }

/-- Each branch of the voter: a read of p waits, p owes, p's item joins its stream, an effect and a read meet their second copy,
with the third position silent or unlike; the read buffer full. -/
theorem witness_Voters :
    let p0 : Voter := { waiting := [(0, [.rd .claim])] }
    let oweEff : Voter := { owed := [{ pos := 0, item := .eff (.drop 5) }] }
    let oweRead : Voter := { owed := [{ pos := 0, item := .rd .claim, res := some {} }] }
    let eff : Voter := { waiting := [(1, [.eff (.drop 5)])] }
    let unlike : Voter := { waiting := [(1, [.eff (.drop 5)]), (2, [.eff (.drop 6)])] }
    let read : Voter := { waiting := [(1, [.rd .claim])] }
    let full : Voter := { waiting := [(1, [.rd .claim])],
                          owed := List.replicate 32 { pos := 2, item := .rd .claim, res := some {} } }
    (∀ v ∈ [p0, oweEff, oweRead, {}, eff, unlike, read, full], presents (voting v) 0 0 = true ∧ livePositions (voting v) 0 = [0, 1, 2]) ∧
    (streamOf p0 0).any isRead = true ∧
    (∀ v ∈ [oweEff, oweRead], streamOf v 0 = [] ∧ streamOf v 2 = [] ∧ (owedTo v 0).isSome = true) ∧
    (∀ v ∈ [({} : Voter), eff, unlike, read, full], streamOf v 0 = [] ∧ owedTo v 0 = none) ∧
    (∀ v ∈ [eff, unlike], streamOf v 1 = [.eff (.drop 5)] ∧
      let w := setStream (setStream v 0 []) 1 []
      (getT (effAct (setVoter (voting v) 0 w) 0 (.drop 5)) 0).voter = w) ∧
    streamOf eff 2 = [] ∧ streamOf unlike 2 = [.eff (.drop 6)] ∧
    (∀ v ∈ [read, full], streamOf v 1 = [.rd .claim] ∧ streamOf v 2 = []) ∧ held read < 32 ∧ 32 ≤ held full ∧
    (let w := setStream (setStream read 0 []) 1 []
     let a := readAct (setVoter (voting read) 0 w) 0 .claim
     (getT (deliver (deliver a.2 0 0 a.1) 0 1 a.1) 0).voter = w) ∧
    let s := withCore { coreOf [] with rcount := 64 }
    triadLive s 0 = true ∧ (getT s 0).rcount ≠ 0 ∧ (getT s 0).rcount.toNat % 64 = 0 ∧ livePositions s 0 = [0, 1, 2] := by
  decide +kernel

/-- Position 1 trails: for the first time, and soon after a resync with the reserve at hand; a rebuild of it under way. -/
theorem witness_DivergenceAndRebuild :
    let x : Triad := { coreOf [] with pos1 := { behind := 3 } }
    let s := withCore x
    let r := withF s [(SUP_CLUSTER 0, SUP_CLUSTER_RSVEN, 1), (SUP_CLUSTER 0, SUP_CLUSTER_RSVAVAIL, 1), (SUP_REPEAT, SUP_REPEAT_MS, 100)]
    let again := setT r 0 { x with pos1 := { behind := 3, resyncEnd := some 0 } }
    (∀ x ∈ [s, again], (getT x 0).voter.waiting = [] ∧ (∀ j, j < 4 → (getT x j).rebuild = none) ∧
      livePositions x 0 = [0, 1, 2] ∧ domOn x 4 = true ∧ (getT x 0).halted = false ∧ (getT x 0).waiting = false ∧
      triadMode x 0 = 1 ∧ flag x (SUP_TRIAD 0) SUP_TRIAD_PAUSED = false ∧ trails x 0 1 = true ∧ safeHalt x = false ∧
      (∀ i, i < 3 → supState x i = 0)) ∧
    repeats s 0 1 = false ∧ repeats again 0 1 = true ∧ swapPossible again 0 = true ∧
    ∀ swap ∈ [true, false], let b : Rebuild := { pos := 1, swap := swap, core := 4 }
      let y := withF (withCore { coreOf [] with pos1 := { masked := true }, rebuild := some b })
        [(SUP_TRIAD 0, SUP_TRIAD_PAUSED, 1), (SUP_TRIAD 0, SUP_TRIAD_DUPLEXOK, 1)]
      (getT y 0).voter.waiting = [] ∧ (∀ j, j < 4 → j ≠ 0 → (getT y j).rebuild = none) ∧
      flag y (SUP_TRIAD 0) SUP_TRIAD_PAUSED = true ∧ (getT y 0).point = none ∧ (getT y 0).rebuild = some b ∧
        b.source ≠ b.pos ∧ b.source < 3 ∧ b.again = false ∧ flag y (SUP_TRIAD 0) SUP_TRIAD_DUPLEXOK = true := by decide +kernel

theorem witness_SupervisorsAndCopies : safeHalt State.reset = false ∧ (∀ i, i < 3 → supState State.reset i = 0) ∧
    SupAct.stop 1 ≠ .stop 2 ∧ supState (setF State.reset SUP_STATUS (supFld 2) 1) 2 = 1 := by decide +kernel

/-- Private source 16 pending for triad 0 at priority 0. -/
def due : State := setBank working 0 { en := 0x10000, pend := 0x10000, pri := 0xFFFFFFFFFFFFFFF0FFFFFFFFFFFFFFFF }

/-- An entry to be agreed, one that gives way to a better source, one made in ctl.wait; a source that waits for its new N. -/
theorem witness_InterruptEntries :
    let x := getT due 0
    let agreed := setT due 0 { x with point := some (64, 3), due := true }
    let idle := setT due 0 { x with waiting := true }
    let put := setT (reserve due 0 16) 0 { x with due := true }
    (∀ s ∈ [due, agreed, idle], acceptsInterrupt s 0 = true ∧ presented s 0 = some 16) ∧
    (getT due 0).point = none ∧ (getT due 0).waiting = false ∧ (getT agreed 0).point = some (64, 3) ∧
    (getT idle 0).point = none ∧ (getT idle 0).waiting = true ∧ traced idle 0 = false ∧ idle.aud.made = [] ∧
    (let z := suspend { getT idle 0 with point := some ((getT idle 0).rcount, srcPrio idle 0 16), due := true }
     let p := pushFrame 0 (frameWords z z.pc (16 + srcPrio idle 0 16)) (port z 0xD9 - 64) (setT (reserve idle 0 16) 0 z)
     p.2 = true ∧ p.1.aud.made = []) ∧
    acceptsInterrupt put 0 = true ∧ presented put 0 = none ∧ reservedPrio put 0 = some 0 ∧ (getT put 0).due = true ∧
      (getT put 0).point = none ∧ (getT put 0).waiting = false := by decide +kernel

/-- A reserved source, a presented one and none; ctl.claim -> g3; ctl.eoi with an active source and an empty stack. -/
theorem witness_Claims : presented due 0 = some 16 ∧ presented working 0 = none ∧
    (getBank (reserve due 0 16) 0).resv = some (16, 0) ∧
    moves due 0 always (decodeMove (.long (encPort 3 0xDE 0))) = true ∧ portKind 3 = some .rw ∧
    moves working 0 (fun v u => (getBank u 0).stack = [] ∧ isActive u 0 (v.toNat % 1024) = false) (moveOf 0xE0 (.imm 16)) = true ∧
    moves (takeClaim due 0 16 0) 0 (fun v u => (getBank u 0).stack = [0] ∧ isActive u 0 (v.toNat % 1024) = true)
      (moveOf 0xE0 (.imm 16)) = true := by decide +kernel

theorem witness_PicCommands : reaches? clocked? 0 PIC_SSET = true ∧ reaches? clocked? 0 (PIC_PSET 0 0) = true ∧
    reachesWith (setGroup clocked? 0 { hold := true, count := 3 }) 0 (PIC_MOD 0) (fun u => (getGroup u 0).hold ∧
      groupDue (plainWrite u (PIC_MOD 0) 2) 0) = true ∧
    let s := setGroup clocked? 0 { hold := true, time := 20 }
    (getGroup s 0).hold = true ∧ (getGroup s 0).time ≠ 0 := by decide +kernel

/-- A transaction in slot 0, a peer of port 0. -/
theorem witness_LatchedReads : (∀ a ∈ [SUP_FLOGD 0, CLV_RCNTLO 0 0, WS_SEQLO, WS_SLOTST, LED_DURSEQLO, TMR_CNTLO 0 0,
      TMR_CAPLO 8 7, RTC_SUB, TMP_LOGD 0], reaches? clocked? 0 a = true) ∧
    (∀ a ∈ [HB_PTMLO, ETH_PEERST 0], (reaches? (withF clocked? [(CLK_STATUS, CLK_STATUS_LOCK, 1), (CLK_SRC 12, CLK_SRC_CUR, 1),
      (CLK_SRC 13, CLK_SRC_CUR, 1)]) 0 a = true)) := by decide +kernel

/-! ### Timers -/

/-- Channel 0 of group 0 enabled, its record x. -/
def ticking (x : Chan) : State := setCh (withF clocked? [(TMR_CTRL 0 0, TMR_CTRL_EN, 1)]) 0 0 x

/-- A step that wraps and matches, one that does neither, an edge between steps; levels at a channel that samples them and at one
whose clock stands; links in use of each action, a busy one and one in RET. -/
theorem witness_Timers :
    let last := ticking { count := 3, top := 3, cmp := 0 };
    chCksel last 0 0 < 5 ∧ stepDue last 0 0 = true ∧ nextCount (getCh last 0 0) = (getCh last 0 0).cmp ∧
      wraps (getCh last 0 0) = true ∧ counting last 0 0 = true ∧ divisor (getCh last 0 0) ≤ (getCh last 0 0).acc + 256 ∧
    (let mid := ticking { count := 0, top := 3, cmp := 2 };
      stepDue mid 0 0 = true ∧ nextCount (getCh mid 0 0) ≠ (getCh mid 0 0).cmp ∧ wraps (getCh mid 0 0) = false) ∧
    (let slow := ticking { psc := 1 };
      counting slow 0 0 = true ∧ (getCh slow 0 0).acc + 256 < divisor (getCh slow 0 0)) ∧
    (let cap := withF clocked? [(TMR_CAPCTL 0 0, TMR_CAPCTL_CAPEN, 1)];
      clocked cap (tgDomain 0) = true ∧ flag cap (TMR_CAPCTL 0 0) TMR_CAPCTL_CAPEN = true ∧
        getF cap (TMR_CAPCTL 0 0) TMR_CAPCTL_EPSC ≤ (getCh cap 0 0).edges) ∧
    (∀ n ∈ [1, 2, 3, 4], let s := withF clocked? [(TMR_LINK 8 7, TMR_LINK_SRC0, 1), (TMR_LINK 8 7, TMR_LINK_ACT0, n)];
      actOf s 8 7 0 = n ∧ clocked s (tgDomain 8) = true ∧ linkUsed s 8 7 0 = true ∧ linkBusy (getCh s 8 7) 0 = false ∧ follows s 8 7 = false) ∧
    (let s := withF clocked? [(TMR_LINK 8 7, TMR_LINK_SRC0, 1), (TMR_LINK 8 7, TMR_LINK_ACT0, 1)];
      let b := setCh s 8 7 { busy0 := true };
      let r := setF s (PD_STATUS (tgDomain 8)) PD_STATUS_STATE 1;
      linkUsed b 8 7 0 = true ∧ linkBusy (getCh b 8 7) 0 = true ∧ clocked b (tgDomain 8) = true ∧ actOf b 8 7 0 = 1 ∧
        linkUsed r 8 7 0 = true ∧ domState r (tgDomain 8) = 1 ∧ actOf r 8 7 0 = 1) ∧
    samples clocked? 0 0 = true ∧ samples (setF clocked? (PD_STATUS (tgDomain 0)) PD_STATUS_STATE 1) 0 0 = false ∧
    (∀ a ∈ [TG_GCTL 0, TMR_KICK 0 0, TMR_CNTHI 8 7, TMR_TOPHI 0 0, TMR_CMPHI 0 0, TMR_PSC 0 0, TMR_LINK 0 0, TMR_CTRL 0 0,
      TMR_IEN 0 0, TMR_CAPCTL 0 0], reaches? clocked? 0 a = true) ∧
    chEn last 0 0 = true ∧ chEn clocked? 0 0 = false := by decide +kernel

/-! ### Weft, tally, ledger, crypto, draw -/

/-- A weave of two stages: 0 speculative, of class 0, for the triads of group 0; 1 the commit stage, for the ledger. -/
def woven : State := withF clocked? [(QE_CLAST 0, QE_CLAST_LAST, 0xFFFF), (QE_CQUOTA 0, QE_CQUOTA_QUOTA, 64),
  (QE_COWN 0, QE_COWN_VALID, 1), (QE_COWN 0, QE_COWN_NOTIFY, 3), (WS_STGW0 0, WS_STGW0_FLAGS, 1),
  (WS_STGW1 0, WS_STGW1_NEXT, 0x01010101), (WS_STGW0 1, WS_STGW0_KIND, 4), (WS_STGW0 1, WS_STGW0_FLAGS, 2),
  (WS_STGW0 1, WS_STGW0_QCLASS, 0xFF), (WS_GEOM, WS_GEOM_NSTAGE, 2), (WS_STATUS, WS_STATUS_RUN, 1), (LED_STATUS, LED_STATUS_READY, 1)]

/-- The weave with transaction 7 in slot 7, which is the head. -/
def flying (x : WSlot) : State :=
  let s := setW woven 7 (some x);
  { s with weft := { s.weft with head := some 7 } }

/-- WS_CTRL with a sound and an unsound context area, a notice, stages 0 and 1 to dispatch, a result. -/
theorem witness_WeftProgress :
    reachesWith clocked? 0 WS_CTRL (fun u => ctxAreaOk u ∧ flag u WS_CTRL WS_CTRL_EN = false) = true ∧
    reachesWith (setF clocked? WS_CTXBASE WS_CTXBASE_BASE 0) 0 WS_CTRL (fun u => ctxAreaOk u = false) = true ∧
    (let s := withPacket woven (startQueue woven) [5];
      weftRuns s = true ∧ flag s WS_CTRL WS_CTRL_HOLD = false ∧ flag s WS_STATUS WS_STATUS_STOPPED = false ∧
        getW s (nextSlot s) = none ∧ qeReady s = true ∧ qeRoute s (masterRouter 33) = true ∧ startClass s < 64 ∧
        let (w, tag, _) := popCore (heldAccess s 2) (startQueue (heldAccess s 2)) 65 .none;
        tag.getLsbD 0 = true ∧ tag.getLsbD 2 = false ∧ tag.getLsbD 3 = false ∧ w.toNat < 2 ^ 31) ∧
    (∀ i ∈ [0, 1], let x : WSlot := { tid := 7, stage := 0, next := BitVec.ofNat 8 i };
      let s := flying x;
      getW s 7 = some x ∧ weftRuns s = true ∧ qeReady s = true ∧ qeRoute s (masterRouter 33) = true ∧ x.phase = .waiting ∧ x.next ≠ 0xFF ∧
        stageReady s 7 x i = true ∧ stageInput s 7 i = (if i = 0 then some (some 0) else some none) ∧
        stageFlag s i 1 = decide (i = 1) ∧
        5 + stageNarg s i + (if stageFlag s i 1 then 2 else 0) ≤ roomOf s (dispatchQueue s i)) ∧
    (let x : WSlot := { tid := 7, stage := 0, next := 0, phase := .dispatched, outstanding := true };
      let s := withPacket (flying x) 0xFF010 [7, 7, 0];
      weftRuns s = true ∧ pktReady s (masterRouter 33) 0xFF010 = true ∧
      let (p, h) := popPacket s (masterRouter 33) 0xFF010 .none;
      2 ≤ p.words.length ∧ p.words.length ≤ 14 ∧ p.bad = false ∧ getW h 7 = some x ∧ (p.words.getD 1 0).toNat % 2 ^ 16 = 7 ∧
        resultMatches x 7 (p.words.getD 0 0) (p.words.getD 1 0) = true ∧ stageNext h 0 0 ≠ 0xFF ∧
        x.committed = stageFlag h (stageNext h 0 0).toNat 2) := by decide +kernel

theorem witness_WeftEndings :
    (∀ c ∈ [true, false], let x : WSlot := { tid := 7, stage := 0, next := 0, phase := .dispatched, outstanding := true, committed := c };
      getW (flying x) 7 = some x ∧ weftRuns (flying x) = true ∧ x.outstanding = true ∧ x.phase = .dispatched) ∧
    (∀ o ∈ [true, false], let x : WSlot := { tid := 7, stage := 0, next := 0, phase := .aborting, outstanding := o };
      let s := flying x;
      getW s 7 = some x ∧ domOn s 3 = true ∧ qeReady s = true ∧ qeRoute s (masterRouter 33) = true ∧ ctxConsumed s 7 = false ∧ intakeTurn s 7 x = true) ∧
    ∀ ck ∈ [true, false], ∀ x ∈ [({ tid := 7, stage := 0, next := 0 } : WSlot),
        { tid := 7, stage := 0, next := 0, phase := .dispatched, outstanding := true },
        { tid := 7, stage := 0, next := 0, phase := .rewinding, outstanding := true },
        { tid := 7, stage := 0, next := 0, restored := true }],
      let s := flying x;
      let s := if ck then setCtx s 7 3 1 else s;
      let r : Report := { slot := 7, tid := 7, stage := 0 };
      let s := { s with tly := { s.tly with reports := [r] } };
      s.tly.reports = [r] ∧ domOn s 3 = true ∧ safeHalt s = false ∧ getW s r.slot = some x ∧ x.tid = r.tid ∧
        x.committed = false ∧ x.phase ≠ .aborting ∧ ctxCkValid s r.slot = ck ∧ ctxCkStage s r.slot = r.stage := by decide +kernel

/-- Each message before the engine, the slot's record where one is needed. -/
theorem witness_TallyMessages : ∀ m ∈ [TMsg.begin 7 7, .head (some 7), .commit 7 7, .abort 7 7, .rewind 7 7 1 none, .fin 7 7],
    let s := setTSlot (setWeft clocked? { clocked?.weft with msgs := [m] }) 7 (some { tid := 7 });
    domOn s 3 = true ∧ s.weft.msgs = [m] ∧ getTSlot s 7 = some { tid := 7 } ∧ twf (fun _ => {}) s.tly.tallies = true := by
  decide +kernel

/-- The tally engine open, tally 0x102 with the value and the limit of the example of chapter 12, a request waiting. -/
def asking (ws : List Word) : State :=
  let s := withF clocked? [(TLY_CTRL, TLY_CTRL_OPEN, 1)];
  let s := setTally s 0x102 { en := true, limit := 10000000, c := 9990000 };
  withPacket (setTSlot s 7 (some { tid := 7 })) 0xFF200 ws

/-- READSPEC, READCOMM, an ADD within the limit and one beyond it. -/
theorem witness_TallyRequests :
    (∀ p ∈ [(2, []), (3, []), (1, [(0x5000 : Word), 0, 0, 0]), (1, [0x10001, 0, 0, 0])],
      let s := asking ([7, 7, 0, BitVec.ofNat 32 (p.1 * 2 ^ 28 + 0x102)] ++ p.2);
      tallyRuns s = true ∧ flag s TLY_CTRL TLY_CTRL_OPEN = true ∧ s.weft.msgs = [] ∧ pktReady s (masterRouter 34) 0xFF200 = true ∧
        4 ≤ peekLen s 0xFF200 ∧ (peekAt s 0xFF200 3).toNat / 2 ^ 28 = p.1 ∧
      let (q, h) := popPacket s (masterRouter 34) 0xFF200 .none;
      let r : TReq := { slot := (q.words.getD 1 0).toNat % 65536, words := q.words };
      let d := (q.words.drop 4).take 4;
      q.bad = false ∧ q.words.length = 4 + p.2.length ∧ tallyStale h r = false ∧ parkedOf h r.slot = 0 ∧
        (getTally h (reqTally r)).en = true ∧ recordShort h r = false ∧ reqOp r = p.1 ∧
        bitsOf (q.words.getD 3 0).toNat 27 16 = 0 ∧ d.all digitsOk = true ∧ reqCommitted h r = false ∧
        (decide ((10000000 : Int) < specSum (getTally h (reqTally r)) 7 + tallyValue d) = decide (p.2 = [0x10001, 0, 0, 0])) ∧
        nextReader h 7 (reqTally r) = none) ∧
    (∀ a ∈ [TLY_LDCMD, TLY_CTRL, TLY_SEL], reaches? clocked? 0 a = true) ∧
    (∀ o ∈ [0, 1], reachesWith (withF clocked? [(TLY_CTRL, TLY_CTRL_OPEN, o), (LED_STATUS, LED_STATUS_READY, 1)]) 0 TLY_LDCMD
      (fun u => flag u TLY_CTRL TLY_CTRL_OPEN = decide (o = 1) ∧ (loadWords u).all digitsOk = true ∧ ledgerAccepts u = true) = true) := by
  decide +kernel

/-- The ledger ready, an entry reserved and requests waiting in its queue. -/
def booking (l : List Resv) : State :=
  let s := withF woven [(LED_OCC, LED_OCC_SLOTS, 4)];
  setLed s { s.led with resv := l, next := 9, acked := 5 }

/-- The entry of number 8, drawn at a commit point. -/
def entry8 : Resv := { seq := 8, cairn := false, tid := 7, slot := 3, time := 0, origin := .commit, body := none, after := .none }

theorem witness_LedgerCommands :
    (∀ n ∈ [(8 : Nat), 9], let s := withPacket (booking [entry8]) 0xFF300 [7, 0x01000007, 0, 1, 0, BitVec.ofNat 32 n, 0];
      ledgerAccepts s = true ∧ pktReady s (masterRouter 35) 0xFF300 = true ∧ directFront s 0xFF300 = false ∧
      let (p, h) := popPacket s (masterRouter 35) 0xFF300 .none;
      5 ≤ p.words.length ∧ p.lastBad = false ∧ h.led.resv.find? (fun e => awaits .commit e && e.seq == packetSeq p.words) =
        (if n = 8 then some entry8 else none)) ∧
    (let s := withPacket (booking [entry8]) 0xFF300 [7, 0x01000007, 8, 0];
      ledgerAccepts s = true ∧ pktReady s (masterRouter 35) 0xFF300 = true ∧ directFront s 0xFF300 = false ∧
      let (p, h) := popPacket s (masterRouter 35) 0xFF300 .none;
      p.words ≠ [] ∧ p.words.length < 5 ∧ h.led.resv.find? (awaits .commit) = some entry8) ∧
    (let s := withPacket (booking [entry8]) 0xFF300 [7, 0x01000007, 0, 1, 0, 8, 0];
      let (p, h) := popPacket s (masterRouter 35) 0xFF300 (.parity 6 3);
      5 ≤ p.words.length ∧ p.lastBad = true ∧ h.led.resv.find? (awaits .commit) = some entry8) ∧
    (let s := withPacket clocked? 0xFF300 [7, 7, 0x80000000, 0x20000000];
      safeHalt s = false ∧ pktReady s (masterRouter 35) 0xFF300 = true ∧ directFront s 0xFF300 = true ∧
        (popPacket s (masterRouter 35) 0xFF300 .none).1.bad = false) ∧
    (∀ todo ∈ [[], [(slotAddr 3, List.replicate 8 1)]], let e := { entry8 with body := some { type := 1, source := 1 }, todo := todo };
      (booking [e]).led.resv.find? (fun e => !e.cairn && !e.written) = some e) ∧
    (∀ todo ∈ [[], [(slotAddr 3, List.replicate 8 1)]], let e := { entry8 with cairn := true, digest := List.replicate 32 1, todo := todo };
      (booking [e]).led.resv.find? (fun e => e.cairn && !e.written && !e.digest.isEmpty) = some e) ∧
    (∀ S ∈ [(4 : Nat), 6, 8], reachesWith (setLed (booking [entry8]) { (booking [entry8]).led with ackLo := BitVec.ofNat 32 S }) 0 LED_ACKHI (fun u =>
      flag u LED_STATUS LED_STATUS_PFAIL = false ∧ u.led.ackLo.toNat = S ∧ (S < u.led.acked ↔ S = 4) ∧ (durableNext u ≤ S ↔ S = 8)) = true) ∧
    (setLed clocked? { clocked?.led with anchor := some { seq := 1, slot := 1, dig := [] } }).led.anchor.isSome = true ∧
    (∀ n ∈ [0, 2], reachesWith (withF (booking [entry8]) [(LED_DMACNT, LED_DMACNT_COUNT, n)]) 0 LED_DMACTL (fun u =>
      flag u LED_DMACTL LED_DMACTL_BUSY = false ∧ flag u LED_STATUS LED_STATUS_PFAIL = false ∧ getF u LED_DMACNT LED_DMACNT_COUNT = n ∧
        durableSlots u = 3) = true) ∧
    reachesWith (withF (booking [entry8]) [(LED_DMACNT, LED_DMACNT_COUNT, 2), (LED_RECOV, LED_RECOV_NOANCHOR, 1)]) 0 LED_DMACTL (fun u =>
      flag u LED_RECOV LED_RECOV_NOANCHOR = true ∧ flag u LED_DMACTL LED_DMACTL_BUSY = false) = true ∧
    (∀ f ∈ [0, 0xFFFF],
      let l : Ledger := { job := some { host := 0, slot := 0, count := 1 } };
      let s := setLed (withF clocked? [(LAT_RTRFAIL, LAT_RTRFAIL_FAIL, f)]) l;
      s.led.job.isSome = true ∧ routeFailed s (masterRouter 35) (masterRouter 36) = decide (f ≠ 0)) ∧
    ({ clocked? with nPfail := true } : State).nPfail = true := by decide +kernel

/-- Each direct crypto request, and one that waits for room; a draw's and a HEALTH request; DRW_ENTIN with room and full. -/
theorem witness_CryptoAndDraw :
    (∀ w ∈ [1, 2, 3], let s := withPacket clocked? 0xFF107 [7, 7, 0x80000000, BitVec.ofNat 32 (w * 2 ^ 28 + 0xFF0010), 0, 0];
      domOn s 11 = true ∧ getJob s 7 = none ∧ pktReady s (clusterRouter 7) 0xFF107 = true ∧ frontOp s 0xFF107 = w ∧
      let p := popPacket s (clusterRouter 7) 0xFF107 .none;
      p.1.words.length = 6 ∧ p.1.bad = false ∧ (cryRequest p.2 p.1.words).any (fun r => r.op == w) = true) ∧
    (∀ q ∈ [0xFF010, 5], let j : CryJob := { op := 2, queue := q, triad := none, tid := 7, lo := 7, session := 5, words := [], copy := [1] };
      let s := setJob clocked? 7 (some j);
      domOn s 11 = true ∧ getJob s 7 = some j ∧ qeReady s = true) ∧
    roomPlusTwo clocked? 0xFF010 1 = true ∧
    roomPlusTwo (setReg clocked? (QE_CQUOTA 64) 0) 0xFF010 1 = false ∧
    (∀ n ∈ [(1 : Nat), 0x20], let e := { entry8 with origin := .draw };
      let s := withPacket (booking [e]) 0xFF400 [7, 0x01000007, 0, BitVec.ofNat 32 (0x10000000 + n), 1, 6, 8, 0];
      ledgerAccepts s = true ∧ pktReady s drawRouter 0xFF400 = true ∧ directFront s 0xFF400 = false ∧ entinShort s = false ∧
      let (p, h) := popPacket s drawRouter 0xFF400 .none;
      drawEntry h p = some e ∧ p.bad = false ∧ p.words.length = 8 ∧ (p.words.getD 3 0).toNat / 2 ^ 28 = 1 ∧
        (peekAt s 0xFF400 3).toNat / 2 ^ 28 = 1 ∧
        (bitsOf (p.words.getD 3 0).toNat 27 5 = 0 ↔ n = 1) ∧ (n = 1 → drawLimits 1 1 1 6 = true)) ∧
    (let s := withPacket clocked? 0xFF400 [7, 7, 0x80000000, 0x30000000];
      safeHalt s = false ∧ pktReady s drawRouter 0xFF400 = true ∧ directFront s 0xFF400 = true ∧
        (popPacket s drawRouter 0xFF400 .none).1.bad = false) ∧
    reachesWith clocked? 0 DRW_ENTIN (fun u => flag u MOD_STATUS MOD_STATUS_SEALED = false ∧ u.drw.entin.length < 128) = true ∧
    reachesWith (withF clocked? [(MOD_STATUS, MOD_STATUS_SEALED, 1)]) 0 DRW_ENTIN
      (fun u => flag u MOD_STATUS MOD_STATUS_SEALED = true) = true := by decide +kernel

/-! ### Power, clocks, lattice -/

/-- Domain d without votes, its target RET or OFF, in the given state; the supply holds. -/
def votedDown (d target state : Nat) : State := withF { State.reset with nPfail := true } [(PD_VOTEB d, PD_VOTEB_BOOT, 0), (PD_VOTEB d, PD_VOTEB_WAKE, 0),
  (PD_TARGET d, PD_TARGET_TARGET, target), (PD_STATUS d, PD_STATUS_STATE, state)]

theorem witness_PowerAndClocks :
    (∀ d ∈ [0, 2, 17], reaches? State.reset 0 (PD_VOTEA d) = true ∧ reaches? State.reset 0 (PD_VOTEB d) = true) ∧
    (∀ d ∈ [2, 17], ∀ k ∈ [1, 2], let s := votedDown d k 0;
      domOn s d = true ∧ getF s (PD_TARGET d) PD_TARGET_TARGET = k ∧ votesDown s d = true ∧ entryFree s d = true ∧ safeHalt s = false ∧ s.nPfail = true) ∧
    wakeOk 17 0 = true ∧ wakeOk 17 1 = true ∧ wakeOk 2 3 = true ∧ wakeOk 4 2 = true ∧ wakeOk 12 4 = true ∧
    (let s := setFlag (votedDown 4 1 1) (PD_VOTEB 4) PD_VOTEB_HOST true;
      domState s 4 = 1 ∧ votesDown s 4 = false ∧ tget (fun _ => 0) s.wakeCause 4 = 0) ∧
    (let s := wakeRequest (votedDown 2 2 2) 2 7;
      domState s 2 = 2 ∧ tget (fun _ => 0) s.wakeCause 2 = 7 ∧ tget (fun _ => 0) s.wakeCause 2 < 8) ∧
    domOn State.reset 11 = true ∧
    (∀ k ∈ [1, 17], reaches? State.reset 0 (CLK_SRC k) = true) ∧ domOn State.reset 17 = true ∧ pllLocked State.reset = false ∧
    pllLocked (withF State.reset [(CLK_STATUS, CLK_STATUS_LOCK, 1)]) = true ∧
    flag State.reset CLK_STATUS CLK_STATUS_ROOTFAIL = false ∧ flag State.reset CLK_STATUS CLK_STATUS_PLLFAIL = false ∧
    regionOf 0x48010000 = .device ∧ meetsStopped State.reset 0x48010000 = true ∧
    (let s := withCore (coreOf [(0xD9, 0x1000)]);
      issues s 0 = true ∧ meetsStopped s 0x48010000 = true ∧
        enters? s 0 { vec := 8, fadr := 0x48010000, wr := true, ext := true, count := 2, caddr := 0x48010000 } = true) := by decide +kernel

/-- A link at its fourth failure in each direction, in service and on its spare; a flit's first failure, and its third; a route
that has not failed, and one over router 5. -/
theorem witness_LatticeErrors : (∀ st ∈ [0, 1], ∀ back ∈ [true, false], let s := withF State.reset [(LAT_LINK 23, LAT_LINK_STATE, st)];
      let s := { s with lat := { s.lat with flits := [(46 + b2n back, 3)] } };
      getF s (LAT_LINK 23) LAT_LINK_STATE = st ∧ tget (fun _ => 0) s.lat.flits (2 * 23 + b2n back) = 3) ∧
    tget (fun _ => 0) State.reset.lat.flits 0 < 3 ∧ routeFailed State.reset 0 15 = false ∧ 5 ∈ routePath 4 6 ∧
    0 ∈ pathLinks (routePath 0 1) := by decide +kernel

/-- A word stored and read whole and in part, over a poisoned one; bursts at the end of a page; an access over a failed route; rows
and words for the scrubber. -/
theorem witness_CommonStore : regionOf 0x10000000 = .common ∧ regionOf 0x127FFFFC = .common ∧
    accessFailed State.reset 0 0x10000000 = false ∧ accessFailed State.reset 37 0x127FFFFC = false ∧
    poisoned State.reset 0x10000000 = false ∧ poisoned (setPoison State.reset 0x10000000 true) 0x10000000 = true ∧
    burstOk 0x10000E00 128 = true ∧ burstOk 0x10000FE0 (8 * (1 : BitVec 5).toNat) = true ∧ burstOk 0x10000FE0 8 = true ∧ burstOk 0x10000FE0 16 = false ∧
    accessFailed (withF State.reset [(LAT_RTRFAIL, LAT_RTRFAIL_FAIL, 0xFFFF)]) 37 0x10000000 = true ∧
    let s := withF State.reset [(SUP_SCRUBCTL, SUP_SCRUBCTL_EN, 1)];
    flag s SUP_SCRUBCTL SUP_SCRUBCTL_EN = true ∧ domOn s 1 = true ∧ passEnds s 0 0 = false ∧
      passEnds { s with lat := { s.lat with rows := (List.range 16).map (fun b => (b, bankRows)) } } 0 (bankRows - 1) = true ∧
      ∀ p ∈ [ScrubSpot.local 3 0, .desc 5, .link 6, .mram 0x30000000], 0 < scrubStore p ∧ domOn s (scrubDomain p) = true := by
  decide +kernel

theorem witness_PriorityCommands : hostReady (hosted State.reset) = true ∧ (hosted State.reset).lat.fences = 0 ∧
    (∀ k, k < 3 → stopLost State.reset k = false ∧ stopLost (withF State.reset [(LAT_RTRFAIL, LAT_RTRFAIL_FAIL, 0xFFFF)]) k = true) ∧
    domOn State.reset 15 = true ∧ routeFailed State.reset (masterRouter 33) 7 = false ∧
    routeFailed (withF State.reset [(LAT_RTRFAIL, LAT_RTRFAIL_FAIL, 0xFFFF)]) (masterRouter 33) 7 = true ∧
    flag State.reset MOD_STOP MOD_STOP_SCANLOCK = false ∧ flag State.reset MOD_STATUS MOD_STATUS_FATAL = false ∧
    flag (withF State.reset [(MOD_STOP, MOD_STOP_SCANLOCK, 1)]) MOD_STOP MOD_STOP_SCANLOCK = true ∧
    (∀ p, p < 3 → domOn State.reset (13 + p) = true ∧ domOn (setF State.reset (PD_STATUS (13 + p)) PD_STATUS_STATE 1) (13 + p) = false) ∧
    let s := { hosted State.reset with lat := { State.reset.lat with fences := 1 } };
    hostReady s = true ∧ s.lat.fences ≠ 0 := by decide +kernel

/-! ### Events, clock, converter -/

theorem witness_EventsAndConverter :
    reaches? clocked? 0 EVF_SWTRIG = true ∧ reaches? clocked? 0 (EVF_SEL 0) = true ∧ reaches? clocked? 0 (EVF_SEL 95) = true ∧
    (∀ j, j < 80 → getF State.reset (EVF_SEL j) EVF_SEL_SEL ≠ 176) ∧
    inputBusy (withF State.reset [(LED_DMACTL, LED_DMACTL_BUSY, 1)]) 77 = true ∧
    inputBusy clocked? 75 = false ∧ evoMode (withF clocked? [(EVF_EVOCTL 7, EVF_EVOCTL_MODE, 1)]) 7 = 1 ∧
    inputBusy (withF clocked? [(EVF_EVOCTL 7, EVF_EVOCTL_MODE, 1)]) 75 = false ∧
    (∀ h ∈ [0, 1], let s := withF clocked? [(EVF_QPUSHA, EVF_QPUSHA_EN, 1), (SUP_STATUS, SUP_STATUS_SAFEHALT, h)];
      flag s EVF_QPUSHA EVF_QPUSHA_EN = true ∧ inputBusy s 78 = false ∧ safeHalt s = decide (h = 1)) ∧
    (∀ n, n ∈ [0, 1] → n < 2) ∧ 2 ≤ (2 : BitVec 32).toNat ∧ clocked (setReg clocked? CLK_EN 0) 17 = false ∧
    (acceptIn clocked? 4096).getLsbD 71 = true ∧ (acceptIn clocked? 2).getLsbD 64 = true ∧
    (acceptIn (withF clocked? [(TMR_CAPCTL 8 7, TMR_CAPCTL_FILT, 15)]) 2).getLsbD 71 = false ∧
    domOn clocked? 17 = true ∧ State.reset.evf.pinIn.getLsbD 7 ≠ true ∧ evoMode clocked? 7 = 0 ∧ clocked clocked? 17 = true ∧
    evoMode (withF clocked? [(EVF_EVOCTL 7, EVF_EVOCTL_MODE, 1)]) 7 ≠ 0 ∧
    ∀ b ∈ [0, 1], let s := withF clocked? [(MON_STATUS, MON_STATUS_BUSY, b), (MON_CTL, MON_CTL_CONT, 1), (MON_LIM 23, MON_LIM_EN, 1)];
      let s := { s with mon := { left := [23], started := true } };
      clocked s 16 = true ∧ flag s MON_STATUS MON_STATUS_BUSY = decide (b = 1) ∧ flag s MON_CTL MON_CTL_CONT = true ∧
        s.mon.started = true ∧ s.mon.left = 23 :: [] ∧ (reg s MON_LIMF).getLsbD 23 = false := by decide +kernel

/-- A roll-over, a load that waits, a correction of +1 and one of -1, a clock that meets its alarm. -/
theorem witness_RealTimeClock : State.reset.islandOff = false ∧ flag State.reset RTC_CTL RTC_CTL_PEND = false ∧
    (let s := { withF State.reset [(RTC_CTL, RTC_CTL_ALEN, 1), (RTC_ALMLO, RTC_ALMLO_SEC, 1), (RTC_ALMHI, RTC_ALMHI_SEC, 0)] with rtc := { sub := 32767 } };
      32768 ≤ s.rtc.sub.toNat + rtcAdvance s ∧ flag s RTC_CTL RTC_CTL_ALEN = true ∧
        (reg s RTC_ALMLO).toNat + 2 ^ 32 * getF s RTC_ALMHI RTC_ALMHI_SEC = 1) ∧
    (∀ t ∈ [1, 0xFFF], rtcAdvance (setReg State.reset RTC_TRIM (BitVec.ofNat 32 t)) = if t = 1 then 2 else 0) ∧
    flag (withF State.reset [(RTC_CTL, RTC_CTL_PEND, 1)]) RTC_CTL RTC_CTL_PEND = true ∧ reaches? clocked? 0 RTC_CTL = true ∧
    (0 < (1 : BitVec 12).toInt.natAbs ∧ (1065 : BitVec 12).toInt.natAbs = 1065 ∧ (-1065 : BitVec 12).toInt.natAbs = 1065) := by
  decide +kernel

/-! ### Host, mailbox, boot -/

theorem witness_HostResets : domOn State.reset 12 = true ∧ linkShape 5 8 = true ∧
    (let s := withF State.reset [(CLK_SRC 12, CLK_SRC_CUR, 1), (CLK_STATUS, CLK_STATUS_LOCK, 1)];
      pcieClocked s = true ∧ flag s HB_LINK HB_LINK_UP = false ∧ pcieClocked (hosted s) = true ∧ flag (hosted s) HB_LINK HB_LINK_UP = true) ∧
    (hosted State.reset).hostFn.l1 = false ∧
    ({ hosted State.reset with hostFn := { l1 := true } } : State).hostFn.l1 = true := by decide +kernel

theorem witness_HostRequests : domOn (hosted State.reset) 12 = true ∧ flag (hosted State.reset) HB_LINK HB_LINK_UP = true ∧
    (let s := hosted clocked?;
      hostReady s = true ∧ s.lat.fences = 0 ∧ regionOf 0x48010000 = .device ∧ domOn s (deviceDomain 0x48010000).1 = true ∧
        meetsStopped (setReg s CLK_EN 0) 0x48010000 = true) ∧
    (hosted State.reset).hostFn.served = true ∧ ({ hosted State.reset with hostFn := {} } : State).hostFn.served = false ∧
    (let s := { hosted State.reset with hostFn := { served := true, memEn := true, msixEn := true, pba := 1, table := [(3, 0)] } };
      s.hostFn.msixEn = true ∧ domOn s 12 = true ∧ getF s HB_LINK HB_LINK_DSTATE ≠ 3 ∧ s.hostFn.pba.getLsbD 0 = true ∧ s.hostFn.funcMask = false ∧
        vectorMasked s 0 = false ∧ vectorMasked s 63 = true) ∧
    (∀ n ∈ [0, 1], reachesWith (withF (hosted clocked?) [(CLK_SRC 12, CLK_SRC_CUR, 1), (CLK_STATUS, CLK_STATUS_LOCK, 1),
      (HB_ERR, HB_ERR_MSIDROP, n)]) 0 HB_MSIGEN (fun u => getF u HB_ERR HB_ERR_MSIDROP = n ∧ domOn u 12) = true) := by
  decide +kernel

/-- A card with a mailbox. -/
def posted (m : Mailbox) : State := { hosted clocked? with mbx := m }

theorem witness_MailboxFrames : hostReady (posted {}) = true ∧ clocked (posted {}) 17 = true ∧ (posted {}).mbx.uart = [] ∧
    (∀ n ∈ [1021, 1022], let s := posted { asm := [0x53420207, 0], rsp := List.replicate n 0, queue := List.replicate 8 { code := 1, tag := 0, args := [] } }
      s.mbx.asm = 0x53420207 :: 0 :: [] ∧ 8 ≤ s.mbx.queue.length ∧ (s.mbx.rsp.length ≤ 1021 ↔ n = 1021)) ∧
    (∃ v : Word, v = crc32 (ofWords [0x53420207, 0])) ∧ (0x50440000 : Word) ≠ 0x50440001 ∧ (0x50440000 : Word) ≠ 0x50440002 ∧
    stopLost (withF (posted {}) [(LAT_RTRFAIL, LAT_RTRFAIL_FAIL, 0xFFFF)]) 0 = true ∧
    (0x53420207 : Word).toNat / 65536 = 0x5342 ∧ (0x00420207 : Word).toNat / 65536 ≠ 0x5342 ∧
    (posted {}).lat.fences = 0 ∧ stopLost (posted {}) 0 = false ∧
    (256 : Word).toNat ≤ 256 ∧ 256 < (257 : Word).toNat ∧
    (posted { asm := [0x53420207, 1] }).mbx.asm = [0x53420207, 1] ∧ ([] : List Word).length < (1 : Word).toNat ∧
    (posted { asm := [0x53420207, 0] }).mbx.asm = 0x53420207 :: 0 :: [] ∧ ([] : List Word).length = (0 : Word).toNat ∧
    (0 : Word) ≠ crc32 (ofWords [0x53420207, 0]) ∧
    (posted { queue := List.replicate 8 { code := 1, tag := 0, args := [] } }).mbx.queue.length = 8 ∧
    (posted { rsp := [1] }).mbx.rsp = [1] ∧ (posted {}).mbx.rsp = [] ∧
    getF (withF (posted {}) [(HB_ERR, HB_ERR_PARTIAL, 1)]) HB_ERR HB_ERR_PARTIAL ≠ 0 := by
  refine ⟨by decide +kernel, by decide +kernel, by decide +kernel, by decide +kernel, ⟨_, rfl⟩, ?_⟩
  decide +kernel

/-- A card that is READY with one accepted command in its mailbox. -/
def ordered (code : Nat) (args : List Word) : State :=
  { withF clocked? [(MOD_STATUS, MOD_STATUS_READY, 1), (LED_STATUS, LED_STATUS_READY, 1)] with
    mbx := { queue := [{ code := BitVec.ofNat 8 code, tag := 7, args := args }] } }

/-- Each state of the checks, KEY_LOAD of slot 1 fresh and of a stale version, KEY_ZERO in and out of safe halt. -/
theorem witness_MailboxCommands :
    (let s := ordered 0x10 ([1, 5] ++ List.replicate 8 9);
      let a := s.mbx.queue.flatMap (·.args);
      s.mbx.owed = 0 ∧ flag s MOD_STATUS MOD_STATUS_READY = true ∧ safeHalt s = false ∧ keyArgsOk a = true ∧ keyPresent s 1 = false ∧
        tamperPersists s = false ∧ s.islandOff = false ∧ recordsGo s = true ∧
        keyPresent (withF s [(TMP_KEYPRES, TMP_KEYPRES_PRES, 2), (TMP_KEYVER 1, TMP_KEYVER_VERSION, 5)]) 1 = true ∧
        keyVersion (withF s [(TMP_KEYPRES, TMP_KEYPRES_PRES, 2), (TMP_KEYVER 1, TMP_KEYVER_VERSION, 5)]) 1 = 5) ∧
    recordsGo (withF (ordered 0x11 [15]) [(LED_STATUS, LED_STATUS_READY, 0)]) = false ∧
    keyArgsOk [4, 1] = false ∧ safeHalt (withF (ordered 0x11 [15]) [(SUP_STATUS, SUP_STATUS_SAFEHALT, 1)]) = true ∧
    flag (posted {}) MOD_STATUS MOD_STATUS_READY = false := by decide +kernel

/-- Every stage that the commands of an update ask for. -/
theorem witness_ImageUpdates :
    (let s := ordered 0x20 [5, 0x200];
      s.mbx.owed = 0 ∧ safeHalt s = false ∧ flag s MOD_STATUS MOD_STATUS_READY = true ∧ recordsGo s = true ∧
        updLengthOk 5 0x200 = true ∧ updLengthOk 5 0x40000 = true ∧ targetRuns s 5 = false ∧ updStage s = 0) ∧
    (∀ k ∈ [1, 2, 3, 4], updStage (withF (ordered 0x24 []) [(UPD_STATUS, UPD_STATUS_STAGE, k)]) = k) ∧
    (∀ k ∈ [0, 1], let s := withF (ordered 0x24 []) [(BOOT_STATUS, BOOT_STATUS_FWOK, k), (WV_STATUS, WV_STATUS_STATE, 2)]
      flag s BOOT_STATUS BOOT_STATUS_FWOK = (k == 1) ∧ getF s WV_STATUS WV_STATUS_STATE = 2 ∧ flag s BOOT_STATUS BOOT_STATUS_SELFTEST = false ∧
        imageRuns s = (k == 1)) ∧
    (let s := withF (ordered 0x21 [0, 7]) [(UPD_STATUS, UPD_STATUS_STAGE, 1), (UPD_LEN, UPD_LEN_BYTES, 4)];
      getF s UPD_RCVD UPD_RCVD_BYTES + 4 ≤ getF s UPD_LEN UPD_LEN_BYTES) ∧
    (∀ k ∈ [4, 7, 0], updTarget (withF (ordered 0x23 []) [(UPD_STATUS, UPD_STATUS_TARGET, k)]) = k) ∧
    (ordered 0x23 []).wf = true := by decide +kernel

theorem witness_Boots :
    (let s := ordered 3 [0x103];
      s.mbx.owed = 0 ∧ safeHalt s = false ∧ flag s MOD_STATUS MOD_STATUS_READY = true ∧ (0x103 : Word).toNat % 256 < 4 ∧
        (0x103 : Word).toNat < 512 ∧ updStage s < 3 ∧ recordsGo s = true) ∧
    reaches? clocked? 0 BOOT_CTL = true ∧ supervisor (getT clocked? 0) = true ∧
    (let s := withCore (coreOf [(0xDA, 0)]);
      reaches? (setReg s CLK_EN 0x3FFFF) 0 BOOT_CTL = true ∧ supervisor (getT s 0) = false) ∧
    reaches? clocked? 33 BOOT_CTL = true ∧ reaches? (hosted clocked?) 36 BOOT_CTL = true ∧ flag (withF clocked? [(BOOT_CTL, BOOT_CTL_PEND, 1)]) BOOT_CTL BOOT_CTL_PEND = true := by
  decide +kernel

/-! ### Network -/

/-- Port 0 with its link up, UDP port 0x1234, IPv4 intake; entry 0 of the classifier takes session 5. -/
def linked : State :=
  setReg (withF clocked? [(CLK_STATUS, CLK_STATUS_LOCK, 1), (CLK_SRC 13, CLK_SRC_CUR, 1), (ETH_STATUS 0, ETH_STATUS_UP, 1),
    (ETH_STATUS 0, ETH_STATUS_TXFAULT, 0), (ETH_CTL 0, ETH_CTL_TXOFF, 0), (ETH_CFG 0, ETH_CFG_GEN, 1), (ETH_CFG 0, ETH_CFG_NETF, 6),
    (CLS_FIRST 0, CLS_FIRST_VALUE, 5), (CLS_LAST 0, CLS_LAST_VALUE, 5)]) (ETH_UDPP 0 0) 0x1234

/-- Port 0 up, and no session has an entry. -/
def unclassed : State :=
  let l := linked.csr.filter (fun c => c.1 < CLS_FIRST 0) ++ (List.range 256).map (fun e => (CLS_FIRST e, 0xFFFFE))
  { linked with csr := l }

/-- A datagram of session v, REPLY as given, without payload. -/
def datagramOf (v reply : Nat) : List Byte := [0x53, 0x42, 0x57, 0x44, 1, BitVec.ofNat 8 reply, 0, 0] ++ leBytes 4 v ++ List.replicate 36 0

/-- An IPv4 frame to port 0, of protocol 17 or as given, with data to the UDP port 0x1234, from 10.0.0.9. -/
def frameOf (proto : Byte) (d : List Byte) : List Byte :=
  withFcs (List.replicate 6 0xFF ++ [2, 0, 0, 0, 0, 1, 8, 0] ++
    (let i := ip4Packet 7 [10, 0, 0, 9] (ip4Bytes linked 0) (udpPacket [10, 0, 0, 9] (ip4Bytes linked 0) 0x4321 0x1234 d);
      i.take 9 ++ [proto] ++ i.drop 10))

/-- The frame with the datagram of session 5, in its halves, and its FCS. -/
def frameA : List Byte :=
  [0xFF, 0xFF, 0xFF, 0xFF, 0xFF, 0xFF, 2, 0, 0, 0, 0, 1, 8, 0, 0x45, 0, 0, 0x4C, 0, 7, 0x40, 0, 0x40, 0x11, 0x30, 0x92, 10, 0, 0, 9,
    0, 0, 0, 0, 0x43, 0x21, 0x12, 0x34, 0, 0x38, 0xEF, 0x99]
def frameB : List Byte := [0x53, 0x42, 0x57, 0x44, 1, 0, 0, 0, 5, 0, 0, 0] ++ List.replicate 36 0
def frameC : List Byte := [0xBC, 0x63, 0xC4, 0xE5]

def crcOver (c : Word) (l : List Byte) : Word := l.foldl (fun c b => crc32Bits 8 (c ^^^ b.zeroExtend 32)) c

theorem crc_frame : (crc32 (frameA ++ frameB)).toNat = leNat frameC := by
  have h : crc32 (frameA ++ frameB) = crcOver (crcOver 0xFFFFFFFF frameA) frameB ^^^ 0xFFFFFFFF := by
    simp only [crc32, crcOver, List.foldl_append]
  have ha : crcOver 0xFFFFFFFF frameA = 0x5377BE82 := by decide +kernel
  rw [h, ha]
  decide +kernel

def drops0 (f : Fld) : RxOut → Bool
  | .drop0 g => g = f
  | _ => false

def slows (n : Nat) : RxOut → Bool
  | .slow r _ => r = n
  | _ => false

def carries (d : List Byte) : RxOut → Bool
  | .datagram x _ sp lp => x == d && sp == 0x4321 && lp == 0
  | _ => false

/-- Port 0 with its intake open. -/
def opened : State := withF { linked with net := { stops := [] } } [(MOD_STATUS, MOD_STATUS_READY, 1), (WV_STATUS, WV_STATUS_STATE, 2)]

/-- Frames for each outcome of R536. -/
theorem witness_FramesAndPorts : after (.ethLinkChange 0 true true true false) linked (fun _ => true) = true ∧
    (∀ k ∈ [3, 4, 5], ({ linked with aud := { linked.aud with tap := { ir := BitVec.ofNat 8 k } } } : State).aud.tap.ir.toNat = k) ∧
    linked.aud.tap.ir.toNat ∉ [3, 4, 5] ∧ padOn (withF linked [(BOOT_STATUS, BOOT_STATUS_STEP, 7)]) 0 = true ∧
    domOn (setF linked (PD_STATUS 13) PD_STATUS_STATE 1) (padDomain 23) = false ∧ padDomain 23 ≠ 0 ∧ domOn linked 13 = true ∧ clocked linked 13 = true ∧ flag linked (ETH_STATUS 0) ETH_STATUS_UP = true ∧
    reaches? linked 0 (ETH_SFPCMD 0) = true ∧ (0x80000000 : Word).getLsbD 31 = true ∧
    flag (withF linked [(ETH_SFPCMD 0, ETH_SFPCMD_BUSY, 1), (ETH_STATUS 0, ETH_STATUS_MODABS, 0)]) (ETH_SFPCMD 0) ETH_SFPCMD_BUSY = true ∧
    flag (withF linked [(ETH_STATUS 0, ETH_STATUS_MODABS, 0)]) (ETH_STATUS 0) ETH_STATUS_MODABS = false ∧
    (let b := withFcs (List.replicate 60 1);
      64 ≤ b.length ∧ b.length ≤ 1518 ∧ (crc32 (b.take (b.length - 4))).toNat = leNat (b.drop (b.length - 4)) ∧
        beAt b 12 2 ≠ 0x8100 ∧ beAt b 12 2 ≠ 0x8808 ∧ dstOk linked 0 (b.take 6) = false) := by decide +kernel

theorem witness_FramesAndPorts_outcomes : drops0 ETH_RXDROP0_IP (rxFrame linked 0 (frameOf 6 [])) = true ∧
    (match rxFrame linked 0 (frameOf 17 []) with | .dgram f => f = ETH_RXDROP1_DGRAM | _ => false) = true ∧
    slows 1 (rxFrame linked 0 (withFcs (List.replicate 6 0xFF ++ [2, 0, 0, 0, 0, 1, 8, 6] ++ List.replicate 28 0))) = true ∧
    classify linked (dgSession (datagramOf 5 0)) = some 0 ∧ classify unclassed 6 = none ∧
    flag unclassed (ETH_STATUS 0) ETH_STATUS_UP = true ∧ domOn unclassed 13 = true ∧
    portRate linked 0 ≤ admitted { linked with net := { admitted := [(0, 0, 65535)] } } 0 ∧
    (∀ p, p < 3 → intakeFit linked = false ∧ tget (fun _ => 0) opened.net.stops p = 0) ∧ intakeFit opened = true ∧
    (∀ t ∈ [true, false], ({ opened with lat := { opened.lat with throttle := t } } : State).lat.throttle = t) ∧
    safeHalt linked = false ∧ safeHalt (withF linked [(SUP_STATUS, SUP_STATUS_SAFEHALT, 1)]) = true := by decide +kernel

theorem witness_FramesAndPorts_datagram : carries frameB (rxFrame linked 0 (frameA ++ frameB ++ frameC)) = true := by
  have hn : (frameA ++ frameB ++ frameC).take ((frameA ++ frameB ++ frameC).length - 4) = frameA ++ frameB := by decide +kernel
  have hd : (frameA ++ frameB ++ frameC).drop ((frameA ++ frameB ++ frameC).length - 4) = frameC := by decide +kernel
  simp only [rxFrame, hn, hd, crc_frame]
  decide +kernel

/-- A dispatch of port 0 for transaction 9 with its receipt packet in queue 0xF_FF00; entry 0 of the classifier takes session 5. -/
def dispatched (s : State) (p : Nat) (r : List Word) : State :=
  withPacket (withPacket s 0xFFF00 r) (0xFF510 + p) [9, 0, 0x1FFF00]

def receipt (v : Nat) : List Word := 9 :: packBytes (datagramOf v 1)

/-- What the dispatch of port p finds: the state after its pops, the receipt. -/
def receiptAt (s : State) (p : Nat) : Option (List Byte) × State :=
  let a := popPacket s ethRouter (0xFF510 + p) .none
  let b := popPacket a.2 ethRouter 0xFFF00 .none
  (if a.1.bad || b.1.bad || b.1.words = [] then none else receiptOf 9 b.1, b.2)

theorem witness_Egress :
    (let s := withPacket linked 0xFF510 [9, 0, 0];
      egressReady s 0 = true ∧ (popPacket s ethRouter 0xFF510 .descriptor).1.words = [] ∧ (popPacket s ethRouter 0xFF510 .none).1.words ≠ [] ∧
        (popPacket s ethRouter 0xFF510 (.parity 1 3)).1.bad = true) ∧
    (∀ n ∈ [16, 17], ({ linked with net := { sent := List.replicate n [] } } : State).net.sent.length = n) ∧
    (let s := withPacket linked 0xFF510 [1, 2];
      egressReady s 0 = true ∧ peekLen s 0xFF510 < 3) ∧
    (let s := withPacket linked 0xFF510 [9, 0, 0];
      egressReady s 0 = true ∧ peekLen s 0xFF510 = 3 ∧ (popPacket s ethRouter 0xFF510 .none).1.bad = false) ∧
    (let s := dispatched linked 0 (receipt 5);
      egressReady s 0 = true ∧ (popPacket s ethRouter 0xFF510 .none).1.words.getD 2 0 = 0x1FFF00 ∧
        (receiptAt s 0).1 = some (datagramOf 5 1) ∧ egressDown (receiptAt s 0).2 0 = false ∧
        classify (receiptAt s 0).2 5 = some 0 ∧ tget (fun _ => none) (receiptAt s 0).2.net.peers 0 = none) ∧
    (let s := dispatched unclassed 0 (receipt 6);
      (receiptAt s 0).1 = some (datagramOf 6 1) ∧ classify (receiptAt s 0).2 6 = none) ∧
    (receiptAt (dispatched linked 0 [9, 1]) 0).1 = none ∧
    egressDown (receiptAt (dispatched clocked? 0 (receipt 5)) 0).2 0 = true := by decide +kernel

/-- The serial port running, station address 0. -/
def serial : State := withF linked [(SER_CFG, SER_CFG_EN, 1), (CLK_SRC 15, CLK_SRC_CUR, 1)]

theorem witness_Egress_raw :
    (let s := withPacket linked 0xFF510 (60 :: List.replicate 15 0);
      egressReady s 0 = true ∧ peekLen s 0xFF510 = 16 ∧ rawBytes 0 (popPacket s ethRouter 0xFF510 .none).1 = some (List.replicate 60 0) ∧
        egressDown (popPacket s ethRouter 0xFF510 .none).2 0 = false) ∧
    rawBytes 0 (popPacket (withPacket linked 0xFF510 (61 :: List.replicate 15 0)) ethRouter 0xFF510 .none).1 = none ∧
    egressReady (dispatched serial 2 (receipt 5)) 2 = true ∧ egressDown (receiptAt (dispatched serial 2 (receipt 5)) 2).2 2 = false ∧
    (receiptAt (dispatched serial 2 (receipt 5)) 2).1 = some (datagramOf 5 1) := by decide +kernel

/-- A serial frame with its FCS. -/
def serialOf (b : List Byte) : List Byte := b ++ leBytes 2 (fcs16 b)

theorem witness_SerialLine : serRuns serial = true ∧ getF serial SER_CFG SER_CFG_ADR = 0 ∧
    (∀ c ∈ [0, 1, 2, 3, 4, 5, 6, 16], let b := serialOf ([0, BitVec.ofNat 8 c] ++ datagramOf 5 0);
      4 ≤ b.length ∧ b.length ≤ 1076 ∧ fcs16 (b.take (b.length - 2)) = leNat (b.drop (b.length - 2)) ∧ beAt b 0 1 = 0 ∧ beAt b 1 1 = c ∧
        datagramOk ((b.take (b.length - 2)).drop 2) = true) ∧
    (let b := serialOf [1, 0]; fcs16 (b.take (b.length - 2)) = leNat (b.drop (b.length - 2)) ∧ beAt b 0 1 = 1) ∧
    (let b : List Byte := [0, 0, 0, 0]; fcs16 (b.take 2) ≠ leNat (b.drop 2)) ∧ datagramOk [] = false ∧
    ([true] : List Bool).length % 8 ≠ 0 ∧ ([0, 0] : List Byte).length < 4 ∧ beAt [0, 16] 1 1 = 16 ∧
    portRate serial 2 ≤ admitted serial 2 ∧ serial.net.sent = [] ∧
    (∀ p ∈ [(opened, true), (serial, false)], (intakeFit p.1 = true ∧ tget (fun _ => 0) p.1.net.stops 2 = 0) ↔ p.2 = true) ∧
    opened.lat.throttle = false ∧ classify opened 5 = some 0 ∧ classify unclassed 6 = none ∧ opened.net.sent = [] ∧ safeHalt serial = false ∧
    safeHalt (withF serial [(SUP_STATUS, SUP_STATUS_SAFEHALT, 1)]) = true ∧ serRuns (withF serial [(SUP_STATUS, SUP_STATUS_SAFEHALT, 1)]) = true := by decide +kernel

/-- A DATA frame whose bytes need stuffing, and a POLL after it, are read back from the levels of the line; seven 1s abort. -/
theorem test_line_coding :
    let l : List (List Byte) := [[0, 0xFF, 0x7E, 0xF8], [1, 3, 0x1F]]
    lineItems 0 none (nrziIn true (lineOf l)) = l.map (fun b => .frame (lineBits b)) ∧
    lineItems 0 none (lineFlag ++ stuffed 0 (lineBits [0xF8]) ++ List.replicate 7 true) = [.abort] ∧
    lineBytes 4 (lineBits [0, 0xFF, 0x7E, 0xF8]) = [0, 0xFF, 0x7E, 0xF8] := by decide +kernel

/-! ### Tamper, audit, debug -/

theorem witness_TamperAndIsland :
    let s := clocked?
    s.islandOff = false ∧ tamperActed s 0 = false ∧ tamperActed s 1 = false ∧ tamperActed s 2 = false ∧
      (∀ b ∈ [0, 1], flag (withF s [(TMP_CTL, TMP_CTL_LOOPEN, b)]) TMP_CTL TMP_CTL_LOOPEN = decide (b = 1)) ∧
      400 < (401 : BitVec 12).toNat ∧ (500 : BitVec 12).toNat ≤ 500 ∧ (543 : BitVec 12).toNat < 544 ∧ 2544 < (2545 : BitVec 12).toNat ∧
      544 ≤ (544 : BitVec 12).toNat ∧ (2544 : BitVec 12).toNat ≤ 2544 ∧ (1049 : BitVec 16).toNat < 1050 ∧ 1400 < (1401 : BitVec 16).toNat ∧
      tamperActed { s with tacted := [(2, true)] } 2 = true ∧ reaches? s 0 TMP_CTL = true ∧
      reachesWith (withF s [(TMP_STATUS, TMP_STATUS_LOOPOPEN, 1)]) 0 TMP_CTL (fun u => !u.islandOff && flag u TMP_STATUS TMP_STATUS_LOOPOPEN) = true ∧
      reaches? { s with vbatIn := true } 0 TMP_STATUS = true ∧
      (∀ v ∈ [true, false], let e := withF { s with vbatIn := v } [(TMP_STATUS, TMP_STATUS_BATGONE, 1)]
        flag e TMP_STATUS TMP_STATUS_BATGONE = true ∧ e.vbatIn = v ∧ e.islandOff = false) ∧
      { s with islandOff := true }.islandOff = true := by decide +kernel

theorem witness_AuditPort : (∀ c ∈ [1, 2, 4], (BitVec.ofNat 32 (c * 2 ^ 24)).toNat / 2 ^ 24 = c) ∧ (0x05000000 : Word).toNat / 2 ^ 24 ∉ [1, 2, 3, 4] ∧
    (∀ l ∈ [[], [{ count := 1, kind := 0, status := 0, sub := 0, value := 5 }]], ({ clocked? with aud := { clocked?.aud with trace := l } } : State).aud.trace = l) ∧ 4 ≤ (4 : BitVec 16).toNat ∧
    reaches? clocked? 0 AUD_TRCSEL = true ∧ 3 < summaryRegs.length ∧
    (clocked?.aud.trace.length ≤ 4096) := by decide +kernel

theorem witness_DebugAndTestPort :
    let s := withF (withCore (coreOf [])) [(CLK_EN, CLK_EN_EN, 0x3FFFF)]
    let h := setT s 0 { getT s 0 with halted := true }
    unsealed s = true ∧ triadLive s 0 = true ∧ flag s (SUP_TRIAD 0) SUP_TRIAD_PAUSED = false ∧
      (getT s 0).halted = false ∧ (getT s 0).waiting = false ∧ { getT s 0 with waiting := true }.waiting = true ∧
      (∀ y ∈ [{ getT s 0 with stepping := true }, { getT s 0 with haltAt := some (getT s 0).rcount },
        { getT s 0 with haltAt := some 64, waiting := true }], y.stepping = true ∨ y.haltAt = some y.rcount ∨ y.haltAt ≠ none ∧ y.waiting = true) ∧
      h.aud.release = none ∧
      reaches? s 0 DBG_CTL = true ∧ reaches? s 0 DBG_ACC = true ∧ (getT h 0).halted = true ∧ getF h DBG_CTL DBG_CTL_TRIAD = 0 ∧
      flag (withF h [(DBG_ACC, DBG_ACC_WRITE, 1)]) DBG_ACC DBG_ACC_WRITE = true ∧ flag h DBG_ACC DBG_ACC_WRITE = false ∧
      getF h DBG_ACC DBG_ACC_PORT = 0 ∧ { h with aud := { h.aud with acc := true } }.aud.acc = true ∧
      (let e := withF s [(SUP_TRIAD 0, SUP_TRIAD_PAUSED, 1)]; flag e (SUP_TRIAD 0) SUP_TRIAD_PAUSED = true ∧ unsealed e = true ∧
        triadLive e 0 = true) ∧
      (let e := withF s [(MOD_STATUS, MOD_STATUS_SEALED, 1)]; unsealed e = false ∧ reaches? e 0 DBG_CTL = true ∧
        reaches? e 0 DBG_ACC = true) ∧
      getF (withF h [(DBG_ACC, DBG_ACC_PORT, 0xDE)]) DBG_ACC DBG_ACC_PORT = 0xDE ∧
      (srcIllegal (.port 0)).isSome = false ∧ (dstIllegal 0).isSome = false ∧ isTrigger 0 = false ∧
      reg s DBG_STAT = 0 ∧ getByte s (0x33110000 + 128 * 4) ≠ 0xA5 ∧
      DBG_CTL ≤ 0x400D0000 + bitsOf (BitVec.ofNat 48 ((DBG_CTL - 0x400D0000) * 2 ^ 32)).toNat 46 32 := by decide +kernel

/-! ### The queue and the whole machine -/

/-- A command waits; the invariant of intake holds at reset; a kernel edge, with no debug access asked, answers a next state. -/
theorem witness_StepRunsFrontCommand : { State.reset with pending := [.kernelEdge 0 0] }.pending = [.kernelEdge 0 0] ∧
    State.reset.pending = [] ∧ pulsing State.reset = false ∧ State.reset.net.driving = false ∧
    ({ State.reset with net := { driving := true } } : State).net.driving = true := by decide +kernel

/-- The reset state is canonical, and its step answers a next state; so does the step of one with a command waiting. -/
theorem witness_CanonicalState : State.reset.wf = true ∧ (match step State.reset with | .next _ => true | _ => false) = true ∧
    (match step { State.reset with pending := [.kernelEdge 0 0] } with | .next _ => true | _ => false) = true := by decide +kernel

theorem witness_IntakeInvariant : flag State.reset MOD_STATUS MOD_STATUS_READY = false ∧
    flag State.reset MOD_STATUS MOD_STATUS_INTAKE = false := by decide +kernel

theorem witness_BlockCommandsFrame : State.reset.aud.acc = false ∧ after (.kernelEdge 0 0) State.reset (fun _ => true) = true := by
  decide +kernel

end Sys2Proof.Tests
end

namespace Sys2Proof.Machine

/-! ### Register accesses: fields by their access type (R7, R9, R10) -/

theorem testBit_bitsOf (w hi lo i : Nat) : (bitsOf w hi lo).testBit i = (decide (i < hi + 1 - lo) && w.testBit (i + lo)) := by
  simp [bitsOf, Nat.testBit_mod_two_pow, Nat.testBit_div_two_pow]

/-- A field depends on the word's bits within it alone. -/
theorem bitsOf_congr {w x hi lo : Nat} (h : ∀ i, lo ≤ i → i ≤ hi → w.testBit i = x.testBit i) :
    bitsOf w hi lo = bitsOf x hi lo := by
  refine Nat.eq_of_testBit_eq fun i => ?_
  rw [testBit_bitsOf, testBit_bitsOf]
  by_cases hi' : i < hi + 1 - lo
  · rw [h (i + lo) (by omega) (by omega)]
  · simp [hi']

theorem bitsOf_bitsPut_apart (w v : Nat) {f g : Fld} (hf : f.lo ≤ f.hi) (h : f.hi < g.lo ∨ g.hi < f.lo) :
    bitsOf (bitsPut w f.hi f.lo v) g.hi g.lo = bitsOf w g.hi g.lo :=
  bitsOf_congr fun i h1 h2 => by rw [testBit_bitsPut _ _ _ hf, if_neg (by omega)]

/-- A field within 32 bits is not cut when its register is stored as a word. -/
theorem bitsOf_toNat_ofNat (n : Nat) {hi : Nat} (lo : Nat) (h : hi < 32) :
    bitsOf (BitVec.ofNat 32 n).toNat hi lo = bitsOf n hi lo :=
  bitsOf_congr fun i _ h2 => by
    rw [BitVec.toNat_ofNat, Nat.testBit_mod_two_pow, decide_eq_true (Nat.lt_of_le_of_lt h2 h), Bool.true_and]

theorem testBit_sub_and (n m i : Nat) : (n - (n &&& m)).testBit i = (n.testBit i && !m.testBit i) := by
  induction i generalizing n m with
  | zero =>
    have hle : n &&& m ≤ n := Nat.and_le_left
    have hmod := @Nat.and_mod_two_eq_one n m
    simp only [Nat.testBit_zero]
    grind
  | succ i ih =>
    have hhalf : (n - (n &&& m)) / 2 = n / 2 - (n / 2 &&& m / 2) := by
      have hle : n &&& m ≤ n := Nat.and_le_left
      have hmod := @Nat.and_mod_two_eq_one n m
      rw [← Nat.and_div_two]
      omega
    rw [Nat.testBit_add_one, Nat.testBit_add_one, Nat.testBit_add_one, hhalf, ih]

/-! #### Lists of fields -/

/-- The fields of a register lie within its 32 bits, hold their reset values, and share no bit. -/
structure FldsOk (l : List Fld) : Prop where
  shape : ∀ f ∈ l, f.lo ≤ f.hi ∧ f.hi < 32 ∧ f.rst < 2 ^ (f.hi + 1 - f.lo)
  apart : l.Pairwise (fun f g => f.hi < g.lo ∨ g.hi < f.lo)

/-- Bit i belongs to no field of the list: it is reserved (R10). -/
def ReservedBit (l : List Fld) (i : Nat) : Prop := ∀ g ∈ l, i < g.lo ∨ g.hi < i

/-- Each field f of the list with `p f = some v` is replaced by v: what a write, a read's answer and a read's clearing share. -/
def putFields (p : Fld → Option Nat) : List Fld → Nat → Nat
  | [], w => w
  | f :: r, w =>
    match p f with
    | some v => bitsPut (putFields p r w) f.hi f.lo v
    | none => putFields p r w

theorem afterWrite_eq_putFields (k : Bool) (l : List Fld) (cur w : Nat) :
    afterWrite k l cur w =
      putFields (fun f => some (fldWrite k f (bitsOf cur f.hi f.lo) (bitsOf w f.hi f.lo))) l cur := by
  induction l with
  | nil => rfl
  | cons f r ih => simp only [afterWrite, putFields, ih]

theorem afterRead_eq_putFields (l : List Fld) (w : Nat) :
    afterRead l w = putFields (fun f => if f.ty = .rc then some f.rst else none) l w := by
  induction l with
  | nil => rfl
  | cons f r ih => by_cases h : f.ty = .rc <;> simp only [afterRead, putFields, ih, h, if_true, if_false]

theorem readMask_eq_putFields (l : List Fld) (w : Nat) :
    readMask l w = putFields (fun f => if f.ty = .wo then none else some (bitsOf w f.hi f.lo)) l 0 := by
  induction l with
  | nil => rfl
  | cons f r ih => by_cases h : f.ty = .wo <;> simp only [readMask, putFields, ih, h, if_true, if_false]

theorem testBit_putFields_reserved (p : Fld → Option Nat) {l : List Fld} (w : Nat) {i : Nat} (hl : ∀ f ∈ l, f.lo ≤ f.hi)
    (hi : ReservedBit l i) : (putFields p l w).testBit i = w.testBit i := by
  induction l with
  | nil => rfl
  | cons f r ih =>
    have hr : (putFields p r w).testBit i = w.testBit i :=
      ih (fun g hg => hl g (.tail _ hg)) (fun g hg => hi g (.tail _ hg))
    have hf := hi f (.head _)
    unfold putFields
    split
    · rw [testBit_bitsPut _ _ _ (hl f (.head _)), if_neg (by omega), hr]
    · exact hr

/-- A field of the list holds what was put there, or what it held. -/
theorem bitsOf_putFields (p : Fld → Option Nat) {l : List Fld} (w : Nat) {f : Fld} (hl : FldsOk l) (hf : f ∈ l) :
    bitsOf (putFields p l w) f.hi f.lo = (p f).elim (bitsOf w f.hi f.lo) (· % 2 ^ (f.hi + 1 - f.lo)) := by
  induction l with
  | nil => cases hf
  | cons g r ih =>
    obtain ⟨shape, apart⟩ := hl
    obtain ⟨hgr, hr⟩ := List.pairwise_cons.1 apart
    have shapeR : ∀ f ∈ r, f.lo ≤ f.hi ∧ f.hi < 32 ∧ f.rst < 2 ^ (f.hi + 1 - f.lo) := fun x hx => shape x (.tail _ hx)
    have hg : g.lo ≤ g.hi := (shape g (.head _)).1
    rcases List.mem_cons.1 hf with rfl | hfr
    · cases hp : p f with
      | some v => simp only [putFields, hp, Option.elim_some, bitsOf_bitsPut_same _ _ hg]
      | none =>
        simp only [putFields, hp, Option.elim_none]
        refine bitsOf_congr fun i h1 h2 => testBit_putFields_reserved p w (fun x hx => (shapeR x hx).1) fun x hx => ?_
        have := hgr x hx
        omega
    · rw [← ih ⟨shapeR, hr⟩ hfr]
      cases hp : p g with
      | some v => simp only [putFields, hp, bitsOf_bitsPut_apart _ _ hg (hgr f hfr)]
      | none => simp only [putFields, hp]

/-! #### One field's write -/

/-- A written field's new value fits it. -/
theorem fldWrite_lt (k : Bool) (f : Fld) {old new n : Nat} (ho : old < 2 ^ n) (hn : new < 2 ^ n) :
    fldWrite k f old new < 2 ^ n := by
  unfold fldWrite
  split
  case h_1 => exact hn
  case h_2 => split <;> assumption
  case h_3 => exact Nat.lt_of_le_of_lt (Nat.sub_le _ _) ho
  case h_4 => exact Nat.or_lt_two_pow ho hn
  all_goals exact ho

/-! #### Registers -/

/-- Every register of the map is well formed. -/
theorem regRows_fldsOk : ∀ r ∈ regRows, FldsOk r.flds := by
  have h : ∀ r ∈ regRows, (∀ f ∈ r.flds, f.lo ≤ f.hi ∧ f.hi < 32 ∧ f.rst < 2 ^ (f.hi + 1 - f.lo)) ∧
      r.flds.Pairwise (fun f g => f.hi < g.lo ∨ g.hi < f.lo) := by decide +kernel
  exact fun r hr => ⟨(h r hr).1, (h r hr).2⟩

theorem fldsOk_of_regRow {a : Nat} {r : RegRow} (h : regRow? a = some r) : FldsOk r.flds :=
  regRows_fldsOk r (List.mem_of_find?_eq_some h)

theorem plainWrite_of_row {a : Nat} {r : RegRow} (h : regRow? a = some r) (s : State) (v : Word) :
    plainWrite s a v = setReg s a (BitVec.ofNat 32 (afterWrite (weaveLocked s) r.flds (reg s a).toNat v.toNat)) := by
  unfold plainWrite
  rw [h]

theorem plainRead_of_row {a : Nat} {r : RegRow} (h : regRow? a = some r) (s : State) :
    plainRead s a = (BitVec.ofNat 32 (readMask r.flds (reg s a).toNat),
      setReg s a (BitVec.ofNat 32 (afterRead r.flds (reg s a).toNat))) := by
  unfold plainRead
  rw [h]

/-- An offset that no register occupies ignores writes (R11). -/
theorem plainWrite_of_no_row {a : Nat} (h : regRow? a = none) (s : State) (v : Word) : plainWrite s a v = s := by
  unfold plainWrite
  rw [h]

/-- An offset that no register occupies reads as zero (R11). -/
theorem plainRead_of_no_row {a : Nat} (h : regRow? a = none) (s : State) : plainRead s a = (0, s) := by
  unfold plainRead
  rw [h]

section
variable {a : Nat} {r : RegRow} (h : regRow? a = some r) (s : State)
include h

/-- R7: a write acts on each field by its type. -/
theorem getF_plainWrite (v : Word) {f : Fld} (hf : f ∈ r.flds) :
    getF (plainWrite s a v) a f = fldWrite (weaveLocked s) f (getF s a f) (bitsOf v.toNat f.hi f.lo) := by
  have ok := fldsOk_of_regRow h
  unfold getF
  rw [plainWrite_of_row h, reg_setReg_same, bitsOf_toNat_ofNat _ _ (ok.shape f hf).2.1, afterWrite_eq_putFields,
    bitsOf_putFields _ _ ok hf]
  exact Nat.mod_eq_of_lt (fldWrite_lt _ _ (bitsOf_lt _ _ _) (bitsOf_lt _ _ _))

/-- R7: a read returns every field but those of type WO, which read zero. -/
theorem bitsOf_plainRead {f : Fld} (hf : f ∈ r.flds) :
    bitsOf (plainRead s a).1.toNat f.hi f.lo = if f.ty = .wo then 0 else getF s a f := by
  have ok := fldsOk_of_regRow h
  rw [plainRead_of_row h, bitsOf_toNat_ofNat _ _ (ok.shape f hf).2.1, readMask_eq_putFields, bitsOf_putFields _ _ ok hf]
  split
  · simp [bitsOf]
  · exact Nat.mod_eq_of_lt (bitsOf_lt _ _ _)

/-- R7, R9: a read clears the fields of type RC to their reset values and leaves the others. -/
theorem getF_plainRead {f : Fld} (hf : f ∈ r.flds) :
    getF (plainRead s a).2 a f = if f.ty = .rc then f.rst else getF s a f := by
  have ok := fldsOk_of_regRow h
  unfold getF
  rw [plainRead_of_row h, reg_setReg_same, bitsOf_toNat_ofNat _ _ (ok.shape f hf).2.1, afterRead_eq_putFields,
    bitsOf_putFields _ _ ok hf]
  split
  · exact Nat.mod_eq_of_lt (ok.shape f hf).2.2
  · rfl

theorem reg_plainWrite_reserved (v : Word) {i : Nat} (hi : i < 32) (hr : ReservedBit r.flds i) :
    (reg (plainWrite s a v) a).getLsbD i = (reg s a).getLsbD i := by
  rw [plainWrite_of_row h, reg_setReg_same, BitVec.getLsbD_ofNat, afterWrite_eq_putFields,
    testBit_putFields_reserved _ _ (fun f hf => ((fldsOk_of_regRow h).shape f hf).1) hr, decide_eq_true hi, Bool.true_and]
  rfl

theorem plainRead_reserved {i : Nat} (hr : ReservedBit r.flds i) : (plainRead s a).1.getLsbD i = false := by
  rw [plainRead_of_row h, BitVec.getLsbD_ofNat, readMask_eq_putFields,
    testBit_putFields_reserved _ _ (fun f hf => ((fldsOk_of_regRow h).shape f hf).1) hr, Nat.zero_testBit, Bool.and_false]

theorem reg_plainRead_reserved {i : Nat} (hi : i < 32) (hr : ReservedBit r.flds i) :
    (reg (plainRead s a).2 a).getLsbD i = (reg s a).getLsbD i := by
  rw [plainRead_of_row h, reg_setReg_same, BitVec.getLsbD_ofNat, afterRead_eq_putFields,
    testBit_putFields_reserved _ _ (fun f hf => ((fldsOk_of_regRow h).shape f hf).1) hr, decide_eq_true hi, Bool.true_and]
  rfl

theorem reg_plainWrite_other (v : Word) {b : Nat} (hb : b ≠ a) : reg (plainWrite s a v) b = reg s b := by
  rw [plainWrite_of_row h, reg_setReg_other _ _ hb]

theorem reg_plainRead_other {b : Nat} (hb : b ≠ a) : reg (plainRead s a).2 b = reg s b := by
  rw [plainRead_of_row h, reg_setReg_other _ _ hb]

end

/-- Settles O27: each clause is the equation of the access for the field's type (`getF_plainWrite`, `bitsOf_plainRead`,
`getF_plainRead`), for the reserved bits, or for the other registers. -/
theorem fieldTypes : Obligations.FieldTypes := by
  unfold Obligations.FieldTypes
  intro s a v r f h hf
  refine ⟨?rw, ?lk, ?w1c, ?w1s, ?ignored, bitsOf_plainRead h s hf, getF_plainRead h s hf, ?reserved, ?others⟩
  case rw => intro ty; rw [getF_plainWrite h s v hf, fldWrite, ty]
  case lk => intro ty; rw [getF_plainWrite h s v hf, fldWrite, ty]
  case w1c => intro ty i; rw [getF_plainWrite h s v hf, fldWrite, ty]; exact testBit_sub_and _ _ i
  case w1s => intro ty i; rw [getF_plainWrite h s v hf, fldWrite, ty]; exact Nat.testBit_or _ _ i
  case ignored => rintro (ty | ty | ty) <;> rw [getF_plainWrite h s v hf, fldWrite, ty]
  case reserved =>
    exact fun i hi hr => ⟨plainRead_reserved h s hr, reg_plainWrite_reserved h s v hi hr, reg_plainRead_reserved h s hi hr⟩
  case others => exact fun b hb => ⟨reg_plainWrite_other h s v hb, reg_plainRead_other h s hb⟩

/-! ### Register accesses that reach their block, holes and refused writes (R6, R11, R25, R248, R514, R516) -/

/-- A register write's own effect is the write at its place. -/
theorem does_registerWrite (m : BitVec 6) (p : Place) (v : Word) (be : BitVec 4) (s : State) :
    Does (.registerWrite m p v be) s (placeWrite s m.toNat p v be) := rfl

/-- A register read's own effect is the read at its place. -/
theorem does_registerRead (m : BitVec 6) (p : Place) (s : State) :
    Does (.registerRead m p) s (placeRead s m.toNat p) := rfl

/-- A host access that the bridge accepts and that no fence holds is carried out at once. -/
theorem hostAccess_ready {s : State} (hr : hostReady s = true) (hf : s.lat.fences = 0) (x : HeldAccess) :
    hostAccess s x = performHeld s x := by
  simp [hostAccess, hr, hf]

theorem placeWrite_host {s : State} (hr : hostReady s = true) (hf : s.lat.fences = 0) (a v : Word) (be : BitVec 4) :
    placeWrite s 36 (.fabric a) v be = hostWrite s (a.toNat / 4 * 4) v be := by
  rw [placeWrite, if_pos rfl, hostAccess_ready hr hf, performHeld]

theorem placeRead_host {s : State} (hr : hostReady s = true) (hf : s.lat.fences = 0) (a : Word) :
    placeRead s 36 (.fabric a) = performRead s 36 (a.toNat / 4 * 4) := by
  rw [placeRead, if_pos rfl, hostAccess_ready hr hf, performHeld]

theorem placeWrite_other {m : Nat} (hm : m ≠ 36) (s : State) (a v : Word) (be : BitVec 4) :
    placeWrite s m (.fabric a) v be = performWrite s m (a.toNat / 4 * 4) v := by
  rw [placeWrite, if_neg hm]

theorem placeRead_other {m : Nat} (hm : m ≠ 36) (s : State) (a : Word) :
    placeRead s m (.fabric a) = performRead s m (a.toNat / 4 * 4) := by
  rw [placeRead, if_neg hm]

/-- A partial write of the host outside the MRAM window is discarded and counted (R514). -/
theorem hostWrite_partial {a : Nat} {be : BitVec 4} (hbe : be ≠ 15) (ha : regionOf a ≠ .mram) (s : State) (v : Word) :
    hostWrite s a v be = hbErr s HB_ERR_PARTIAL := by
  rw [hostWrite, if_pos (by rw [Bool.and_eq_true, bne_iff_ne, bne_iff_ne]; exact ⟨hbe, ha⟩)]

/-- Any other write of the host reaches the fabric. -/
theorem hostWrite_whole {a : Nat} {be : BitVec 4} (h : be = 15 ∨ regionOf a = .mram) (s : State) (v : Word) :
    hostWrite s a v be = performWrite s 36 a v := by
  rcases h with h | h <;> simp [hostWrite, h]

/-- A write into the MRAM window is refused for every master but the cores (R248, R516). -/
theorem performWrite_mram {a m : Nat} (ha : regionOf a = .mram) (hm : 32 ≤ m) (s : State) (v : Word) :
    performWrite s m a v = drainWindowWrite s m := by
  simp [performWrite, ha, hm]

/-- The host's refused write is counted and discarded (R516). -/
theorem drainWindowWrite_host (s : State) : drainWindowWrite s 36 = incSat s LAT_STATUS LAT_STATUS_MWERR 1 := by
  rw [drainWindowWrite, if_pos rfl]

theorem busError_other {m : Nat} (hm : m ≠ 36) (s : State) : busError s m = { s with rstat := 2 } := if_neg hm

/-- Another master's refused write is counted and answered with an error (R248). -/
theorem drainWindowWrite_other {m : Nat} (hm : m ≠ 36) (s : State) :
    drainWindowWrite s m = { incSat s LAT_STATUS LAT_STATUS_MWERR 1 with rstat := 2 } := by
  rw [← busError_other hm]
  exact if_neg hm

/-- R25: the host's access to a hole returns 0 and is counted. -/
theorem busHole_host (s : State) :
    busHole s 36 = incSat { s with rdata := 0, rstat := 0 } MOD_HOLECNT MOD_HOLECNT_COUNT 1 := if_pos rfl

theorem performRead_hole {a : Nat} (ha : regionOf a = .hole) (s : State) (m : Nat) : performRead s m a = busHole s m := by
  simp [performRead, ha]

/-- A write that reaches its block is the block's write. -/
theorem performWrite_reaches {s u : State} {m a : Nat} (h : Reaches s m a u) (hd : regionOf a = .device)
    (hf : ¬ (m = 36 ∧ a = LAT_HFENCE)) (v : Word) : performWrite s m a v = { deviceWrite u m a v with rstat := 0 } := by
  simp [performWrite, devWrite, hd, h.block, hf]

/-- A read that reaches its block is the block's read. -/
theorem performRead_reaches {s u : State} {m a : Nat} (h : Reaches s m a u) (hd : regionOf a = .device) :
    performRead s m a = { (deviceRead u a).2 with rdata := (deviceRead u a).1, rstat := 0 } := by
  simp [performRead, devRead, hd, h.block]

/-- A write at a device's address, whole when it is the host's, reaches the fabric for a master whose access reaches its block. -/
theorem placeWrite_reaches {s u : State} {m : Nat} {a : Word} {be : BitVec 4} (h : Reaches s m (a.toNat / 4 * 4) u)
    (hbe : m = 36 → be = 15) (v : Word) :
    placeWrite s m (.fabric a) v be = performWrite s m (a.toNat / 4 * 4) v := by
  by_cases hm : m = 36
  · obtain ⟨hr, hf⟩ := h.host hm
    subst hm
    rw [placeWrite_host hr hf, hostWrite_whole (.inl (hbe rfl))]
  · exact placeWrite_other hm s a v be

theorem placeRead_reaches {s u : State} {m : Nat} {a : Word} (h : Reaches s m (a.toNat / 4 * 4) u) :
    placeRead s m (.fabric a) = performRead s m (a.toNat / 4 * 4) := by
  by_cases hm : m = 36
  · obtain ⟨hr, hf⟩ := h.host hm
    subst hm
    exact placeRead_host hr hf a
  · exact placeRead_other hm s a

/-- The supervisor block's writes are by the fields' types alone. -/
theorem deviceWrite_supervisors {a : Nat} (h : 0x40080000 ≤ a ∧ a < 0x40090000) (s : State) (m : Nat) (v : Word) :
    deviceWrite s m a v = plainWrite s a v := by
  have hblock : (a - 0x40000000) / 0x10000 = 8 := by omega
  rw [deviceWrite, if_pos (by omega), hblock]
  rfl

theorem toNat_eq_host_iff (m : BitVec 6) : m.toNat = 36 ↔ m = 36 := BitVec.toNat_inj (y := 36)

/-- Settles O28: the master's access at its place is an access of the fabric, and each clause is the one branch of the fabric's
access that its premises select. -/
theorem registerAccesses : Obligations.RegisterAccesses := by
  unfold Obligations.RegisterAccesses
  intro m a v be s u
  refine ⟨?device, ?hole, ?host, ?engines⟩
  case device =>
    intro hd hbe hf hreach
    rw [← toNat_eq_host_iff] at hbe hf
    refine ⟨?_, ?_, fun hb => deviceWrite_supervisors hb u _ v,
      fun hn => ⟨plainWrite_of_no_row hn u v, plainRead_of_no_row hn u⟩⟩
    · rw [Writes, ← performWrite_reaches hreach hd hf, ← placeWrite_reaches hreach hbe]
      exact does_registerWrite m (.fabric a) v be s
    · rw [Reads, ← performRead_reaches hreach hd, ← placeRead_reaches hreach]
      exact does_registerRead m (.fabric a) s
  case hole =>
    intro hr hf _ ha
    rw [← busHole_host, ← performRead_hole ha, ← placeRead_host hr hf]
    exact does_registerRead 36 (.fabric a) s
  case host =>
    refine fun hr hf => ⟨fun hbe ha => ?_, fun ha => ?_⟩
    · rw [← hostWrite_partial hbe ha s v, ← placeWrite_host hr hf]
      exact does_registerWrite 36 (.fabric a) v be s
    · rw [← drainWindowWrite_host, ← performWrite_mram ha (by decide) s v, ← hostWrite_whole (be := be) (.inr ha),
        ← placeWrite_host hr hf]
      exact does_registerWrite 36 (.fabric a) v be s
  case engines =>
    intro hm32 hm ha
    have hm' : m.toNat ≠ 36 := mt (toNat_eq_host_iff m).1 hm
    rw [← drainWindowWrite_other hm', ← performWrite_mram ha hm32 s v, ← placeWrite_other hm' s a v be]
    exact does_registerWrite m (.fabric a) v be s

end Sys2Proof.Machine

namespace Sys2Proof.Machine

/-! ### INTAKE when a command ends (R26) -/

/-- R26: INTAKE is 0 wherever SAFEHALT or KEYLOST is 1 or READY is 0. -/
def IntakeShut (s : State) : Prop :=
  flag s MOD_STATUS MOD_STATUS_SAFEHALT = true ∨ flag s MOD_STATUS MOD_STATUS_KEYLOST = true ∨
    flag s MOD_STATUS MOD_STATUS_READY = false → flag s MOD_STATUS MOD_STATUS_INTAKE = false

theorem flag_congr_csr {s u : State} (h : u.csr = s.csr) (a : Nat) (f : Fld) : flag u a f = flag s a f := by
  simp only [flag, getF, reg, h]

theorem intakeShut_congr {s u : State} (h : u.csr = s.csr) : IntakeShut u ↔ IntakeShut s := by
  simp only [IntakeShut, flag_congr_csr h]

theorem intakeHolds_intakeShut (s : State) : IntakeShut (intakeHolds s) := by
  unfold intakeHolds
  split
  case isTrue => exact fun _ => flag_setFlag_same s MOD_STATUS false rfl (by decide)
  case isFalse hopen =>
    intro hcause
    simp only [Bool.or_eq_true, Bool.not_eq_true', or_assoc] at hopen
    exact absurd hcause hopen

theorem latchVote_csr (s : State) (d : Nat) : (latchVote s d).csr = s.csr := by
  unfold latchVote
  split <;> rfl

theorem foldl_latchVote_csr (l : List Nat) (s : State) : (l.foldl latchVote s).csr = s.csr :=
  List.foldlRecOn (motive := fun u => u.csr = s.csr) l latchVote rfl fun u hu d _ => (latchVote_csr u d).trans hu

@[simp] theorem padsOut_csr (s u : State) : (padsOut s u).csr = s.csr := rfl
@[simp] theorem withReactions_csr (s u : State) : (withReactions s u).csr = u.csr := rfl

theorem padsSync_csr (s : State) : (padsSync s).csr = s.csr := by rw [padsSync_rest, padsOut_csr]

theorem settle_csr (s : State) : (settle s).csr = (reactions (haltsDue s)).csr := by
  rw [settle_eq, padsSync_csr, withReactions_csr]

/-- The last of the card's reactions that reaches a register holds INTAKE. -/
theorem reactions_csr (s : State) : ∃ u, (reactions s).csr = (intakeHolds u).csr := by
  unfold reactions
  exact ⟨_, foldl_latchVote_csr (List.range 18) _⟩

theorem settle_intakeShut (s : State) : IntakeShut (settle s) := by
  obtain ⟨u, hu⟩ := reactions_csr (haltsDue s)
  exact (intakeShut_congr ((settle_csr s).trans hu)).2 (intakeHolds_intakeShut u)

theorem afterwards_intakeShut (s : State) : IntakeShut (afterwards s) := settle_intakeShut (debugAccess s)

theorem idle_intakeShut {s : State} (h : IntakeShut s) : IntakeShut (idle s) := by
  unfold idle
  split
  · exact settle_intakeShut _
  · exact h

/-! ### What a step can do -/

/-- Every command has an effect that the card's reactions follow. -/
theorem exists_does (c : Instr) (s : State) : ∃ u, Does c s u := by
  cases c <;> exact ⟨_, rfl⟩

/-- A step idles on an empty queue; else it performs the front command with the queue's rest, and the card's reactions follow. -/
theorem step_cases {s t : State} (h : step s = .next t) : (s.pending = [] ∧ t = idle s) ∨
    ∃ c rest u, s.pending = c :: rest ∧ Does c { s with pending := rest } u ∧ t = afterwards u := by
  unfold step at h
  split at h
  case h_1 hq => exact .inl ⟨hq, (Host.Outcome.next.inj h).symm⟩
  case h_2 c rest hq =>
    obtain ⟨u, hu⟩ := exists_does c { s with pending := rest }
    exact .inr ⟨c, rest, u, hq, hu, Host.Outcome.next.inj (h.symm.trans hu)⟩

theorem step_intakeShut {s t : State} (h : step s = .next t) (hs : IntakeShut s) : IntakeShut t := by
  obtain ⟨_, ht⟩ | ⟨_, _, u, _, _, ht⟩ := step_cases h
  · exact ht ▸ idle_intakeShut hs
  · exact ht ▸ afterwards_intakeShut u

/-! ### What reset leaves (R26, R66, R257) -/

/-- At reset every register of the fabric holds its reset value. -/
theorem reg_reset (a : Nat) : reg State.reset a = regRst a := tget_nil regRst a

theorem reg_reset_modStatus : reg State.reset MOD_STATUS = 0 := by
  rw [reg_reset]
  decide +kernel

/-- Of MOD_STOP's bits, boot's alone is set. -/
theorem reg_reset_modStop : reg State.reset MOD_STOP = BitVec.ofNat 32 (2 ^ MOD_STOP_BOOTSTOP.lo) := by
  rw [reg_reset]
  decide +kernel

theorem getF_reset_bootStep : getF State.reset BOOT_STATUS BOOT_STATUS_STEP = 1 := by
  rw [getF, reg_reset]
  decide +kernel

theorem getF_reset_tornSource : getF State.reset LAT_TORN LAT_TORN_SRC = 0xFF := by
  rw [getF, reg_reset]
  decide +kernel

theorem flag_reset_modStatus (f : Fld) : flag State.reset MOD_STATUS f = false := by
  simp [flag, getF, reg_reset_modStatus, bitsOf]

theorem flag_reset_modStop (f : Fld) : flag State.reset MOD_STOP f = (bitsOf (2 ^ MOD_STOP_BOOTSTOP.lo) f.hi f.lo != 0) := by
  rw [flag, getF, reg_reset_modStop]
  rfl

theorem qWords_reset (q : Nat) : qWords State.reset q = 0 := rfl

/-- R66: the ports' reset values; of ctl.mode, S alone is 1. -/
theorem port_reset (t id : Nat) : port (getT State.reset t) id = if id = 0xDA then 1 else 0 := tget_nil portInit id

theorem reset_intakeShut : IntakeShut State.reset := fun _ => flag_reset_modStatus MOD_STATUS_INTAKE

/-- Settles O3: every command ends with the card's reactions, the last of which to reach a register holds INTAKE at 0
(`settle_intakeShut`); a step that lets nothing happen leaves the state. -/
theorem intakeInvariant : Obligations.IntakeInvariant := by
  unfold Obligations.IntakeInvariant
  exact ⟨reset_intakeShut, fun s t hs h => step_intakeShut h hs⟩

/-- Settles O2: the registers hold their reset values (`reg_reset`), and every table of the state is empty. -/
theorem resetState : Obligations.ResetState := by
  unfold Obligations.ResetState
  refine ⟨rfl, ?intake, ?ready, ?boot, ?host, ?sup, ?scan, getF_reset_bootStep, getF_reset_tornSource, qWords_reset, port_reset⟩
  case intake => exact flag_reset_modStatus MOD_STATUS_INTAKE
  case ready => exact flag_reset_modStatus MOD_STATUS_READY
  case boot => exact flag_reset_modStop MOD_STOP_BOOTSTOP
  case host => exact flag_reset_modStop MOD_STOP_HOSTSTOP
  case sup => exact flag_reset_modStop MOD_STOP_SUPSTOP
  case scan => exact flag_reset_modStop MOD_STOP_SCANLOCK

end Sys2Proof.Machine

namespace Sys2Proof.Machine

/-! ### Fields that a write leaves -/

/-- A field that shares no bit with the one set, be it of another register, holds what it held. -/
theorem getF_setF_apart (s : State) {a b : Nat} {f g : Fld} (v : Nat) (hf : f.lo ≤ f.hi) (hg : g.hi < 32)
    (h : b ≠ a ∨ g.hi < f.lo ∨ f.hi < g.lo) : getF (setF s a f v) b g = getF s b g := by
  by_cases hb : b = a
  · subst hb
    exact getF_setF_field s b v hf hg (h.resolve_left (absurd rfl))
  · exact getF_setF_other s f g v hb

theorem getF_congr_reg {s u : State} {a : Nat} (h : reg u a = reg s a) (f : Fld) : getF u a f = getF s a f := by
  rw [getF, getF, h]

theorem flag_congr_reg {s u : State} {a : Nat} (h : reg u a = reg s a) (f : Fld) : flag u a f = flag s a f := by
  rw [flag, flag, getF_congr_reg h]

theorem reg_congr_csr {s u : State} (h : u.csr = s.csr) (a : Nat) : reg u a = reg s a := by rw [reg, reg, h]

/-- A field of one bit, as a number. -/
theorem b2n_flag (s : State) (a : Nat) {f : Fld} (h : f.lo = f.hi) : b2n (flag s a f) = getF s a f := by
  have hlt : getF s a f < 2 ^ (f.hi + 1 - f.lo) := bitsOf_lt _ _ _
  rw [h, Nat.add_sub_cancel_left] at hlt
  rw [flag]
  generalize getF s a f = n at hlt ⊢
  obtain rfl | rfl : n = 0 ∨ n = 1 := by omega
  · rfl
  · rfl

theorem bitsOf_bit_ne_zero (w : Word) (i : Nat) : (bitsOf w.toNat i i != 0) = w.getLsbD i := by
  rw [bitsOf, Nat.add_sub_cancel_left, BitVec.getLsbD, Nat.testBit_eq_decide_div_mod_eq]
  rcases Nat.mod_two_eq_zero_or_one (w.toNat / 2 ^ i) with h | h <;> simp [h]

/-! ### Events of shared sources (R406) -/

theorem bit512_setBit512_same (b : BitVec 512) {n : Nat} (h : n < 512) : bit512 (setBit512 b n true) n = true := by
  rw [setBit512, if_pos rfl, bit512, BitVec.getLsbD_or, BitVec.getLsbD_ofNat, Nat.testBit_two_pow_self, decide_eq_true h,
    Bool.true_and, Bool.or_true]

theorem wakeRequest_pic (s : State) (d c : Nat) : (wakeRequest s d c).pic = s.pic := by
  unfold wakeRequest
  split
  · rfl
  · dsimp only
    split <;> rfl

theorem watchWake_pic (s : State) (n : Nat) : (watchWake s n).pic = s.pic := by
  unfold watchWake
  dsimp only
  split
  · exact wakeRequest_pic ..
  · rfl

theorem ite_releaseGroup_cases (s : State) (m : Nat) {p : Prop} [Decidable p] :
    (if p then releaseGroup s m else s) = releaseGroup s m ∨ (if p then releaseGroup s m else s) = s := by
  split
  · exact .inl rfl
  · exact .inr rfl

/-- An event releases its group, or is counted in it and may then release it (R426, R428). -/
theorem modEvent_cases (s : State) (n : Nat) : modEvent s n = releaseGroup s (n / 16) ∨
    ∃ g, modEvent s n = releaseGroup (setGroup s (n / 16) g) (n / 16) ∨ modEvent s n = setGroup s (n / 16) g := by
  unfold modEvent
  dsimp only
  split
  · exact .inl rfl
  · exact .inr ⟨_, ite_releaseGroup_cases _ _⟩

theorem modEvent_pend (s : State) (n : Nat) : (modEvent s n).pic.pend = s.pic.pend := by
  obtain h | ⟨g, h | h⟩ := modEvent_cases s n <;> rw [h] <;> rfl

theorem sourceFires_pend (s : State) (n : Nat) : (sourceFires s n).pic.pend = s.pic.pend := by
  unfold sourceFires
  dsimp only
  rw [watchWake_pic, modEvent_pend]
  split <;> rfl

theorem srcEvent_pend (s : State) {n : Nat} (h : n < 512) : bit512 (srcEvent s n).pic.pend n = true := by
  rw [srcEvent, pendShared, sourceFires_pend]
  exact bit512_setBit512_same s.pic.pend h

theorem modEvent_csr (s : State) (n : Nat) : (modEvent s n).csr = s.csr := by
  obtain h | ⟨g, h | h⟩ := modEvent_cases s n <;> rw [h] <;> rfl

theorem reg_wakeRequest_other (s : State) {d a : Nat} (c : Nat) (h : a ≠ PD_VOTEB d) :
    reg (wakeRequest s d c) a = reg s a := by
  have hset : reg (setFlag s (PD_VOTEB d) PD_VOTEB_WAKE true) a = reg s a := reg_setF_other s _ _ h
  unfold wakeRequest
  split
  · rfl
  · dsimp only
    split <;> exact hset

/-- A shared source's target is one of the triads, so the domain that it wakes is its cluster's. -/
theorem srcTarget_lt (s : State) (n : Nat) : srcTarget s n < 32 := bitsOf_lt _ _ _

theorem reg_watchWake_other (s : State) (n : Nat) {a : Nat} (h : 0x40010220 ≤ a) : reg (watchWake s n) a = reg s a := by
  have ht := srcTarget_lt s n
  unfold watchWake
  dsimp only
  split
  · exact reg_wakeRequest_other s 2 (by unfold PD_VOTEB; omega)
  · rfl

/-- An event of a shared source counts in PIC_ERR and sets WAKE of a cluster's domain, and leaves the registers above. -/
theorem reg_srcEvent_other (s : State) (n : Nat) {a : Nat} (h : PIC_ERR < a) : reg (srcEvent s n) a = reg s a := by
  unfold PIC_ERR at h
  rw [srcEvent, pendShared, sourceFires, reg_watchWake_other _ _ (by omega), reg_congr_csr (modEvent_csr _ _)]
  split
  · rfl
  · exact reg_setF_other _ _ _ (by unfold PIC_ERR; omega)

/-! ### Held accesses and device records (R349, R361, R483) -/

theorem reg_wakeCause (s : State) (c : Tab Nat) (a : Nat) : reg { s with wakeCause := c } a = reg s a := rfl

/-- An access that LED holds changes the power block's registers alone. -/
theorem reg_heldAccess_led (s : State) {a : Nat} (h : 0x40020000 ≤ a) : reg (heldAccess s 3) a = reg s a := by
  have hrefused : a ≠ PD_REFUSED := by unfold PD_REFUSED; omega
  have hvote : a ≠ PD_VOTEB 3 := by unfold PD_VOTEB; omega
  have hstatus : a ≠ PD_STATUS 3 := by unfold PD_STATUS; omega
  unfold heldAccess
  split
  · dsimp only
    rw [reg_setF_other _ _ _ hstatus, setFlag, reg_setF_other _ _ _ hstatus, reg_setF_other _ _ _ hstatus, reg_wakeCause,
      setFlag, reg_setF_other _ _ _ hvote, incSat, reg_setF_other _ _ _ hrefused]
  · rfl

theorem reg_setLed (s : State) (l : Ledger) (a : Nat) : reg (setLed s l) a = reg s a := rfl

section
variable (s : State) {a : Nat} (h : a < LED_STATUS)
include h

theorem reg_reserveSlot_other (e : Resv) : reg (reserveSlot s e) a = reg s a := by
  unfold LED_STATUS at h
  rw [reserveSlot, reg_setLed, reg_setF_other _ _ _ (by unfold LED_OCC; omega),
    reg_setF_other _ _ _ (by unfold LED_NEXTSLOT; omega)]

theorem reg_ledgerSync_other : reg (ledgerSync s) a = reg s a := by
  unfold ledgerSync setFlag
  unfold LED_STATUS at h
  rw [reg_setF_other _ _ _ (by unfold LED_STATUS; omega), reg_setF_other _ _ _ (by unfold LED_STATUS; omega),
    reg_setF_other _ _ _ (by unfold LED_PEND; omega)]

theorem reg_drawNumber_other (tid : Word) (o : Origin) (b : Option Body) (r : After) :
    reg (drawNumber s tid o b r).2 a = reg s a := by
  unfold drawNumber
  dsimp only
  rw [reg_ledgerSync_other _ h]
  split
  · rw [reg_reserveSlot_other _ h, reg_reserveSlot_other _ h, reg_setLed]
  · rw [reg_reserveSlot_other _ h, reg_setLed]

/-- A device's record changes the ledger's registers alone. -/
theorem reg_acceptRecord_other (b : Body) (r : After) : reg (acceptRecord s b r) a = reg s a := by
  unfold acceptRecord
  split
  · rfl
  · split
    · exact reg_drawNumber_other s h 0 .device (some b) r
    · rfl

end

/-! ### The boot control block (R59, R559) -/

theorem getBytes_putBytes_same (l : List Byte) (s : State) (k : Nat) : getBytes (putBytes s k l) k l.length = l := by
  induction l generalizing s k with
  | nil => rfl
  | cons b r ih =>
    have hb : getByte (putBytes (putByte s k b) (k + 1) r) k = b :=
      (getByte_putBytes_other r _ (.inl (Nat.lt_succ_self k))).trans (getByte_putByte_same s k b)
    rw [List.length_cons, putBytes, getBytes, hb, ih]

theorem getBytes_congr_mem {s u : State} (h : u.mem = s.mem) (k n : Nat) : getBytes u k n = getBytes s k n := by
  induction n generalizing k with
  | zero => rfl
  | succ n ih => rw [getBytes, getBytes, getByte, getByte, h, ih]

theorem leNat_leBytes (n v : Nat) : leNat (leBytes n v) = v % 256 ^ n := by
  induction n generalizing v with
  | zero => simp [leBytes, leNat, Nat.mod_one]
  | succ n ih => rw [leBytes, leNat, ih, BitVec.toNat_ofNat, show 256 ^ (n + 1) = 256 * 256 ^ n from Nat.pow_succ', Nat.mod_mul]

theorem bcbWord_congr_mem {s u : State} (h : u.mem = s.mem) (off : Nat) : bcbWord u off = bcbWord s off := by
  rw [bcbWord, bcbWord, getBytes_congr_mem h]

/-- A doubleword put into the boot control block reads back. -/
theorem bcbWord_putBcb_same (s : State) (off : Nat) {v : Nat} (h : v < 2 ^ 64) : bcbWord (putBcb s off v) off = v := by
  have hput : getBytes (putBytes s (0x33100000 + off) (leBytes 8 v)) (0x33100000 + off) (leBytes 8 v).length = leBytes 8 v :=
    getBytes_putBytes_same _ _ _
  rw [leBytes_length] at hput
  have hmem : (putBcb s off v).mem = (putBytes s (0x33100000 + off) (leBytes 8 v)).mem := rfl
  rw [bcbWord, getBytes_congr_mem hmem, hput, leNat_leBytes]
  exact Nat.mod_eq_of_lt h

/-- BOOTCTL spells the two fields of BOOT_CTL. -/
theorem bootctlOf_bootCtl (s : State) : bootctlOf (getF s BOOT_CTL BOOT_CTL_PINSEL) (getF s BOOT_CTL BOOT_CTL_NEXTPROF) =
    b2n (flag s BOOT_CTL BOOT_CTL_PINSEL) + 16 * getF s BOOT_CTL BOOT_CTL_NEXTPROF := by
  have hpin : getF s BOOT_CTL BOOT_CTL_PINSEL < 2 := bitsOf_lt _ _ _
  have hprof : getF s BOOT_CTL BOOT_CTL_NEXTPROF < 4 := bitsOf_lt _ _ _
  rw [b2n_flag s BOOT_CTL rfl, bootctlOf]
  omega

/-! ### BOOT_CTL (R59) -/

theorem does_bootCtlWrite (m : BitVec 6) (v : Word) (s : State) :
    Does (.bootCtlWrite m v) s (busWrite s m.toNat BOOT_CTL v) := rfl

theorem does_bootCtlDurable (s : State) : Does .bootCtlDurable s (bootCtlDurable s) := rfl

/-- A write of BOOT_CTL that reaches the boot engine's block is that block's write. -/
theorem writes_bootCtlWrite {s u : State} {m : BitVec 6} (h : Reaches s m.toNat BOOT_CTL u) (v : Word) :
    Writes (.bootCtlWrite m v) s (bootWrite u m.toNat BOOT_CTL v) := by
  have hdev : deviceWrite u m.toNat BOOT_CTL v = bootWrite u m.toNat BOOT_CTL v := rfl
  rw [Writes, ← hdev, ← busWrite_reaches h v (by decide) (by decide) (by decide)]
  exact does_bootCtlWrite m v s

/-- Another master than the host, and a triad outside supervisor mode, does not write BOOT_CTL. -/
theorem bootWrite_bootCtl_refused {u : State} {m : Nat} (hm : m ≠ 36) (h : 32 ≤ m ∨ supervisor (getT u m) = false) (v : Word) :
    bootWrite u m BOOT_CTL v = u := by
  have hc : ¬ (m < 32 && supervisor (getT u m)) = true := by
    rw [Bool.and_eq_true, decide_eq_true_iff]
    rintro ⟨hlt, hsup⟩
    rcases h with h | h
    · omega
    · exact absurd hsup (by rw [h]; decide)
  rw [bootWrite, if_neg (by decide), if_neg hm, if_neg hc]

theorem bootWrite_bootCtl_allowed {u : State} {m : Nat} (h : m = 36 ∨ m < 32 ∧ supervisor (getT u m) = true) (v : Word) :
    ∃ writer, bootWrite u m BOOT_CTL v = bootCtlWrite u writer v := by
  rcases h with rfl | ⟨hlt, hsup⟩
  · exact ⟨0, rfl⟩
  · exact ⟨1, by rw [bootWrite, if_neg (by decide), if_neg (by omega), if_pos (by simp [hlt, hsup])]⟩

theorem regRow_bootCtl : ∃ r, regRow? BOOT_CTL = some r ∧ BOOT_CTL_NEXTPROF ∈ r.flds ∧ BOOT_CTL_PINSEL ∈ r.flds :=
  ⟨⟨"BOOT_CTL", 0x400c0140, 1, 0x4, 1, 0x4, [BOOT_CTL_PEND, BOOT_CTL_NEXTPROF, BOOT_CTL_PINSEL]⟩, by decide +kernel,
    by decide, by decide⟩

/-- The CONFIG record leaves BOOT_CTL as the write made it. -/
theorem reg_bootCtlWrite (s : State) (writer : Nat) (w : Word) :
    reg (bootCtlWrite s writer w) BOOT_CTL = reg (setFlag (plainWrite s BOOT_CTL w) BOOT_CTL BOOT_CTL_PEND true) BOOT_CTL := by
  rw [bootCtlWrite, reg_acceptRecord_other _ (by decide), reg_heldAccess_led _ (by decide)]

section
variable (s : State) (writer : Nat) (w : Word)

theorem flag_bootCtlWrite_pend : flag (bootCtlWrite s writer w) BOOT_CTL BOOT_CTL_PEND = true := by
  rw [flag_congr_reg (reg_bootCtlWrite s writer w), flag_setFlag_same _ _ _ rfl (by decide)]

/-- A field of type RW that shares no bit with PEND holds what was written. -/
theorem getF_bootCtlWrite {f : Fld} (hrow : ∃ r, regRow? BOOT_CTL = some r ∧ f ∈ r.flds) (hty : f.ty = .rw) (hf : f.hi < 8) :
    getF (bootCtlWrite s writer w) BOOT_CTL f = bitsOf w.toNat f.hi f.lo := by
  obtain ⟨r, hr, hmem⟩ := hrow
  rw [getF_congr_reg (reg_bootCtlWrite s writer w), setFlag,
    getF_setF_field _ _ _ (by decide) (by omega) (.inl hf), getF_plainWrite hr s w hmem, fldWrite, hty]

theorem getF_bootCtlWrite_nextprof : getF (bootCtlWrite s writer w) BOOT_CTL BOOT_CTL_NEXTPROF = bitsOf w.toNat 5 4 := by
  obtain ⟨r, hr, hprof, _⟩ := regRow_bootCtl
  exact getF_bootCtlWrite s writer w ⟨r, hr, hprof⟩ rfl (by decide)

theorem flag_bootCtlWrite_pinsel : flag (bootCtlWrite s writer w) BOOT_CTL BOOT_CTL_PINSEL = w.getLsbD 0 := by
  obtain ⟨r, hr, _, hpin⟩ := regRow_bootCtl
  rw [flag, getF_bootCtlWrite s writer w ⟨r, hr, hpin⟩ rfl (by decide)]
  exact bitsOf_bit_ne_zero w 0

end

section
variable {s : State} (h : flag s BOOT_CTL BOOT_CTL_PEND = true)
include h

theorem bootCtlDurable_pending : bootCtlDurable s =
    srcEvent (setFlag (putBcb s 0 (b2n (flag s BOOT_CTL BOOT_CTL_PINSEL) + 16 * getF s BOOT_CTL BOOT_CTL_NEXTPROF))
      BOOT_CTL BOOT_CTL_PEND false) 87 := by
  rw [bootCtlDurable, h, ← bootctlOf_bootCtl]
  rfl

theorem flag_bootCtlDurable_pend : flag (bootCtlDurable s) BOOT_CTL BOOT_CTL_PEND = false := by
  rw [bootCtlDurable_pending h, flag_congr_reg (reg_srcEvent_other _ 87 (by decide)), flag_setFlag_same _ _ _ rfl (by decide)]

theorem bootCtlDurable_pend87 : bit512 (bootCtlDurable s).pic.pend 87 = true := by
  rw [bootCtlDurable_pending h]
  exact srcEvent_pend _ (by decide)

theorem bcbWord_bootCtlDurable : bcbWord (bootCtlDurable s) 0 =
    b2n (flag s BOOT_CTL BOOT_CTL_PINSEL) + 16 * getF s BOOT_CTL BOOT_CTL_NEXTPROF := by
  have hprof : getF s BOOT_CTL BOOT_CTL_NEXTPROF < 4 := bitsOf_lt _ _ _
  have hpin : getF s BOOT_CTL BOOT_CTL_PINSEL < 2 := bitsOf_lt _ _ _
  rw [← b2n_flag s BOOT_CTL rfl] at hpin
  rw [bootCtlDurable_pending h, bcbWord_congr_mem (srcEvent_inQueue _ _).mem, bcbWord_congr_mem (setFlag_mem _ _ _ _)]
  exact bcbWord_putBcb_same s 0 (by omega)

end

/-! ### Intake follows what it depends on (R26, R256) -/

/-- An update of INTAKE leaves every other field. -/
theorem getF_intakeUpdate (s : State) {a : Nat} {f : Fld} (hf : f.hi < 32) (h : a ≠ MOD_STATUS ∨ f.hi < 2 ∨ 2 < f.lo) :
    getF (intakeUpdate s) a f = getF s a f := getF_setF_apart s _ (by decide) hf h

theorem flag_intakeUpdate (s : State) {a : Nat} {f : Fld} (hf : f.hi < 32) (h : a ≠ MOD_STATUS ∨ f.hi < 2 ∨ 2 < f.lo) :
    flag (intakeUpdate s) a f = flag s a f := by
  rw [flag, getF_intakeUpdate s hf h, flag]

/-- What allows intake does not depend on INTAKE. -/
theorem intakeAllowed_intakeUpdate (s : State) : intakeAllowed (intakeUpdate s) = intakeAllowed s := by
  have hisland : (intakeUpdate s).islandOff = s.islandOff := rfl
  simp (disch := decide) only [intakeAllowed, intakeFit, stopBits, flag_intakeUpdate, getF_intakeUpdate, hisland]

theorem flag_intakeUpdate_intake (s : State) :
    flag (intakeUpdate s) MOD_STATUS MOD_STATUS_INTAKE = intakeAllowed (intakeUpdate s) := by
  rw [intakeAllowed_intakeUpdate, intakeUpdate, flag_setFlag_same _ _ _ rfl (by decide)]

/-- The MACs' working stop bits are no registers (R257). -/
theorem macFollow_csr (s : State) : (macFollow s).csr = s.csr := by
  have hone (u : State) (p : Nat) : (if domOn u (13 + p) then macStops u p else u).csr = u.csr := by split <;> rfl
  rw [macFollow, eachMac, List.foldl_cons, List.foldl_cons, List.foldl_cons, List.foldl_nil, hone, hone, hone]

/-! ### The end of boot (R51, R556, R568) -/

/-- Boot has ended: READY, step 7, the update stage by UNCONF, intake as it is allowed, and boot's stop bit clear unless the scan
lock is set. -/
def Booted (e : State) : Prop :=
  flag e MOD_STATUS MOD_STATUS_READY = true ∧ getF e BOOT_STATUS BOOT_STATUS_STEP = 7 ∧
    updStage e = (if flag e BOOT_STATUS BOOT_STATUS_UNCONF then 4 else 0) ∧
    flag e MOD_STATUS MOD_STATUS_INTAKE = intakeAllowed e ∧
    (flag e MOD_STOP MOD_STOP_SCANLOCK = false → flag e MOD_STOP MOD_STOP_BOOTSTOP = false)

/-- The state of step 6 in which the boot engine releases intake. -/
def bootReady (s : State) : State :=
  let s := setF (setFlag (bootVotes (finishLedger s)) MOD_STATUS MOD_STATUS_READY true) BOOT_STATUS BOOT_STATUS_STEP 7
  setF s UPD_STATUS UPD_STATUS_STAGE (if flag s BOOT_STATUS BOOT_STATUS_UNCONF then 4 else 0)

theorem bootEnd_eq (s : State) : bootEnd s =
    if flag (bootReady s) MOD_STOP MOD_STOP_SCANLOCK then intakeUpdate (bootReady s) else setStop (bootReady s) 2 false := rfl

theorem flag_bootReady_ready (s : State) : flag (bootReady s) MOD_STATUS MOD_STATUS_READY = true := by
  unfold bootReady
  rw [flag, getF_setF_other _ _ _ _ (by decide), getF_setF_other _ _ _ _ (by decide)]
  exact flag_setFlag_same _ _ _ rfl (by decide)

theorem getF_bootReady_step (s : State) : getF (bootReady s) BOOT_STATUS BOOT_STATUS_STEP = 7 := by
  unfold bootReady
  rw [getF_setF_other _ _ _ _ (by decide)]
  exact getF_setF_same _ _ 7 (by decide) (by decide)

theorem updStage_bootReady (s : State) :
    updStage (bootReady s) = if flag (bootReady s) BOOT_STATUS BOOT_STATUS_UNCONF then 4 else 0 := by
  unfold bootReady
  dsimp only
  rw [updStage, getF_setF_same _ _ _ (by decide) (by decide),
    flag_congr_reg (a := BOOT_STATUS) (reg_setF_other _ UPD_STATUS_STAGE _ (by decide))]
  split <;> rfl

/-- Boot ends with an update of INTAKE, before which only MOD_STOP has changed: the boot engine's bit is clear unless the scan lock
is set. -/
theorem bootEnd_intakeUpdate (s : State) : ∃ w, bootEnd s = intakeUpdate w ∧
    (∀ a, a ≠ MOD_STOP → reg w a = reg (bootReady s) a) ∧
    (flag w MOD_STOP MOD_STOP_SCANLOCK = false → flag w MOD_STOP MOD_STOP_BOOTSTOP = false) := by
  rw [bootEnd_eq]
  split
  case isTrue hlock => exact ⟨_, rfl, fun _ _ => rfl, fun h => absurd hlock (by rw [h]; decide)⟩
  case isFalse =>
    have hcsr : ∀ u : State, (if stopLost u 2 then u else macFollow u).csr = u.csr := fun u => by
      split
      · rfl
      · exact macFollow_csr u
    refine ⟨_, rfl, fun a ha => ?_, fun _ => ?_⟩
    · exact (reg_congr_csr (hcsr _) a).trans (reg_setF_other _ _ _ ha)
    · exact (flag_congr_csr (hcsr _) _ _).trans (flag_setFlag_same _ _ false rfl (by decide))

theorem bootEnd_booted (s : State) : Booted (bootEnd s) := by
  obtain ⟨w, hw, hregs, hstop⟩ := bootEnd_intakeUpdate s
  have hmod := hregs MOD_STATUS (by decide)
  have hboot := hregs BOOT_STATUS (by decide)
  have hupd := hregs UPD_STATUS (by decide)
  rw [hw]
  refine ⟨?ready, ?step, ?stage, flag_intakeUpdate_intake w, ?stop⟩
  case ready => rw [flag_intakeUpdate w (by decide) (by decide), flag_congr_reg hmod, flag_bootReady_ready]
  case step => rw [getF_intakeUpdate w (by decide) (by decide), getF_congr_reg hboot, getF_bootReady_step]
  case stage =>
    rw [updStage, getF_intakeUpdate w (by decide) (by decide), flag_intakeUpdate w (by decide) (by decide),
      getF_congr_reg hupd, flag_congr_reg hboot]
    exact updStage_bootReady s
  case stop =>
    rw [flag_intakeUpdate w (by decide) (by decide), flag_intakeUpdate w (by decide) (by decide)]
    exact hstop

theorem boot_booted (s : State) (named : Option Nat) (st : SelfTest) (noise : List Byte) : Booted (boot s named st noise) :=
  bootEnd_booted _

theorem powerOnBoot_booted (s : State) (psel : Nat) (st : SelfTest) (noise : List Byte) : Booted (powerOnBoot s psel st noise) :=
  boot_booted _ none st noise

theorem restartFrom_booted (s : State) (cause : Nat) (named : Option Nat) (st : SelfTest) (noise : List Byte) :
    Booted (restartFrom s cause named st noise) := boot_booted _ named st noise

theorem switchProfile_booted (s : State) (n : Nat) (persist : Bool) (st : SelfTest) (noise : List Byte) :
    Booted (switchProfile s n persist st noise) := restartFrom_booted _ 2 (some n) st noise

theorem activateFw_good_booted (s : State) (st : SelfTest) (noise : List Byte) : Booted (activateFw s .good st noise) :=
  restartFrom_booted _ 3 none st noise

/-! ### Mailbox commands that restart the card (R525, R526) -/

theorem does_powerOnResetRelease (psel : BitVec 2) (st : SelfTest) (noise : List Byte) (s : State) :
    Does (.powerOnResetRelease psel st noise) s (powerOnBoot s psel.toNat st noise) := rfl

theorem does_switchProfile (st : SelfTest) (noise : List Byte) (s : State) :
    Does (.switchProfile st noise) s (onFront s 0x03 (cmdSwitchProfile st noise)) := rfl

theorem does_updActivate (how : ActEnd) (st : SelfTest) (noise : List Byte) (s : State) :
    Does (.updActivate how st noise) s (onFront s 0x23 (cmdUpdActivate how st noise)) := rfl

/-- A command of the set passes the first checks while the card is ready and not in safe halt. -/
theorem commandCheck_none {s : State} {c : Nat} (hhalt : safeHalt s = false) (hready : flag s MOD_STATUS MOD_STATUS_READY = true)
    (hc : commandCodes.contains c = true) : commandCheck s c = none := by
  rw [commandCheck, hhalt, hready, hc]
  rfl

/-- The front frame is executed when it carries the command's CODE, nothing executes, and the first checks pass. -/
theorem onFront_executes {s : State} {f : Frame} {r : List Frame} {code : Nat} (hq : s.mbx.queue = f :: r) (howed : s.mbx.owed = 0)
    (hcode : f.code.toNat = code) (hcheck : commandCheck s code = none) (k : State → List Word → State) :
    onFront s code k = k s f.args := by
  simp [onFront, hq, howed, hcode, hcheck]

theorem answer_front {s : State} {f : Frame} {r : List Frame} (hq : s.mbx.queue = f :: r) (howed : s.mbx.owed = 0) (status : Nat)
    (results : List Word) :
    answer s status results = respond { s with mbx := { s.mbx with queue := r, results := [] } } f status results := by
  simp only [answer, hq, setMbx, ← howed]

theorem switchArgsOk_single {w : Word} (hprof : w.toNat % 256 < 4) (hlt : w.toNat < 512) : switchArgsOk [w] = true := by
  simp [switchArgsOk, hlt, Nat.div_eq_of_lt hprof]

/-- SWITCH_PROFILE is refused from the activation of an update on (R568). -/
theorem cmdSwitchProfile_busy {s : State} {a : List Word} (ha : switchArgsOk a = true) (hstage : 3 ≤ updStage s) (st : SelfTest)
    (noise : List Byte) : cmdSwitchProfile st noise s a = answer s 3 [] := by
  simp [cmdSwitchProfile, ha, hstage]

theorem cmdSwitchProfile_booted {s : State} {a : List Word} (ha : switchArgsOk a = true) (hstage : updStage s < 3) (st : SelfTest)
    (noise : List Byte) : Booted (cmdSwitchProfile st noise s a) := by
  have hbusy : ¬ 3 ≤ updStage s := by omega
  rw [cmdSwitchProfile, ha, if_neg (by decide), if_neg hbusy]
  exact switchProfile_booted _ _ _ st noise

/-- The activation of a verified firmware image restarts the card (R570). -/
theorem cmdUpdActivate_firmware {s : State} (hstage : updStage s = 2) (hrec : recordsGo s = true) (htarget : updTarget s = 0)
    (how : ActEnd) (st : SelfTest) (noise : List Byte) : cmdUpdActivate how st noise s [] = activateFw s how st noise := by
  simp [cmdUpdActivate, hstage, hrec, htarget]

/-- Settles O54: power-on, a profile switch and an activation all end in `bootEnd`, whose state is booted (`bootEnd_booted`); a write
of BOOT_CTL is the boot engine's (`writes_bootCtlWrite`), and what makes it durable puts its fields into the boot control block. -/
theorem boots : Obligations.Boots := by
  unfold Obligations.Boots
  intro f r psel m v st noise s u
  refine ⟨?power, ?mailbox, ?refused, ?allowed, ?durable⟩
  case power => exact ⟨_, does_powerOnResetRelease psel st noise s, powerOnBoot_booted s psel.toNat st noise⟩
  case mailbox =>
    intro hq howed hhalt hready
    refine ⟨fun hcode w hargs hprof hlt => ?_, fun hcode hargs hstage hrec htarget => ?_⟩
    · have hrun := does_switchProfile st noise s
      rw [onFront_executes hq howed (by rw [hcode]; rfl) (commandCheck_none hhalt hready (by decide)), hargs] at hrun
      have hok := switchArgsOk_single hprof hlt
      refine ⟨fun hstage => ?_, fun hstage => ⟨_, hrun, cmdSwitchProfile_booted hok hstage st noise⟩⟩
      rwa [cmdSwitchProfile_busy hok hstage, answer_front hq howed] at hrun
    · have hrun := does_updActivate .good st noise s
      rw [onFront_executes hq howed (by rw [hcode]; rfl) (commandCheck_none hhalt hready (by decide)), hargs,
        cmdUpdActivate_firmware hstage hrec htarget] at hrun
      exact ⟨_, hrun, activateFw_good_booted s st noise⟩
  case refused =>
    intro hreach hm hno
    have hwrite := writes_bootCtlWrite hreach v
    rwa [bootWrite_bootCtl_refused (mt (toNat_eq_host_iff m).1 hm) hno] at hwrite
  case allowed =>
    intro hreach hmay
    rw [← toNat_eq_host_iff] at hmay
    obtain ⟨writer, hw⟩ := bootWrite_bootCtl_allowed hmay v
    exact ⟨_, hw ▸ writes_bootCtlWrite hreach v, flag_bootCtlWrite_pend u writer v, getF_bootCtlWrite_nextprof u writer v,
      flag_bootCtlWrite_pinsel u writer v⟩
  case durable =>
    intro hpend
    exact ⟨_, does_bootCtlDurable s, flag_bootCtlDurable_pend hpend, bootCtlDurable_pend87 hpend, bcbWord_bootCtlDurable hpend⟩

end Sys2Proof.Machine

namespace Sys2Proof.Machine

/-! ### Digits of decimal words (R105, R106) -/

theorem digitAt_zero (w : Nat) : digitAt w 0 = if 9 < w % 16 then w % 16 - 10 else w % 16 := by
  simp only [digitAt, Nat.pow_zero, Nat.div_one]

theorem digitAt_succ (w i : Nat) : digitAt w (i + 1) = digitAt (w / 16) i := by
  simp only [digitAt, Nat.pow_succ', Nat.div_div_eq_div_mul]

theorem digitAt_le (w i : Nat) : digitAt w i ≤ 9 := by
  unfold digitAt
  have := Nat.mod_lt (w / 16 ^ i) (by decide : 0 < 16)
  dsimp only
  split <;> omega

/-- A decimal digit d below the digits of w: their value. -/
theorem decVal_cons {d : Nat} (n w : Nat) (hd : d ≤ 9) : decVal (n + 1) (d + 16 * w) = d + 10 * decVal n w := by
  have hlow : (d + 16 * w) % 16 = d := by omega
  have hup : (d + 16 * w) / 16 = w := by omega
  rw [decVal, digitAt_zero, hlow, hup, if_neg (Nat.not_lt.2 hd)]

theorem decBad_cons {d : Nat} (n w : Nat) (hd : d ≤ 9) : decBad (n + 1) (d + 16 * w) = decBad n w := by
  have hlow : (d + 16 * w) % 16 = d := by omega
  have hup : (d + 16 * w) / 16 = w := by omega
  rw [decBad, hlow, hup, decide_eq_false (Nat.not_lt.2 hd), Bool.false_or]

theorem decVal_lt (n w : Nat) : decVal n w < 10 ^ n := by
  induction n generalizing w with
  | zero => exact Nat.one_pos
  | succ n ih =>
    have h0 := digitAt_le w 0
    have h1 := ih (w / 16)
    rw [decVal, Nat.pow_succ]
    omega

/-- The value of a word's digits, with the highest apart. -/
theorem decVal_succ_top (n w : Nat) : decVal (n + 1) w = decVal n w + 10 ^ n * digitAt w n := by
  induction n generalizing w with
  | zero => simp only [decVal, Nat.mul_zero, Nat.add_zero, Nat.zero_add, Nat.pow_zero, Nat.one_mul]
  | succ n ih =>
    rw [decVal, ih, decVal, digitAt_succ, Nat.pow_succ', Nat.mul_assoc, Nat.mul_add, Nat.add_assoc]

/-- Digits that read as 0 above the n lowest add nothing. -/
theorem decVal_add_of_zero (n k w : Nat) (h : ∀ j, n ≤ j → j < n + k → digitAt w j = 0) :
    decVal (n + k) w = decVal n w := by
  induction k with
  | zero => rfl
  | succ k ih =>
    rw [← Nat.add_assoc, decVal_succ_top, h (n + k) (by omega) (by omega), ih fun j h1 h2 => h j h1 (by omega)]
    rfl

theorem decVal_toBcd (n v : Nat) : decVal n (toBcd n v) = v % 10 ^ n := by
  induction n generalizing v with
  | zero => rw [Nat.pow_zero, Nat.mod_one]; rfl
  | succ n ih => rw [toBcd, decVal_cons _ _ (by omega), ih, Nat.pow_succ', Nat.mod_mul]

theorem decBad_toBcd (n v : Nat) : decBad n (toBcd n v) = false := by
  induction n generalizing v with
  | zero => rfl
  | succ n ih => rw [toBcd, decBad_cons _ _ (by omega), ih]

theorem toBcd_lt (n v : Nat) : toBcd n v < 16 ^ n := by
  induction n generalizing v with
  | zero => exact Nat.one_pos
  | succ n ih =>
    have h := ih (v / 10)
    rw [toBcd, Nat.pow_succ]
    omega

/-! ### Decimal words (R105, R106) -/

theorem decWord_lt (w : Word) : decWord w < 10 ^ 8 := decVal_lt 8 _

theorem bcdWord_toNat (v : Nat) : (bcdWord v).toNat = toBcd 8 v :=
  BitVec.toNat_ofNat _ _ |>.trans (Nat.mod_eq_of_lt (toBcd_lt 8 v))

@[simp] theorem decWord_bcdWord (v : Nat) : decWord (bcdWord v) = v % 10 ^ 8 := by
  rw [decWord, bcdWord_toNat, decVal_toBcd]

/-- R106: only decimal digits are written to a result. -/
@[simp] theorem badWord_bcdWord (v : Nat) : badWord (bcdWord v) = false := by
  rw [badWord, bcdWord_toNat, decBad_toBcd]

end Sys2Proof.Machine

namespace Sys2Proof.Machine

/-! ### A move that a unit carries out -/

/-- A frame with fewer ports, where the others are seen to stand. -/
theorem MoveFrame.narrow {u w : State} {t : Nat} {x : Triad} {ps qs : List Nat} {npc : Word} (h : MoveFrame u w t x ps npc)
    (k : ∀ id ∈ ps, id ∉ qs → port (getT w t) id = port (getT u t) id) : MoveFrame u w t x qs npc where
  triad := h.triad
  ports id hid := if hp : id ∈ ps then k id hp hid else h.ports id hp
  others := h.others
  memory := h.memory
  card := h.card

theorem port_setPort (x : Triad) (id j : Nat) (w : Word) : port (setPort x id w) j = if j = id then w else port x j := by
  split
  case isTrue h => rw [h, port_setPort_same]
  case isFalse h => exact port_setPort_other x w h

theorem b2n_le_one (b : Bool) : b2n b ≤ 1 := by cases b <;> decide

/-! ### The ALU (R97 to R100) -/

/-- A number built from n bits is below 2 ^ n, and its bit i is the i-th of them. -/
theorem foldl_bits_spec (p : Nat → Bool) (n i : Nat) :
    (List.range n).foldl (fun acc j => acc + b2n (p j) * 2 ^ j) 0 < 2 ^ n ∧
      ((List.range n).foldl (fun acc j => acc + b2n (p j) * 2 ^ j) 0).testBit i = (decide (i < n) && p i) := by
  induction n with
  | zero =>
    rw [List.range_zero, List.foldl_nil, Nat.zero_testBit, decide_eq_false (Nat.not_lt_zero i), Bool.false_and]
    exact ⟨Nat.one_pos, rfl⟩
  | succ n ih =>
    obtain ⟨hlt, hbit⟩ := ih
    rw [List.range_succ, List.foldl_append, List.foldl_cons, List.foldl_nil]
    generalize (List.range n).foldl (fun acc j => acc + b2n (p j) * 2 ^ j) 0 = acc at hlt hbit
    refine ⟨?_, ?_⟩
    · have htop := Nat.mul_le_mul_right (2 ^ n) (b2n_le_one (p n))
      rw [Nat.pow_succ]
      omega
    · rw [Nat.add_comm, Nat.mul_comm, Nat.testBit_two_pow_mul_add _ hlt]
      rcases Nat.lt_trichotomy i n with h | rfl | h
      · rw [if_pos h, hbit, decide_eq_true h, decide_eq_true (Nat.lt_succ_of_lt h)]
      · rw [if_neg (Nat.lt_irrefl i), Nat.sub_self, decide_eq_true (Nat.lt_succ_self i), Bool.true_and]
        cases p i <;> rfl
      · have htop := b2n_le_one (p n)
        obtain ⟨k, hk⟩ : ∃ k, i - n = k + 1 := ⟨i - n - 1, by omega⟩
        have hhalf : b2n (p n) / 2 = 0 := by omega
        rw [if_neg (Nat.not_lt.2 (Nat.le_of_lt h)), hk, Nat.testBit_succ, hhalf, Nat.zero_testBit,
          decide_eq_false (Nat.not_lt.2 h), Bool.false_and]

/-- R99: the nibble carries bit by bit. -/
theorem getLsbD_aluNc (a w : Word) (cin : Bool) (i : Nat) : (aluNc a w cin).getLsbD i =
    decide (i < 8 ∧ 2 ^ (4 * i + 4) ≤ a.toNat % 2 ^ (4 * i + 4) + w.toNat % 2 ^ (4 * i + 4) + b2n cin) := by
  obtain ⟨-, h⟩ := foldl_bits_spec
    (fun i => decide (2 ^ (4 * i + 4) ≤ a.toNat % 2 ^ (4 * i + 4) + w.toNat % 2 ^ (4 * i + 4) + b2n cin)) 8 i
  rw [aluNc, BitVec.getLsbD_ofNat, h, Bool.decide_and, ← Bool.and_assoc, ← Bool.decide_and]
  congr 2
  exact propext (by omega)

section

variable {s u : State} {t : Nat} {m : Move} {v : Word} {dst : Nat} {f : MoveForm}

/-- An ALU trigger that writes a result. -/
theorem finish_aluEff_some (P : Performs s t m v u) (hm : moveOf dst f = .ok m) {op : AluOp} {r nc fl : Word}
    (h : aluOp op (port (getT u t) 0x30) v (port (getT u t) 0x20) = (some (r, nc), fl)) :
    ∃ w, finish (runForm s t dst f {} (aluEff op)) = .next w ∧
      MoveFrame u w t (getT u t) [0x31, 0x32, 0x20] (nextPc u t m) ∧
      port (getT w t) 0x31 = r ∧ port (getT w t) 0x32 = nc ∧ port (getT w t) 0x20 = fl := by
  have he : aluEff op u t v (segOf m.op) m none =
      .done (setT u t (setPort (setPort (setPort (getT u t) 0x31 r) 0x32 nc) 0x20 fl)) := by
    simp only [aluEff, h]
  obtain ⟨w, hw, hframe, hports⟩ := finish_ports P _ rfl he [0x31, 0x32, 0x20] fun id hid => by
    simp only [List.mem_cons, List.not_mem_nil, not_or, or_false] at hid
    obtain ⟨h31, h32, h20⟩ := hid
    rw [port_setPort_other _ _ h20, port_setPort_other _ _ h32, port_setPort_other _ _ h31]
  refine ⟨w, by rw [runForm_eq hm]; exact hw, hframe, ?_, ?_, ?_⟩
  · rw [hports, port_setPort_other _ _ (by decide), port_setPort_other _ _ (by decide), port_setPort_same]
  · rw [hports, port_setPort_other _ _ (by decide), port_setPort_same]
  · rw [hports, port_setPort_same]

/-- An ALU trigger that sets flags alone. -/
theorem finish_aluEff_none (P : Performs s t m v u) (hm : moveOf dst f = .ok m) {op : AluOp} {fl : Word}
    (h : aluOp op (port (getT u t) 0x30) v (port (getT u t) 0x20) = (none, fl)) :
    ∃ w, finish (runForm s t dst f {} (aluEff op)) = .next w ∧ MoveFrame u w t (getT u t) [0x20] (nextPc u t m) ∧
      port (getT w t) 0x20 = fl := by
  have he : aluEff op u t v (segOf m.op) m none = .done (setT u t (setPort (getT u t) 0x20 fl)) := by
    simp only [aluEff, h]
  obtain ⟨w, hw, hframe, hports⟩ := finish_ports P _ rfl he [0x20] fun id hid =>
    port_setPort_other _ _ (fun e => hid (e ▸ .head _))
  exact ⟨w, by rw [runForm_eq hm]; exact hw, hframe, by rw [hports, port_setPort_same]⟩

/-- R97, R98: the flags of an addition of a and w with a carry in. -/
theorem aluAddWith_flags (a w : Word) (cin : Bool) (fl : Word) : (aluAddWith a w cin fl).2 =
    let r := BitVec.ofNat 32 (a.toNat + w.toNat + b2n cin)
    flMk (decide (r = 0)) (r.getLsbD 31) (decide (2 ^ 32 ≤ a.toNat + w.toNat + b2n cin))
      (decide (a.getLsbD 31 = w.getLsbD 31) && decide (r.getLsbD 31 ≠ a.getLsbD 31)) (flD fl) := by
  simp only [aluAddWith, aluSum, decide_not]
  rfl

/-- R97 to R99: an ALU trigger that adds w with a carry in. -/
theorem finish_aluSum (P : Performs s t m v u) (hm : moveOf dst f = .ok m) {op : AluOp} {w : Word} {cin : Bool}
    (h : let x := getT u t
      let p := aluAddWith (port x 0x30) w cin (port x 0x20)
      aluOp op (port x 0x30) v (port x 0x20) = (some (p.1, aluNc (port x 0x30) w cin), p.2)) :
    let a := port (getT u t) 0x30
    let sum := a.toNat + w.toNat + b2n cin
    let r := BitVec.ofNat 32 sum
    ∃ e, finish (runForm s t dst f {} (aluEff op)) = .next e ∧
      MoveFrame u e t (getT u t) [0x31, 0x32, 0x20] (nextPc u t m) ∧ port (getT e t) 0x31 = r ∧
      (∀ i, (port (getT e t) 0x32).getLsbD i =
        decide (i < 8 ∧ 2 ^ (4 * i + 4) ≤ a.toNat % 2 ^ (4 * i + 4) + w.toNat % 2 ^ (4 * i + 4) + b2n cin)) ∧
      port (getT e t) 0x20 = flMk (decide (r = 0)) (r.getLsbD 31) (decide (2 ^ 32 ≤ sum))
        (decide (a.getLsbD 31 = w.getLsbD 31) && decide (r.getLsbD 31 ≠ a.getLsbD 31)) (flD (port (getT u t) 0x20)) := by
  obtain ⟨e, he, hframe, hr, hnc, hfl⟩ := finish_aluEff_some P hm h
  exact ⟨e, he, hframe, hr, fun i => by rw [hnc, getLsbD_aluNc], hfl.trans (aluAddWith_flags _ _ _ _)⟩

end

/-! ### The multiplier (R102) -/

/-- The two words of mul.hi and mul.lo hold 64 bits. -/
theorem toNat_hi_lo (p : BitVec 64) :
    (BitVec.ofNat 32 (p.toNat / 2 ^ 32)).toNat * 2 ^ 32 + (BitVec.ofNat 32 p.toNat).toNat = p.toNat := by
  have := p.isLt
  simp only [BitVec.toNat_ofNat]
  omega

/-- The product or sum that a MUL trigger forms, as a number (R102). -/
def mulValue (op : MulOp) (a b : Word) (acc : Nat) : Int :=
  match op with
  | .mulu => a.toNat * b.toNat
  | .muls => a.toInt * b.toInt
  | .mac => (acc + a.toNat * b.toNat : Nat)

theorem toNat_zeroExtend64 (a : Word) : (a.zeroExtend 64).toNat = a.toNat := BitVec.toNat_setWidth_of_le (by decide)

theorem toNat_mulOp (op : MulOp) (a b : Word) (acc : Nat) :
    (mulOp op a b (BitVec.ofNat 64 acc)).toNat = (mulValue op a b acc % 2 ^ 64).toNat := by
  cases op with
  | mulu =>
    rw [mulOp, mulValue, BitVec.toNat_mul, toNat_zeroExtend64, toNat_zeroExtend64]
    rfl
  | muls =>
    rw [mulOp, mulValue, BitVec.signExtend, BitVec.signExtend, ← BitVec.ofInt_mul, BitVec.toNat_ofInt]
    rfl
  | mac =>
    rw [mulOp, mulValue, BitVec.toNat_add, BitVec.toNat_mul, toNat_zeroExtend64, toNat_zeroExtend64, BitVec.toNat_ofNat,
      ← Nat.add_mod]
    rfl

/-- A MUL trigger: the 64 bits of mul.hi and mul.lo; no flag changes. -/
theorem finish_mulEff {s u : State} {t : Nat} {m : Move} {v : Word} {dst : Nat} {f : MoveForm}
    (P : Performs s t m v u) (hm : moveOf dst f = .ok m) (op : MulOp) :
    let x := getT u t
    let acc := (port x 0x73).toNat * 2 ^ 32 + (port x 0x72).toNat
    ∃ w, finish (runForm s t dst f {} (mulEff op)) = .next w ∧ MoveFrame u w t x [0x72, 0x73] (nextPc u t m) ∧
      (port (getT w t) 0x73).toNat * 2 ^ 32 + (port (getT w t) 0x72).toNat =
        (mulValue op (port x 0x70) (port x 0x71) acc % 2 ^ 64).toNat := by
  obtain ⟨w, hw, hframe, hports⟩ := finish_ports P (eff := mulEff op) _ rfl rfl [0x72, 0x73] fun id hid => by
    simp only [List.mem_cons, List.not_mem_nil, not_or, or_false] at hid
    rw [port_setPort_other _ _ hid.2, port_setPort_other _ _ hid.1]
  refine ⟨w, by rw [runForm_eq hm]; exact hw, hframe, ?_⟩
  rw [hports, hports, port_setPort_same, port_setPort_other _ _ (by decide), port_setPort_same, toNat_hi_lo, toNat_mulOp]

/-- Settles O6: each trigger runs its move with the ALU's or the multiplier's effect; the sums share `finish_aluSum`, the logic
and shift triggers `finish_aluEff_some`, alu.cmp and alu.tst `finish_aluEff_none`, the products `finish_mulEff`. -/
theorem aluTriggers : Obligations.AluTriggers := by
  unfold Obligations.AluTriggers
  refine ⟨fun t f s u m v P => ⟨?sums, ?bits, ?flags⟩, fun t f s u m v P => ?products⟩
  case sums =>
    simp only [List.forall_mem_cons, List.not_mem_nil, false_implies, implies_true, and_true]
    exact ⟨fun hm => finish_aluSum P hm rfl, fun hm => finish_aluSum P hm rfl, fun hm => finish_aluSum P hm rfl,
      fun hm => finish_aluSum P hm rfl⟩
  case bits =>
    simp only [List.forall_mem_cons, List.not_mem_nil, false_implies, implies_true, and_true]
    refine ⟨?_, ?_, ?_, ?_, ?_, ?_, ?_, ?_, ?_⟩
    all_goals exact fun hm => finish_aluEff_some P hm rfl
  case flags =>
    simp only [List.forall_mem_cons, List.not_mem_nil, false_implies, implies_true, and_true]
    refine ⟨fun hm => ?cmp, fun hm => finish_aluEff_none P hm rfl⟩
    case cmp =>
      rw [← aluAddWith_flags]
      exact finish_aluEff_none P hm rfl
  case products =>
    simp only [List.forall_mem_cons, List.not_mem_nil, false_implies, implies_true, and_true]
    exact ⟨fun hm => finish_mulEff P hm .mulu, fun hm => finish_mulEff P hm .muls, fun hm => finish_mulEff P hm .mac⟩

end Sys2Proof.Machine

namespace Sys2Proof.Machine

/-! ### The moves of the decimal unit (R106 to R115, R119) -/

theorem b2n_testBit (x i : Nat) : b2n (x.testBit i) = x / 2 ^ i % 2 := by
  rw [Nat.testBit_eq_decide_div_mod_eq]
  rcases Nat.mod_two_eq_zero_or_one (x / 2 ^ i) with h | h
  all_goals
    rw [h]
    rfl

/-- The flags of the ALU are the four low bits of fl. -/
theorem toNat_and_aluFlags (fl : Word) :
    (fl &&& 0xF).toNat = b2n (flZ fl) + 2 * b2n (flN fl) + 4 * b2n (flC fl) + 8 * b2n (flV fl) := by
  rw [BitVec.toNat_and, show (0xF : Word).toNat = 2 ^ 4 - 1 from rfl, Nat.and_two_pow_sub_one_eq_mod]
  simp only [flZ, flN, flC, flV, BitVec.getLsbD, b2n_testBit]
  omega

/-- R108: the DEC unit writes D and keeps the four flags of the ALU. -/
theorem flWithD_eq (fl : Word) (d : Bool) : flWithD fl d = flMk (flZ fl) (flN fl) (flC fl) (flV fl) d := by
  have hand := toNat_and_aluFlags fl
  have hlt : (fl &&& 0xF).toNat < 2 ^ 4 := by
    rw [BitVec.toNat_and]
    exact Nat.and_lt_two_pow _ (by decide)
  have hd := b2n_le_one d
  refine BitVec.eq_of_toNat_eq ?_
  rw [flWithD, flMk, BitVec.toNat_or, BitVec.toNat_ofNat, BitVec.toNat_ofNat, Nat.mod_eq_of_lt (by omega),
    Nat.mod_eq_of_lt (by omega), Nat.or_comm, show 16 = 2 ^ 4 from rfl, ← Nat.two_pow_add_eq_or_of_lt hlt, ← hand,
    Nat.add_comm]

section

variable {s u : State} {t : Nat} {m : Move} {v : Word} {dst : Nat} {f : MoveForm}

/-- What a DEC trigger computes from the ports of triad record x. -/
def decOutOf (op : DecOp) (x : Triad) (v : Word) : DecOut :=
  decOp op (port x 0x50) v (port x 0x52) (port x 0x32) (port x 0x20)

/-- A port written where there is a word for it. -/
def setPortOpt (x : Triad) (id : Nat) : Option Word → Triad
  | some w => setPort x id w
  | none => x

theorem port_setPortOpt (x : Triad) (id j : Nat) (w : Option Word) :
    port (setPortOpt x id w) j = if j = id then w.getD (port x id) else port x j := by
  cases w with
  | none =>
    rw [setPortOpt, Option.getD_none]
    split
    case isTrue h => rw [h]
    case isFalse => rfl
  | some w => exact port_setPort x id j w

/-- Triad record x after a DEC trigger with outcome o, but for SUSP: dec.r, dec.rh, D, BAD (R106, R119). -/
def decWrites (x : Triad) (o : DecOut) : Triad :=
  let y := setPortOpt (setPort x 0x53 o.r) 0x54 o.rh
  let z := setPort y 0x20 (flWithD (port y 0x20) o.d)
  setPortOpt z 0x52 (if o.bad then some (port z 0x52 ||| 0x100) else none)

/-- The ports after a DEC trigger. -/
theorem port_decWrites (x : Triad) (o : DecOut) (id : Nat) : port (decWrites x o) id =
    if id = 0x52 then (if o.bad then port x 0x52 ||| 0x100 else port x 0x52)
    else if id = 0x20 then flWithD (port x 0x20) o.d
    else if id = 0x54 then o.rh.getD (port x 0x54)
    else if id = 0x53 then o.r else port x id := by
  simp only [decWrites, port_setPortOpt, port_setPort]
  cases o.bad <;> rfl

/-- Ports alone are written. -/
theorem decWrites_ports_only (x : Triad) (o : DecOut) : decWrites x o = { x with ports := (decWrites x o).ports } := by
  unfold decWrites
  cases o.rh <;> cases o.bad <;> rfl

/-- The record with no routine suspended in the DEC unit (R167). -/
def forgetDec (x : Triad) : Triad := { x with dec := { x.dec with susp := false } }

theorem decEff_eq (op : DecOp) (u : State) (t : Nat) (v : Word) (seg : BitVec 3) (m : Move) (r : Option Routine) :
    decEff op u t v seg m r =
    .done (setT u t (forgetDec (decWrites (getT u t) (decOutOf op (getT u t) v)))) := by
  unfold decEff
  change Eff.done (setT u t _) = _
  rw [← decOutOf]
  obtain ⟨r, rh, d, bad⟩ := decOutOf op (getT u t) v
  cases rh <;> cases bad <;> rfl

/-- A DEC trigger that is no long micro-routine: its results, D, the sticky BAD; a suspended routine is forgotten (R167). -/
theorem finish_decEff (P : Performs s t m v u) (hm : moveOf dst f = .ok m) (op : DecOp) :
    let x := getT u t
    let o := decOutOf op x v
    let fl := port x 0x20
    ∃ w, finish (runForm s t dst f {} (decEff op)) = .next w ∧
      MoveFrame u w t (forgetDec x) [0x53, 0x54, 0x20, 0x52] (nextPc u t m) ∧
      port (getT w t) 0x53 = o.r ∧ port (getT w t) 0x54 = o.rh.getD (port x 0x54) ∧
      port (getT w t) 0x20 = flMk (flZ fl) (flN fl) (flC fl) (flV fl) o.d ∧
      port (getT w t) 0x52 = if o.bad then port x 0x52 ||| 0x100 else port x 0x52 := by
  have honly : forgetDec (decWrites (getT u t) (decOutOf op (getT u t) v)) =
      { forgetDec (getT u t) with ports := (decWrites (getT u t) (decOutOf op (getT u t) v)).ports } :=
    congrArg forgetDec (decWrites_ports_only _ _)
  obtain ⟨w, hw, hframe, hports⟩ := finish_record P _ _ honly (decEff_eq op u t v _ m none) P.after [0x53, 0x54, 0x20, 0x52]
    fun id hid => by
      simp only [List.mem_cons, List.not_mem_nil, not_or, or_false] at hid
      obtain ⟨h53, h54, h20, h52⟩ := hid
      exact (port_decWrites _ _ id).trans (by rw [if_neg h52, if_neg h20, if_neg h54, if_neg h53])
  have hports : ∀ id, port (getT w t) id = port (decWrites (getT u t) (decOutOf op (getT u t) v)) id := hports
  refine ⟨w, by rw [runForm_eq hm]; exact hw, hframe, ?_⟩
  simp only [hports, port_decWrites, ← flWithD_eq]
  exact ⟨rfl, rfl, rfl, rfl⟩

end

/-! #### Sums, differences and the comparison (R109, R110) -/

/-- Outcome o of a DEC trigger is one decimal word of value n, with D as d, and BAD where an operand is bad. -/
structure LowResult (o : DecOut) (n : Int) (d bad : Bool) : Prop where
  value : (decWord o.r : Int) = n
  good : badWord o.r = false
  rh : o.rh = none
  d : o.d = d
  bad : o.bad = bad

theorem lowResult_decAdd (a v : Word) (c : Bool) : LowResult (decAdd a v c) (((decWord a : Int) + decWord v + b2n c) % 10 ^ 8)
    (decide ((10 : Int) ^ 8 ≤ decWord a + decWord v + b2n c)) (badWord a || badWord v) := by
  refine ⟨?_, badWord_bcdWord _, rfl, decide_eq_decide.2 (by omega), rfl⟩
  rw [decAdd, decWord_bcdWord]
  omega

theorem lowResult_decSub (a v : Word) (c : Bool) : LowResult (decSub a v c) (((decWord a : Int) - decWord v - b2n c) % 10 ^ 8)
    (decide ((decWord a : Int) - decWord v - b2n c < 0)) (badWord a || badWord v) := by
  have hv := decWord_lt v
  have hc := b2n_le_one c
  refine ⟨?_, badWord_bcdWord _, rfl, decide_eq_decide.2 (by omega), rfl⟩
  rw [decSub, decWord_bcdWord]
  omega

/-- R110: the three codes of dec.cmp. -/
theorem lowResult_cmp (a v mode nc fl : Word) :
    let x := decSigned (modeScmp mode) a
    let y := decSigned (modeScmp mode) v
    LowResult (decOp .cmp a v mode nc fl) (if x = y then 0 else if y < x then 1 else 99999999) (decide (x < y))
      (badWord a || badWord v) := by
  intro x y
  have hr : (decOp .cmp a v mode nc fl).r = if x = y then 0 else if y < x then 1 else 0x99999999 := rfl
  by_cases heq : x = y
  · have hr0 : (decOp .cmp a v mode nc fl).r = 0 := hr.trans (if_pos heq)
    exact ⟨by rw [hr0, if_pos heq]; decide, by rw [hr0]; decide, rfl, rfl, rfl⟩
  · by_cases hlt : y < x
    · have hr1 : (decOp .cmp a v mode nc fl).r = 1 := hr.trans ((if_neg heq).trans (if_pos hlt))
      exact ⟨by rw [hr1, if_neg heq, if_pos hlt]; decide, by rw [hr1]; decide, rfl, rfl, rfl⟩
    · have hr9 : (decOp .cmp a v mode nc fl).r = 0x99999999 := hr.trans ((if_neg heq).trans (if_neg hlt))
      exact ⟨by rw [hr9, if_neg heq, if_neg hlt]; decide, by rw [hr9]; decide, rfl, rfl, rfl⟩

theorem decSigned_eq (mode w : Word) : decSigned (modeScmp mode) w =
    if mode.getLsbD 2 ∧ 5 ≤ digitAt w.toNat 7 then (decWord w : Int) - 10 ^ 8 else (decWord w : Int) := by
  simp only [decSigned, modeScmp, Bool.and_eq_true, decide_eq_true_eq]

section

variable {s u : State} {t : Nat} {m : Move} {v : Word} {dst : Nat} {f : MoveForm}

/-- A DEC trigger that leaves dec.rh. -/
theorem finish_lowResult (P : Performs s t m v u) (hm : moveOf dst f = .ok m) {op : DecOp} {n : Int} {d bad : Bool}
    (h : LowResult (decOutOf op (getT u t) v) n d bad) :
    let x := getT u t
    let fl := port x 0x20
    ∃ w, finish (runForm s t dst f {} (decEff op)) = .next w ∧
      MoveFrame u w t (forgetDec x) [0x53, 0x20, 0x52] (nextPc u t m) ∧
      (decWord (port (getT w t) 0x53) : Int) = n ∧ badWord (port (getT w t) 0x53) = false ∧
      port (getT w t) 0x20 = flMk (flZ fl) (flN fl) (flC fl) (flV fl) d ∧
      port (getT w t) 0x52 = if bad then port x 0x52 ||| 0x100 else port x 0x52 := by
  obtain ⟨w, hw, hframe, hr, hrh, hfl, hmode⟩ := finish_decEff P hm op
  rw [h.rh, Option.getD_none] at hrh
  refine ⟨w, hw, hframe.narrow ?_, by rw [hr, h.value], by rw [hr, h.good], by rw [hfl, h.d], by rw [hmode, h.bad]⟩
  intro id hid hnot
  simp only [List.mem_cons, List.not_mem_nil, not_or, or_false] at hid hnot
  obtain rfl : id = 0x54 := by omega
  exact hrh

end

/-! #### Shifts, conversions and rounding (R112 to R115) -/

theorem bne_eq_decide_ne {α : Type} [BEq α] [LawfulBEq α] [DecidableEq α] (x y : α) : (x != y) = decide (x ≠ y) := by
  rw [Bool.eq_iff_iff, bne_iff_ne, decide_eq_true_eq]

/-- Outcome o of a DEC trigger is two decimal words, `hi` and `lo`, with D and BAD. -/
structure WideResult (o : DecOut) (hi lo : Nat) (d bad : Bool) : Prop where
  low : decWord o.r = lo
  goodLow : badWord o.r = false
  high : ∃ w, o.rh = some w ∧ decWord w = hi % 10 ^ 8 ∧ badWord w = false
  d : o.d = d
  bad : o.bad = bad

theorem wideResult_shl (a v mode nc fl : Word) :
    let t := decWord a * 10 ^ (v.toNat % 8)
    WideResult (decOp .shl a v mode nc fl) (t / 10 ^ 8) (t % 10 ^ 8) (decide (t / 10 ^ 8 ≠ 0)) (badWord a) := by
  intro t
  refine ⟨(decWord_bcdWord _).trans (Nat.mod_mod _ _), badWord_bcdWord _,
    ⟨_, rfl, decWord_bcdWord _, badWord_bcdWord _⟩, ?_, rfl⟩
  exact decide_eq_decide.2 (by omega)

theorem wideResult_shr (a v mode nc fl : Word) :
    let k := v.toNat % 8
    WideResult (decOp .shr a v mode nc fl) (decWord a % 10 ^ k * 10 ^ (8 - k)) (decWord a / 10 ^ k)
      (decide (decWord a % 10 ^ k ≠ 0)) (badWord a) := by
  intro k
  have hlow : decWord a / 10 ^ k < 10 ^ 8 := Nat.lt_of_le_of_lt (Nat.div_le_self _ _) (decWord_lt a)
  have hd : (decOp .shr a v mode nc fl).d = (decWord a % 10 ^ k != 0) := by rw [decOp]
  have hrh : (decOp .shr a v mode nc fl).rh = some (if k = 0 then 0 else bcdWord (decWord a % 10 ^ k * 10 ^ (8 - k))) := rfl
  refine ⟨(decWord_bcdWord _).trans (Nat.mod_eq_of_lt hlow), badWord_bcdWord _, ⟨_, hrh, ?_⟩,
    hd.trans (bne_eq_decide_ne _ _), rfl⟩
  by_cases hk : k = 0
  · rw [if_pos hk, hk, Nat.pow_zero, Nat.mod_one, Nat.zero_mul]
    decide
  · rw [if_neg hk]
    exact ⟨decWord_bcdWord _, badWord_bcdWord _⟩

theorem wideResult_b2d (a v mode nc fl : Word) : WideResult (decOp .b2d a v mode nc fl) (v.toNat / 10 ^ 8) (v.toNat % 10 ^ 8)
    (decide (10 ^ 8 ≤ v.toNat)) false :=
  ⟨(decWord_bcdWord _).trans (Nat.mod_mod _ _), badWord_bcdWord _, ⟨_, rfl, decWord_bcdWord _, badWord_bcdWord _⟩, rfl, rfl⟩

/-- R114: the ten digits as a binary word. -/
theorem decOutOf_d2b (x : Triad) (v : Word) : decOutOf .d2b x v =
    let n := decVal 2 (port x 0x50).toNat * 10 ^ 8 + decWord v
    { r := BitVec.ofNat 32 n, d := decide (2 ^ 32 ≤ n), bad := decBad 2 (port x 0x50).toNat || badWord v } := rfl

theorem modePlaces_eq (mode : Word) : modePlaces mode = mode.toNat / 16 % 16 := rfl

/-- The rounded value of R115, with `places` digits dropped. -/
def decRounded (mode : Word) (whole : Nat) : Nat :=
  let k := modePlaces mode
  if k = 0 then whole else decRoundQ (modeRnd mode) whole k

theorem wideResult_round (a v mode nc fl : Word) :
    let whole := decWord a * 10 ^ 8 + decWord v
    WideResult (decOp .round a v mode nc fl) (decRounded mode whole / 10 ^ 8) (decRounded mode whole % 10 ^ 8)
      (decide (modePlaces mode ≠ 0 ∧ whole % 10 ^ modePlaces mode ≠ 0)) (badWord a || badWord v) := by
  intro whole
  refine ⟨(decWord_bcdWord _).trans (Nat.mod_mod _ _), badWord_bcdWord _,
    ⟨_, rfl, decWord_bcdWord _, badWord_bcdWord _⟩, ?_, rfl⟩
  rw [Bool.decide_and, ← bne_eq_decide_ne, ← bne_eq_decide_ne]
  rfl

theorem modeRnd_eq (mode : Word) : modeRnd mode = mode.toNat % 4 := congrArg (· % 4) (Nat.div_one _)

/-- The three modes of rounding: half-up, half-even, truncate. -/
theorem decRoundQ_eq (rnd x k : Nat) : decRoundQ rnd x k =
    let q := x / 10 ^ k
    let rest := x % 10 ^ k
    let half := 5 * 10 ^ (k - 1)
    if rnd = 0 then (if half ≤ rest then q + 1 else q)
    else if rnd = 1 then (if half < rest ∨ (rest = half ∧ q % 2 = 1) then q + 1 else q)
    else q := by
  simp only [decRoundQ, Bool.or_eq_true, Bool.and_eq_true, decide_eq_true_eq]

section

variable {s u : State} {t : Nat} {m : Move} {v : Word} {dst : Nat} {f : MoveForm}

/-- A DEC trigger that writes both result words. -/
theorem finish_wideResult (P : Performs s t m v u) (hm : moveOf dst f = .ok m) {op : DecOp} {hi lo : Nat} {d bad : Bool}
    (h : WideResult (decOutOf op (getT u t) v) hi lo d bad) :
    let x := getT u t
    let fl := port x 0x20
    ∃ w, finish (runForm s t dst f {} (decEff op)) = .next w ∧
      (MoveFrame u w t (forgetDec x) [0x53, 0x54, 0x20, 0x52] (nextPc u t m) ∧
        port (getT w t) 0x20 = flMk (flZ fl) (flN fl) (flC fl) (flV fl) d ∧
        port (getT w t) 0x52 = if bad then port x 0x52 ||| 0x100 else port x 0x52) ∧
      decWord (port (getT w t) 0x54) = hi % 10 ^ 8 ∧ badWord (port (getT w t) 0x54) = false ∧
      decWord (port (getT w t) 0x53) = lo ∧ badWord (port (getT w t) 0x53) = false := by
  obtain ⟨w, hw, hframe, hr, hrh, hfl, hmode⟩ := finish_decEff P hm op
  obtain ⟨y, hy, hval, hgood⟩ := h.high
  rw [hy, Option.getD_some] at hrh
  exact ⟨w, hw, ⟨hframe, by rw [hfl, h.d], by rw [hmode, h.bad]⟩, by rw [hrh, hval], by rw [hrh, hgood], by rw [hr, h.low],
    by rw [hr, h.goodLow]⟩

end

/-- Settles O8: every trigger has the frame of `finish_decEff`; the sums, differences and the comparison write dec.r alone
(`finish_lowResult`), shifts, dec.b2d and dec.round both result words (`finish_wideResult`), dec.d2b a binary word. -/
theorem decArithmetic : Obligations.DecArithmetic := by
  unfold Obligations.DecArithmetic
  refine ⟨fun t f s u m v P => ?one, fun t f s u m v P => ⟨?two, ?d2b⟩⟩
  case one =>
    simp only [List.forall_mem_cons, List.not_mem_nil, false_implies, implies_true, and_true, ← decSigned_eq]
    refine ⟨fun hm => ?add, fun hm => finish_lowResult P hm (lowResult_decAdd _ _ _), fun hm => ?sub,
      fun hm => finish_lowResult P hm (lowResult_decSub _ _ _), fun hm => finish_lowResult P hm (lowResult_cmp _ _ _ _ _)⟩
    case add =>
      have h := lowResult_decAdd (port (getT u t.toNat) 0x50) v false
      rw [show ((b2n false : Nat) : Int) = 0 from rfl, Int.add_zero] at h
      exact finish_lowResult P hm h
    case sub =>
      have h := lowResult_decSub (port (getT u t.toNat) 0x50) v false
      rw [show ((b2n false : Nat) : Int) = 0 from rfl, Int.sub_zero] at h
      exact finish_lowResult P hm h
  case two =>
    simp only [List.forall_mem_cons, List.not_mem_nil, false_implies, implies_true, and_true]
    refine ⟨fun hm => finish_wideResult P hm (wideResult_shl _ _ _ _ _),
      fun hm => finish_wideResult P hm (wideResult_shr _ _ _ _ _),
      fun hm => finish_wideResult P hm (wideResult_b2d _ _ _ _ _), fun hm => ?_⟩
    have h := wideResult_round (port (getT u t.toNat) 0x50) v (port (getT u t.toNat) 0x52) (port (getT u t.toNat) 0x32)
      (port (getT u t.toNat) 0x20)
    simp only [decRounded, decRoundQ_eq, modePlaces_eq, modeRnd_eq] at h
    exact finish_wideResult P hm h
  case d2b =>
    intro hm
    obtain ⟨w, hw, hframe, hr, hrh, hfl, hmode⟩ := finish_decEff P hm .d2b
    simp only [decOutOf_d2b] at hr hrh hfl hmode
    exact ⟨w, hw, ⟨hframe, hfl, hmode⟩, hrh, by rw [hr, BitVec.toNat_ofNat]⟩

end Sys2Proof.Machine

namespace Sys2Proof.Machine

/-! ### dec.adj (R111) -/

theorem digitAt_zero_of_good {n w : Nat} (h : decBad (n + 1) w = false) : w % 16 ≤ 9 ∧ digitAt w 0 = w % 16 ∧
    decBad n (w / 16) = false := by
  rw [decBad, Bool.or_eq_false_iff, decide_eq_false_iff_not] at h
  exact ⟨Nat.le_of_not_lt h.1, by rw [digitAt_zero, if_neg h.1], h.2⟩

/-- The binary carry out of the n low nibbles of a sum with carry in c. -/
def nibbleCarry (a b c n : Nat) : Nat := (a % 16 ^ n + b % 16 ^ n + c) / 16 ^ n

theorem nibbleCarry_zero (a b c : Nat) : nibbleCarry a b c 0 = c := by
  rw [nibbleCarry, Nat.pow_zero, Nat.mod_one, Nat.mod_one, Nat.div_one, Nat.zero_add]

/-- A carry out of the lowest nibble is the carry into the rest. -/
theorem nibbleCarry_succ (a b c n : Nat) :
    nibbleCarry a b c (n + 1) = nibbleCarry (a / 16) (b / 16) ((a % 16 + b % 16 + c) / 16) n := by
  rw [nibbleCarry, nibbleCarry, Nat.pow_succ', Nat.mod_mul, Nat.mod_mul, ← Nat.div_div_eq_div_mul]
  congr 1
  omega

theorem nibbleCarry_le_one (a b n : Nat) {c : Nat} (hc : c ≤ 1) : nibbleCarry a b c n ≤ 1 := by
  have hp : 0 < 16 ^ n := Nat.pow_pos (by decide)
  have ha := Nat.mod_lt a hp
  have hb := Nat.mod_lt b hp
  rw [nibbleCarry, ← Nat.lt_succ_iff, Nat.div_lt_iff_lt_mul hp]
  omega

theorem nibbleCarry_eq_one_iff (a b n : Nat) {c : Nat} (hc : c ≤ 1) :
    nibbleCarry a b c n = 1 ↔ 16 ^ n ≤ a % 16 ^ n + b % 16 ^ n + c := by
  have hp : 0 < 16 ^ n := Nat.pow_pos (by decide)
  have h := nibbleCarry_le_one a b n hc
  rw [show nibbleCarry a b c n = 1 ↔ 1 ≤ nibbleCarry a b c n by omega, nibbleCarry, Nat.le_div_iff_mul_le hp, Nat.one_mul]

/-- The sum of two words of n valid digits as the loop of dec.adj meets it: V is the binary sum with carry in k, N holds the
nibble carries. -/
structure BinarySum (n a b k V N : Nat) : Prop where
  goodA : decBad n a = false
  goodB : decBad n b = false
  sum : V % 16 ^ n = (a + b + k) % 16 ^ n
  carries : ∀ i, i < n → N / 2 ^ i % 2 = nibbleCarry a b k (i + 1)

/-- The sum without its lowest digit. -/
theorem BinarySum.tail {n a b k V N : Nat} (h : BinarySum (n + 1) a b k V N) :
    V % 16 = (a + b + k) % 16 ∧ N % 2 = (a % 16 + b % 16 + k) / 16 ∧
      BinarySum n (a / 16) (b / 16) ((a % 16 + b % 16 + k) / 16) (V / 16) (N / 2) := by
  have hs := h.sum
  have hdiv : (a + b + k) / 16 = a / 16 + b / 16 + (a % 16 + b % 16 + k) / 16 := by omega
  rw [Nat.pow_succ', Nat.mod_mul, Nat.mod_mul, hdiv] at hs
  have h0 := h.carries 0 (Nat.succ_pos n)
  rw [Nat.pow_zero, Nat.div_one, nibbleCarry_succ, nibbleCarry_zero] at h0
  refine ⟨by omega, h0, (digitAt_zero_of_good h.goodA).2.2, (digitAt_zero_of_good h.goodB).2.2, by omega, fun i hi => ?_⟩
  rw [Nat.div_div_eq_div_mul, ← Nat.pow_succ', h.carries (i + 1) (Nat.succ_lt_succ hi), nibbleCarry_succ]

/-- One digit of dec.adj, where the digits a and b were added with k and the digit takes c: d is the decimal sum's digit, and its
carry is the nibble's or goes to the next digit as c'. -/
theorem decAdjLoop_succ {n a b k V N c : Nat} (ha : a ≤ 9) (hb : b ≤ 9) (hc : k + c ≤ 1) (hV : V % 16 = (a + b + k) % 16)
    (hN : N % 2 = (a + b + k) / 16) :
    ∃ d c', decAdjLoop (n + 1) V N c = (d + 16 * (decAdjLoop n (V / 16) (N / 2) c').1, (decAdjLoop n (V / 16) (N / 2) c').2) ∧
      d + 10 * (N % 2 + c') = a + b + k + c ∧ d ≤ 9 ∧ N % 2 + c' ≤ 1 := by
  by_cases hcarry : N % 2 = 1
  · exact ⟨(V % 16 + c + 6) % 16, 0, by simp [decAdjLoop, hcarry], by omega, by omega, by omega⟩
  · by_cases hover : 9 < V % 16 + c
    · exact ⟨(V % 16 + c + 6) % 16, 1, by simp [decAdjLoop, hcarry, hover], by omega, by omega, by omega⟩
    · exact ⟨(V % 16 + c) % 16, 0, by simp [decAdjLoop, hcarry, hover], by omega, by omega, by omega⟩

/-- The loop of dec.adj over the binary sum of two words of n digits: the digits of the decimal sum, whose carry out is a nibble
carry or the loop's. The carry into a digit is either a nibble's, k, or the loop's, c. -/
theorem decAdjLoop_spec (n : Nat) : ∀ {a b k V N c : Nat}, BinarySum n a b k V N → k + c ≤ 1 →
    let p := decAdjLoop n V N c
    decVal n p.1 + 10 ^ n * (nibbleCarry a b k n + p.2) = decVal n a + decVal n b + k + c ∧
      decBad n p.1 = false ∧ p.1 < 16 ^ n := by
  induction n with
  | zero =>
    intro a b k V N c _ _
    simp [decAdjLoop, decVal, decBad, nibbleCarry_zero]
  | succ n ih =>
    intro a b k V N c h hc
    obtain ⟨hV, hN, htail⟩ := h.tail
    obtain ⟨ha, hda, -⟩ := digitAt_zero_of_good h.goodA
    obtain ⟨hb, hdb, -⟩ := digitAt_zero_of_good h.goodB
    obtain ⟨d, c', hloop, hdigit, hd, hc'⟩ :=
      decAdjLoop_succ (n := n) ha hb hc (by omega : V % 16 = (a % 16 + b % 16 + k) % 16) hN
    rw [hN] at hdigit hc'
    obtain ⟨hval, hgood, hlt⟩ := ih htail hc'
    generalize decAdjLoop n (V / 16) (N / 2) c' = p at hloop hval hgood hlt
    rw [hloop, nibbleCarry_succ]
    dsimp only
    rw [decVal_cons _ _ hd, decBad_cons _ _ hd, decVal, decVal, hda, hdb]
    refine ⟨?_, hgood, ?_⟩
    · rw [Nat.pow_succ', Nat.mul_assoc]
      omega
    · rw [Nat.pow_succ']
      omega

/-- The operands of alu.add on words of valid digits, with its sum and nibble carries. -/
theorem binarySum_of_add {a b nc : Word} (ha : badWord a = false) (hb : badWord b = false)
    (hnc : ∀ i, i < 8 → nc.getLsbD i =
      decide (2 ^ (4 * i + 4) ≤ a.toNat % 2 ^ (4 * i + 4) + b.toNat % 2 ^ (4 * i + 4))) :
    BinarySum 8 a.toNat b.toNat 0 (a + b).toNat nc.toNat := by
  refine ⟨ha, hb, ?_, fun i hi => ?_⟩
  · rw [BitVec.toNat_add, Nat.add_zero, show 2 ^ 32 = 16 ^ 8 from rfl, Nat.mod_mod]
  · have hp : 2 ^ (4 * i + 4) = 16 ^ (i + 1) := by rw [show 4 * i + 4 = 4 * (i + 1) by omega, Nat.pow_mul]
    have h := hnc i hi
    rw [BitVec.getLsbD, Nat.testBit_eq_decide_div_mod_eq, decide_eq_decide, hp] at h
    have hone := (nibbleCarry_eq_one_iff a.toNat b.toNat (i + 1) (Nat.zero_le 1)).trans h.symm
    have hle := nibbleCarry_le_one a.toNat b.toNat (i + 1) (Nat.zero_le 1)
    omega

/-- R111 on the sum of two words of valid digits. -/
theorem decAdj_of_add {a b nc : Word} (mode fl x : Word) (ha : badWord a = false) (hb : badWord b = false)
    (hnc : ∀ i, i < 8 → nc.getLsbD i =
      decide (2 ^ (4 * i + 4) ≤ a.toNat % 2 ^ (4 * i + 4) + b.toNat % 2 ^ (4 * i + 4))) :
    let o := decOp .adj x (a + b) mode nc fl
    decWord o.r = (decWord a + decWord b) % 10 ^ 8 ∧ badWord o.r = false ∧
      o.d = decide (10 ^ 8 ≤ decWord a + decWord b) := by
  have h := binarySum_of_add ha hb hnc
  obtain ⟨hval, hgood, hlt⟩ := decAdjLoop_spec 8 h (c := 0) (by decide)
  have hseven : nc.toNat / 2 ^ 7 % 2 = nibbleCarry a.toNat b.toNat 0 8 := h.carries 7 (by decide)
  have hle := nibbleCarry_le_one a.toNat b.toNat 8 (Nat.zero_le 1)
  simp only [decOp]
  generalize decAdjLoop 8 (a + b).toNat nc.toNat 0 = p at hval hgood hlt
  have hr : (BitVec.ofNat 32 p.1).toNat = p.1 := by rw [BitVec.toNat_ofNat]; exact Nat.mod_eq_of_lt hlt
  have hpval : decVal 8 p.1 < 10 ^ 8 := decVal_lt 8 _
  have hva : decVal 8 a.toNat < 10 ^ 8 := decVal_lt 8 _
  have hvb : decVal 8 b.toNat < 10 ^ 8 := decVal_lt 8 _
  rw [Nat.add_zero] at hval
  refine ⟨?_, ?_, ?_⟩
  · rw [decWord, decWord, decWord, hr]
    omega
  · rw [badWord, hr, hgood]
  · rw [BitVec.getLsbD, Nat.testBit_eq_decide_div_mod_eq, hseven, Bool.eq_iff_iff, Bool.or_eq_true, beq_iff_eq, decide_eq_true_eq,
      decide_eq_true_eq, decWord, decWord]
    omega

/-- Settles O9: the frame is that of every DEC trigger (`finish_decEff`) without dec.rh and BAD; on a sum of valid digits the
loop's carries and the nibbles' together are the decimal ones (`decAdjLoop_spec`). -/
theorem decAdjusts : Obligations.DecAdjusts := by
  unfold Obligations.DecAdjusts
  intro t f s u m v P hm x fl
  obtain ⟨w, hw, hframe, hr, hrh, hfl, hmode⟩ := finish_decEff P hm .adj
  refine ⟨w, _, hw, hframe.narrow ?_, hfl, ?_⟩
  · intro id hid hnot
    simp only [List.mem_cons, List.not_mem_nil, not_or, or_false] at hid hnot
    rcases (by omega : id = 0x54 ∨ id = 0x52) with rfl | rfl
    · exact hrh
    · exact hmode
  · rintro a b ha hb rfl hnc
    rw [hr]
    exact decAdj_of_add _ _ _ ha hb hnc

end Sys2Proof.Machine

namespace Sys2Proof.Machine

/-! ### The steps of dec.mulw (R117) -/

/-- h of R117: the highest of the n low digits that does not read as 0; 0 where there is none. -/
theorem decHigh_spec (n w : Nat) : (0 < n → decHigh n w < n) ∧ (decHigh n w = 0 ∨ digitAt w (decHigh n w) ≠ 0) ∧
    ∀ j, decHigh n w < j → j < n → digitAt w j = 0 := by
  induction n with
  | zero => exact ⟨fun h => h, .inl rfl, fun j _ h => absurd h (Nat.not_lt_zero j)⟩
  | succ n ih =>
    obtain ⟨hlt, hne, hz⟩ := ih
    by_cases h : digitAt w n = 0
    · have e : decHigh (n + 1) w = decHigh n w := if_neg (by rw [h]; decide)
      rw [e]
      refine ⟨fun _ => ?_, hne, fun j h1 h2 => ?_⟩
      · rcases Nat.eq_zero_or_pos n with rfl | hn
        · exact Nat.one_pos
        · exact Nat.lt_trans (hlt hn) (Nat.lt_succ_self n)
      · rcases Nat.lt_succ_iff_lt_or_eq.1 h2 with h3 | rfl
        · exact hz j h1 h3
        · exact h
    · have e : decHigh (n + 1) w = n := if_pos (bne_iff_ne.2 h)
      rw [e]
      exact ⟨fun _ => Nat.lt_succ_self n, .inr h, fun j h1 h2 => by omega⟩

/-- The digits of a multiplier up to h are its value. -/
theorem decVal_decHigh (w : Nat) : decVal (decHigh 8 w + 1) w = decVal 8 w := by
  obtain ⟨hlt, -, hz⟩ := decHigh_spec 8 w
  have hlt := hlt (by decide)
  have h := decVal_add_of_zero (decHigh 8 w + 1) (7 - decHigh 8 w) w fun j h1 h2 => hz j h1 (by omega)
  rwa [show decHigh 8 w + 1 + (7 - decHigh 8 w) = 8 by omega, eq_comm] at h

/-- The accumulator of dec.mulw: dec.rh ++ dec.r as 16 digits. -/
def mulwAcc (st : DecStep) : Nat := decWord st.rh * 10 ^ 8 + decWord st.r

/-- The steps 2j + 1 and 2j + 2 of dec.mulw, that add the product with digit j in its place. -/
def mulwPair (a v : Word) (st : DecStep) (j : Nat) : DecStep :=
  mulwStep (2 * j + 1 + 1) a v (mulwStep (2 * j + 1) a v st)

/-- The steps of dec.mulw are one pair for each digit. -/
theorem foldl_mulwStep (a v : Word) (st : DecStep) (n : Nat) :
    (List.range (2 * n)).foldl (fun st k => mulwStep (k + 1) a v st) st = (List.range n).foldl (mulwPair a v) st := by
  induction n with
  | zero => simp only [Nat.mul_zero, List.range_zero, List.foldl_nil]
  | succ n ih =>
    rw [show 2 * (n + 1) = 2 * n + 1 + 1 from rfl, List.range_succ, List.range_succ, List.range_succ]
    simp only [List.foldl_append, List.foldl_cons, List.foldl_nil, ih, mulwPair]

/-- What one pair of steps leaves: the sum as two decimal words, D after the pair of digit h. -/
theorem mulwPair_eq (a v : Word) (st : DecStep) (j : Nat) :
    let t := (if j = 0 then 0 else mulwAcc st) + decWord a * digitAt v.toNat j * 10 ^ j
    let rh := bcdWord (t / 10 ^ 8 % 10 ^ 8)
    mulwPair a v st j = { st with r := bcdWord (t % 10 ^ 8), rh := rh,
                                  bin := BitVec.ofNat 32 (decWord a * digitAt v.toNat j),
                                  d := if j = decHigh 8 v.toNat then some (rh != 0) else none } := by
  have ha := decWord_lt a
  have hd := digitAt_le v.toNat j
  have hp : decWord a * digitAt v.toNat j < 2 ^ 32 := by
    calc decWord a * digitAt v.toNat j ≤ 10 ^ 8 * 9 := Nat.mul_le_mul (Nat.le_of_lt ha) hd
      _ < 2 ^ 32 := by decide
  have h1 : (2 * j + 1) % 2 = 1 := by omega
  have h2 : ¬ (2 * j + 1 + 1) % 2 = 1 := by omega
  have j1 : (2 * j + 1 - 1) / 2 = j := by omega
  have j2 : (2 * j + 1 + 1 - 1) / 2 = j := by omega
  have hb : (BitVec.ofNat 32 (decWord a * digitAt v.toNat j)).toNat = decWord a * digitAt v.toNat j := by
    rw [BitVec.toNat_ofNat, Nat.mod_eq_of_lt hp]
  by_cases h0 : j = 0
  · subst h0
    simp only [mulwPair, mulwStep, h1, h2, j1, if_true, if_false, hb]
    rfl
  · simp only [mulwPair, mulwStep, h1, h2, j1, j2, h0, if_true, if_false, hb]
    rfl

/-- What stands after the pairs of n + 1 digits: the product with the multiplier's n + 1 low digits. -/
structure MulwDone (a v : Word) (st : DecStep) (n : Nat) (e : DecStep) : Prop where
  acc : mulwAcc e = decWord a * decVal (n + 1) v.toNat
  goodRh : badWord e.rh = false
  goodR : badWord e.r = false
  q : e.q = st.q
  rm : e.rm = st.rm
  d : e.d = if n = decHigh 8 v.toNat then some (e.rh != 0) else none

/-- A pair of steps whose sum with digit n in its place fits in 16 digits. -/
theorem mulwDone_pair {a v : Word} {st f : DecStep} {n : Nat} (hn : n < 8) (hq : f.q = st.q) (hrm : f.rm = st.rm)
    (hacc : (if n = 0 then 0 else mulwAcc f) = decWord a * decVal n v.toNat) : MulwDone a v st n (mulwPair a v f n) := by
  have hsum : decWord a * decVal n v.toNat + decWord a * digitAt v.toNat n * 10 ^ n = decWord a * decVal (n + 1) v.toNat := by
    rw [decVal_succ_top, Nat.mul_add, Nat.mul_assoc, Nat.mul_comm (digitAt v.toNat n)]
  have hlt : decWord a * decVal (n + 1) v.toNat < 10 ^ 8 * 10 ^ 8 :=
    Nat.mul_lt_mul'' (decWord_lt a) (Nat.lt_of_lt_of_le (decVal_lt _ _) (Nat.pow_le_pow_right (by decide) hn))
  rw [mulwPair_eq, hacc, hsum]
  refine ⟨?_, badWord_bcdWord _, badWord_bcdWord _, hq, hrm, rfl⟩
  simp only [mulwAcc, decWord_bcdWord]
  omega

theorem mulwDone_foldl (a v : Word) (st : DecStep) {n : Nat} (hn : n < 8) :
    MulwDone a v st n ((List.range (n + 1)).foldl (mulwPair a v) st) := by
  induction n with
  | zero => exact mulwDone_pair hn rfl rfl (by rw [if_pos rfl, decVal, Nat.mul_zero])
  | succ n ih =>
    have h := ih (by omega)
    rw [List.range_succ, List.foldl_append]
    exact mulwDone_pair hn h.q h.rm (by rw [if_neg (Nat.succ_ne_zero n), h.acc])

/-! ### The steps of dec.divw (R118) -/

/-- The trial digit is the largest up to n whose product with the divisor does not exceed the dividend. -/
theorem trialDigit_spec (n d x : Nat) :
    trialDigit n d x ≤ n ∧ trialDigit n d x * d ≤ x ∧ (trialDigit n d x = n ∨ x < (trialDigit n d x + 1) * d) := by
  induction n with
  | zero => exact ⟨Nat.le_refl 0, by rw [trialDigit, Nat.zero_mul]; exact Nat.zero_le x, .inl rfl⟩
  | succ n ih =>
    obtain ⟨hle, hmul, hmax⟩ := ih
    by_cases h : (n + 1) * d ≤ x
    · rw [trialDigit, if_pos h]; exact ⟨Nat.le_refl _, h, .inl rfl⟩
    · rw [trialDigit, if_neg h]
      refine ⟨Nat.le_trans hle (Nat.le_succ n), hmul, .inr ?_⟩
      rcases hmax with hn | hlt
      · rw [hn]; exact Nat.lt_of_not_le h
      · exact hlt

/-- With a dividend below ten times the divisor, what the trial digit leaves is a remainder. -/
theorem trialDigit_rest {d x : Nat} (h : x < 10 * d) : x - trialDigit 9 d x * d < d := by
  obtain ⟨-, hle, hmax⟩ := trialDigit_spec 9 d x
  have hlt : x < (trialDigit 9 d x + 1) * d := hmax.elim (fun e => by rw [e]; exact h) id
  rw [Nat.succ_mul] at hlt
  omega

/-- What step 1 of dec.divw sets before it takes the first digit. -/
def divwInit (a : Word) (st : DecStep) : DecStep :=
  { st with q := 0, rm := bcdWord (decWord a), bin := BitVec.ofNat 32 (decWord a) }

/-- Where the quotient does not fit, the one step sets D. -/
theorem divwStep_overflow {a v : Word} (h : decWord v ≤ decWord a) (n : Nat) (b : Word) (st : DecStep) :
    divwStep n a b v st = { st with d := some true } := by
  simp only [divwStep, h, if_true]

theorem divwStep_one {a v : Word} (b : Word) (st : DecStep) (h : decWord a < decWord v) :
    divwStep 1 a b v st = divwStep 1 a b v (divwInit a st) := by
  simp only [divwStep, Nat.not_le.2 h, if_false, if_true, divwInit]

/-- The five steps that give digit 7 - m of the quotient. -/
def divwFive (a b v : Word) (st : DecStep) (m : Nat) : DecStep :=
  (List.range 5).foldl (fun st k => divwStep (5 * m + k + 1) a b v st) st

theorem foldl_divwStep (a b v : Word) (st : DecStep) (n : Nat) :
    (List.range (5 * n)).foldl (fun st k => divwStep (k + 1) a b v st) st = (List.range n).foldl (divwFive a b v) st := by
  induction n with
  | zero => simp only [Nat.mul_zero, List.range_zero, List.foldl_nil]
  | succ n ih =>
    rw [Nat.mul_succ, List.range_add, List.range_succ (n := n), List.foldl_append, List.foldl_append, List.foldl_map, ih]
    simp only [List.foldl_cons, List.foldl_nil, divwFive]

/-- The first of five steps takes the next digit of the dividend. -/
theorem divwStep_first {a b v : Word} {st : DecStep} {m : Nat} (h : decWord a < decWord v) (h0 : m = 0 → divwInit a st = st) :
    divwStep (5 * m + 0 + 1) a b v st = { st with bin := BitVec.ofNat 32 (st.bin.toNat * 10 + digitAt b.toNat (7 - m)) } := by
  have h1 : (5 * m + 0 + 1) % 5 = 1 := by omega
  have h2 : (5 * m + 0 + 1 - 1) / 5 = m := by omega
  have hs : (if 5 * m + 0 + 1 = 1 then divwInit a st else st) = st := by
    split
    · exact h0 (by omega)
    · rfl
  unfold divwInit at hs
  simp only [divwStep, Nat.not_le.2 h, if_false, hs, h1, h2, if_true]

/-- The second to fourth of five steps change nothing that is kept. -/
theorem divwStep_middle {a v : Word} (b : Word) (st : DecStep) (n : Nat) (h : decWord a < decWord v) (h1 : n ≠ 1)
    (h2 : n % 5 ≠ 0) (h3 : n % 5 ≠ 1) : divwStep n a b v st = st := by
  simp only [divwStep, Nat.not_le.2 h, if_false, h1, h2, h3]

/-- The fifth step subtracts the largest multiple of the divisor and writes the quotient's digit and the remainder. -/
theorem divwStep_fifth {a b v : Word} {st : DecStep} {m : Nat} (h : decWord a < decWord v) :
    let q := trialDigit 9 (decWord v) st.bin.toNat
    let x := st.bin.toNat - q * decWord v
    divwStep (5 * m + 4 + 1) a b v st =
      { st with bin := BitVec.ofNat 32 x, rm := bcdWord x,
                q := BitVec.ofNat 32 (bitsPut st.q.toNat (4 * (7 - m) + 3) (4 * (7 - m)) q),
                d := if m = 7 then some false else none } := by
  have h1 : ¬ 5 * m + 4 + 1 = 1 := by omega
  have h2 : (5 * m + 4 + 1) % 5 = 0 := by omega
  have h3 : (5 * m + 4 + 1 - 1) / 5 = m := by omega
  have h4 : (5 * m + 4 + 1 = 40) = (m = 7) := propext (by omega)
  simp only [divwStep, Nat.not_le.2 h, if_false, h1, h2, h3, h4, if_true, Nat.zero_ne_one]

/-- R118 of one digit: R is ten times the remainder with the dividend's next digit; it is divided by the divisor. -/
theorem divwFive_eq {a b v : Word} {st : DecStep} {m : Nat} (h : decWord a < decWord v) (h0 : m = 0 → divwInit a st = st)
    (hx : st.bin.toNat < decWord v) :
    let r := st.bin.toNat * 10 + digitAt b.toNat (7 - m)
    let q := trialDigit 9 (decWord v) r
    divwFive a b v st m =
      { st with bin := BitVec.ofNat 32 (r - q * decWord v), rm := bcdWord (r - q * decWord v),
                q := BitVec.ofNat 32 (bitsPut st.q.toNat (4 * (7 - m) + 3) (4 * (7 - m)) q),
                d := if m = 7 then some false else none } := by
  have hv := decWord_lt v
  have hd := digitAt_le b.toNat (7 - m)
  have hr : (BitVec.ofNat 32 (st.bin.toNat * 10 + digitAt b.toNat (7 - m))).toNat =
      st.bin.toNat * 10 + digitAt b.toNat (7 - m) := by
    rw [BitVec.toNat_ofNat, Nat.mod_eq_of_lt (by omega)]
  simp only [divwFive, List.range_succ, List.range_zero, List.nil_append, List.cons_append, List.foldl_cons, List.foldl_nil]
  rw [divwStep_first h h0, divwStep_middle b _ (5 * m + 1 + 1) h (by omega) (by omega) (by omega),
    divwStep_middle b _ (5 * m + 2 + 1) h (by omega) (by omega) (by omega),
    divwStep_middle b _ (5 * m + 3 + 1) h (by omega) (by omega) (by omega),
    divwStep_fifth h]
  simp only [hr]

/-! #### The quotient's digits from the top -/

/-- A digit put in place i of a word that holds digits above it alone. -/
theorem bitsPut_digit (i x w : Nat) (hx : x < 16) :
    bitsPut (16 ^ (i + 1) * w) (4 * i + 3) (4 * i) x = 16 ^ i * (x + 16 * w) := by
  have e1 : 2 ^ (4 * i) = 16 ^ i := by rw [Nat.pow_mul]
  have e2 : 2 ^ (4 * i + 3 + 1) = 16 ^ (i + 1) := by rw [show 4 * i + 3 + 1 = 4 * (i + 1) by omega, Nat.pow_mul]
  have e3 : 4 * i + 3 + 1 - 4 * i = 4 := by omega
  have hp : 0 < 16 ^ (i + 1) := Nat.pow_pos (by decide)
  rw [bitsPut, e1, e2, e3, Nat.mul_div_cancel_left _ hp, Nat.pow_succ, Nat.mul_assoc, Nat.mul_mod_right,
    Nat.mod_eq_of_lt (b := 2 ^ 4) hx, Nat.zero_add, Nat.mul_add, Nat.mul_comm x, Nat.mul_left_comm w, Nat.mul_comm w]

/-- The next digit q of the quotient, put below the m upper digits W of dec.q. -/
theorem toNat_quotientDigit {i m W q : Nat} (hi : i + (m + 1) = 8) (hq : q ≤ 9) (hW : W < 16 ^ m) :
    (BitVec.ofNat 32 (bitsPut (16 ^ (i + 1) * W) (4 * i + 3) (4 * i) q)).toNat = 16 ^ i * (q + 16 * W) := by
  have hlt : q + 16 * W < 16 ^ (m + 1) := by rw [Nat.pow_succ]; omega
  rw [bitsPut_digit _ _ _ (by omega), BitVec.toNat_ofNat, Nat.mod_eq_of_lt]
  calc 16 ^ i * (q + 16 * W) < 16 ^ i * 16 ^ (m + 1) := Nat.mul_lt_mul_of_pos_left hlt (Nat.pow_pos (by decide))
    _ = 2 ^ 32 := by rw [← Nat.pow_add, hi, show 2 ^ 32 = 16 ^ 8 from rfl]

/-- What stands after the digits 7 to 8 - m of the quotient: they are W, dec.q's upper m digits, and the remainder is in
dec.rm; the dividend is quotient times divisor with the remainder and the digits not yet taken. -/
structure DivwAt (a b v : Word) (st : DecStep) (m : Nat) (e : DecStep) (W : Nat) : Prop where
  start : m = 0 → divwInit a e = e
  quot : e.q.toNat = 16 ^ (8 - m) * W
  bound : W < 16 ^ m
  good : decBad m W = false
  rest : e.bin.toNat < decWord v
  rm : e.rm = bcdWord e.bin.toNat
  value : (decVal m W * decWord v + e.bin.toNat) * 10 ^ (8 - m) + decVal (8 - m) b.toNat =
    decWord a * 10 ^ 8 + decWord b
  r : e.r = st.r
  rh : e.rh = st.rh
  d : m = 8 → e.d = some false

theorem divwAt_zero {a v : Word} (b : Word) (st : DecStep) (h : decWord a < decWord v) :
    DivwAt a b v st 0 (divwInit a st) 0 := by
  have hb : (BitVec.ofNat 32 (decWord a)).toNat = decWord a := by
    rw [BitVec.toNat_ofNat, Nat.mod_eq_of_lt (Nat.lt_trans (decWord_lt a) (by decide))]
  refine ⟨fun _ => rfl, rfl, by decide, rfl, by rw [divwInit, hb]; exact h, congrArg bcdWord hb.symm, ?_, rfl, rfl,
    fun h8 => by omega⟩
  simp only [divwInit, hb, decVal, Nat.zero_mul, Nat.zero_add]
  rfl

/-- Long division by one digit: V is the quotient so far and e its remainder, g the next digit, with place P, of the dividend, q
and x the quotient's digit and the remainder that it leaves, L the digits below. -/
theorem divwValue_step {V D q x e g P L r : Nat} (hr : r = e * 10 + g) (hx : q * D + x = r) :
    ((q + 10 * V) * D + x) * P + L = (V * D + e) * (P * 10) + (L + P * g) := by
  have htop : (q + 10 * V) * D + x = 10 * (V * D + e) + g := by
    rw [Nat.add_mul, Nat.mul_assoc]
    omega
  have hplace : 10 * (V * D + e) * P = (V * D + e) * (P * 10) := by
    rw [Nat.mul_comm 10, Nat.mul_assoc, Nat.mul_comm 10]
  rw [htop, Nat.add_mul, hplace, Nat.mul_comm g, Nat.add_assoc, Nat.add_comm L]

/-- Five steps give one more digit of the quotient. -/
theorem divwAt_five {a b v : Word} {st e : DecStep} {m W : Nat} (hm : m < 8) (h : decWord a < decWord v)
    (I : DivwAt a b v st m e W) : ∃ q, DivwAt a b v st (m + 1) (divwFive a b v e m) (q + 16 * W) := by
  obtain ⟨i, hi⟩ : ∃ i, 8 - m = i + 1 := ⟨7 - m, by omega⟩
  have hi7 : 7 - m = i := by omega
  have hi8 : 8 - (m + 1) = i := by omega
  have hv := decWord_lt v
  have hd := digitAt_le b.toNat i
  have hrest := I.rest
  obtain ⟨r, hr⟩ : ∃ r, r = e.bin.toNat * 10 + digitAt b.toNat i := ⟨_, rfl⟩
  obtain ⟨hq9, hqr, -⟩ := trialDigit_spec 9 (decWord v) r
  have hx := trialDigit_rest (d := decWord v) (x := r) (by omega)
  have heq := divwFive_eq (b := b) h I.start I.rest
  simp only [hi7, ← hr] at heq
  generalize trialDigit 9 (decWord v) r = q at hq9 hqr hx heq
  have hxb : (BitVec.ofNat 32 (r - q * decWord v)).toNat = r - q * decWord v := by
    rw [BitVec.toNat_ofNat, Nat.mod_eq_of_lt (by omega)]
  have hput := toNat_quotientDigit (by omega : i + (m + 1) = 8) hq9 I.bound
  rw [← hi, ← I.quot] at hput
  rw [heq]
  refine ⟨q, fun h0 => absurd h0 (Nat.succ_ne_zero m), ?_, ?_, ?_, by rw [hxb]; exact hx, congrArg bcdWord hxb.symm, ?_,
    I.r, I.rh, fun h8 => if_pos (by omega)⟩
  · rw [hi8]; exact hput
  · have hW := I.bound
    rw [Nat.pow_succ]; omega
  · rw [decBad_cons _ _ hq9, I.good]
  · have hval := I.value
    rw [hi, decVal_succ_top, Nat.pow_succ] at hval
    rw [hxb, hi8, decVal_cons _ _ hq9, ← hval]
    exact divwValue_step hr (Nat.add_sub_cancel' hqr)

/-- Five steps for each digit of the quotient. -/
theorem divwAt_foldl {a v : Word} (b : Word) (st : DecStep) (h : decWord a < decWord v) {m : Nat} (hm : m ≤ 8) :
    ∃ W, DivwAt a b v st m ((List.range m).foldl (divwFive a b v) (divwInit a st)) W := by
  induction m with
  | zero => exact ⟨0, divwAt_zero b st h⟩
  | succ m ih =>
    obtain ⟨W, I⟩ := ih (by omega)
    obtain ⟨q, J⟩ := divwAt_five hm h I
    rw [List.range_succ, List.foldl_append, List.foldl_cons, List.foldl_nil]
    exact ⟨_, J⟩

/-- The 40 steps from any state: the first sets what they start from. -/
theorem divwAt_steps {a v : Word} (b : Word) (st : DecStep) (h : decWord a < decWord v) :
    ∃ W, DivwAt a b v st 8 ((List.range 40).foldl (fun st k => divwStep (k + 1) a b v st) st) W := by
  have hinit : (List.range 40).foldl (fun st k => divwStep (k + 1) a b v st) st =
      (List.range (5 * 8)).foldl (fun st k => divwStep (k + 1) a b v st) (divwInit a st) := by
    rw [show 5 * 8 = 39 + 1 from rfl, show 40 = 39 + 1 from rfl, List.range_succ_eq_map, List.foldl_cons, List.foldl_cons,
      divwStep_one b st h]
  rw [hinit, foldl_divwStep]
  exact divwAt_foldl b st h (Nat.le_refl 8)

theorem decSteps_mulw (a v : Word) : decSteps 0x6A a v = 2 * (decHigh 8 v.toNat + 1) := rfl

theorem decSteps_divw (a v : Word) : decSteps 0x6B a v = if decWord v ≤ decWord a then 1 else 40 :=
  if_neg (by decide)

/-- R117 of all the steps of dec.mulw. -/
theorem mulwSteps_product (a v : Word) (st : DecStep) :
    let e := (List.range (decSteps 0x6A a v)).foldl (fun st k => mulwStep (k + 1) a v st) st
    decWord e.rh * 10 ^ 8 + decWord e.r = decWord a * decWord v ∧ badWord e.rh = false ∧ badWord e.r = false ∧
      e.d = some (decide (e.rh ≠ 0)) ∧ e.q = st.q ∧ e.rm = st.rm := by
  have hlt := (decHigh_spec 8 v.toNat).1 (by decide)
  have M := mulwDone_foldl a v st hlt
  have hacc := M.acc
  rw [decVal_decHigh] at hacc
  have hd := M.d
  rw [if_pos rfl] at hd
  rw [decSteps_mulw, foldl_mulwStep]
  exact ⟨hacc, M.goodRh, M.goodR, hd.trans (congrArg some (bne_eq_decide_ne _ _)), M.q, M.rm⟩

/-- R118 of the 40 steps of dec.divw where the quotient fits. -/
theorem divwSteps_quotient {a v : Word} (b : Word) (st : DecStep) (h : decWord a < decWord v) :
    let e := (List.range 40).foldl (fun st k => divwStep (k + 1) a b v st) st
    e.r = st.r ∧ e.rh = st.rh ∧ e.d = some false ∧ decWord e.rm < decWord v ∧ badWord e.q = false ∧
      badWord e.rm = false ∧
      decWord e.q * decWord v + decWord e.rm = decWord a * 10 ^ 8 + decWord b := by
  obtain ⟨W, I⟩ := divwAt_steps b st h
  generalize (List.range 40).foldl (fun st k => divwStep (k + 1) a b v st) st = e at I
  have hq : e.q.toNat = W := I.quot.trans (by rw [Nat.sub_self, Nat.pow_zero, Nat.one_mul])
  have hrm : decWord e.rm = e.bin.toNat := by
    rw [I.rm, decWord_bcdWord, Nat.mod_eq_of_lt (Nat.lt_trans I.rest (decWord_lt v))]
  have hval := I.value
  simp only [Nat.sub_self, Nat.pow_zero, Nat.mul_one, decVal, Nat.add_zero, ← hq] at hval
  refine ⟨I.r, I.rh, I.d rfl, by rw [hrm]; exact I.rest, ?_, by rw [I.rm, badWord_bcdWord], by rw [hrm]; exact hval⟩
  rw [badWord, hq, I.good]

/-- Settles O10: the steps of dec.mulw go by pairs, one for each digit (`mulwDone_foldl`), those of dec.divw by fives
(`divwAt_foldl`); where the quotient does not fit there is one step (`divwStep_overflow`). -/
theorem decProducts : Obligations.DecProducts := by
  unfold Obligations.DecProducts
  refine ⟨fun a v st => ?mulw, fun a b v st _ => ?divw⟩
  case mulw =>
    obtain ⟨hacc, hrh, hr, hd, hq, hrm⟩ := mulwSteps_product a v st
    obtain ⟨hlt, hne, hz⟩ := decHigh_spec 8 v.toNat
    exact ⟨hacc, hrh, hr, hd, hq, hrm, decHigh 8 v.toNat, hlt (by decide), decSteps_mulw a v, hne, hz⟩
  case divw =>
    by_cases h : decWord v ≤ decWord a
    · have hsteps : decSteps 0x6B a v = 1 := by rw [decSteps_divw, if_pos h]
      simp only [hsteps, if_pos h, List.range_one, List.foldl_cons, List.foldl_nil, divwStep_overflow h, and_self]
    · have hsteps : decSteps 0x6B a v = 40 := by rw [decSteps_divw, if_neg h]
      obtain ⟨hr, hrh, hrest⟩ := divwSteps_quotient b st (Nat.lt_of_not_le h)
      simp only [hsteps, if_neg h, true_and]
      exact ⟨hr, hrh, hrest⟩

end Sys2Proof.Machine

namespace Sys2Proof.Machine

/-! ### Moves that leave the triad's record, and moves that start a routine (R163) -/

/-- A command that performs a move whose unit changes nothing. -/
theorem finish_unchanged {s u : State} {t : Nat} {m : Move} {v : Word} {c : Circ} (P : Performs s t m v u c) {eff : UnitEff}
    (he : eff u t v (segOf m.op) m none = .done u) :
    ∃ w, finish (runMove s t (.ok m) m.len c eff) = .next w ∧ MoveFrame u w t (getT u t) [] (nextPc u t m) := by
  obtain ⟨w, hw, hretired, hports, hothers, hmem, hcard⟩ := finish_done P he rfl P.after
  exact ⟨w, hw, hretired, fun id _ => by unfold port; rw [hports], hothers, hmem, hcard⟩

/-- A command that performs a move whose unit changes triad t's loop stack alone. -/
theorem finish_loops {s u : State} {t : Nat} {m : Move} {v : Word} {c : Circ} (P : Performs s t m v u c) {eff : UnitEff}
    {l : List LoopLevel} (he : eff u t v (segOf m.op) m none = .done (setT u t { getT u t with loops := l })) :
    ∃ w, finish (runMove s t (.ok m) m.len c eff) = .next w ∧
      MoveFrame u w t { getT u t with loops := l } [] (nextPc u t m) := by
  obtain ⟨w, hw, hframe, -⟩ := finish_record P { getT u t with loops := l } _ rfl he P.after [] fun _ _ => rfl
  exact ⟨w, hw, hframe⟩

/-- A move whose unit starts a routine makes the routine's first step. The pairing of the routine is that of the move. -/
theorem runMove_start {s u : State} {t : Nat} {m : Move} {v : Word} {c : Circ} (P : Performs s t m v u c) {eff : UnitEff}
    {r : Routine} (he : eff u t v (segOf m.op) m none = .start u r) :
    runMove s t (.ok m) m.len c eff = splitDone (keepPace s (atPoint (traceCommit s (startRoutine u t
      { routine := r, value := v, enc := m.enc, len := m.len, resumed := false, pair := pairNow s t (.ok m) m.len } c)) t) t) t := by
  obtain ⟨s1, hf, hr, hp, hs⟩ := P.fetched
  have ht : trail s t c.late = s := by unfold trail; rw [P.abreast]
  have hd : pointDue s t = false := by unfold pointDue; dsimp only; rw [P.before.1]
  unfold runMove runLed moveOrStep oneMove
  rw [P.issues, ht]
  simp only [if_true, hd, P.free, P.passes, Bool.false_eq_true, if_false, Option.isSome_none, fetchAndRun, hf, execMove, hp,
    checkResume, hr, Bool.not_false, moveValue, hs, Option.map_none, he, settleMove]

/-- A command that makes one step of a routine under way. -/
theorem stepOnly_eq {s : State} {t : Nat} {r : Running} {c : Circ} (S : StepsOn s t r c) :
    stepOnly s t c = splitDone (keepPace s (atPoint (traceCommit s (routineStep s t c)) t) t) t := by
  have ht : trail s t c.late = s := by unfold trail; rw [S.abreast]
  unfold stepOnly runLed tracedStep
  rw [S.issues, ht]
  rfl

/-! ### The steps of a routine as a reader of the state sees them (R163) -/

/-- A step that changes triad t's record before it is counted. -/
theorem Stepped.of_setT {e w : State} {t : Nat} {x y : Triad} {r r' : Running} {last : Bool} {npc : Word}
    (h : Stepped (setT e t x) w t r r' y last npc) : Stepped e w t r r' y last npc :=
  { h with
    others := (othersSame_setT e t x).trans h.others
    memory := ⟨h.memory.1, h.memory.2⟩
    card := h.card.of_setT }

/-- The record with which a routine retires: ctl.prog cleared where the routine was resumed (R165). -/
def progCleared (resumed : Bool) (y : Triad) : Triad :=
  { y with ports := if resumed then (setPort y 0xDB 0).ports else y.ports }

theorem progCleared_eq (b : Bool) (y : Triad) : progCleared b y = if b then setPort y 0xDB 0 else y := by
  unfold progCleared
  split <;> rfl

theorem port_progCleared_other (b : Bool) (y : Triad) {id : Nat} (h : id ≠ 0xDB) :
    port (progCleared b y) id = port y id := by
  rw [progCleared_eq]
  split
  · exact port_setPort_other _ _ h
  · rfl

theorem port_progCleared_prog (b : Bool) (y : Triad) :
    port (progCleared b y) 0xDB = if b then 0 else port y 0xDB := by
  rw [progCleared_eq]
  split
  · exact port_setPort_same _ _ _
  · rfl

section
variable {s w : State} {t : Nat} {r r' : Running} {y : Triad} {npc : Word}

/-- A step that retires the trigger move, as the state w after the command shows it. -/
theorem Stepped.of_retiredTo {l : Bool} (hretired : RetiredTo { progCleared r.resumed y with landed := l } (getT w t) npc)
    (hports : (getT w t).ports = (progCleared r.resumed y).ports) (hothers : OthersSame s w t) (hmem : MemSame s w)
    (hcard : CardSame s w) : Stepped s w t r r' y true npc := by
  obtain ⟨hrest, hnext, hcount⟩ := hretired
  have hport (id : Nat) : port (getT w t) id = port (progCleared r.resumed y) id := by unfold port; rw [hports]
  exact {
    count := hcount
    ports := fun id hid => (hport id).trans (port_progCleared_other _ y hid)
    prog := (hport 0xDB).trans (port_progCleared_prog _ y)
    units := by rw [hrest]; exact ⟨rfl, rfl⟩
    ends := fun _ => ⟨by rw [hrest], hnext⟩
    goes := nofun
    others := hothers
    memory := hmem
    card := hcard }

/-- A step after which the routine is under way as r', as the state w after the command shows it. -/
theorem Stepped.of_counted {e b : Bool} {c : BitVec 64}
    (hself : SameButHalt { y with run := some r', rcount := y.rcount + 1, entered := e, rcheck := c, bptPass := b } (getT w t))
    (hothers : OthersSame s w t) (hmem : MemSame s w) (hcard : CardSame s w) : Stepped s w t r r' y false npc := by
  unfold SameButHalt at hself
  have hport (id : Nat) : port (getT w t) id = port y id := by unfold port; rw [hself]
  exact {
    count := by rw [hself]
    ports := fun id _ => hport id
    prog := hport 0xDB
    units := by rw [hself]; exact ⟨rfl, rfl⟩
    ends := nofun
    goes := fun _ => by rw [hself]; exact ⟨rfl, rfl, rfl⟩
    others := hothers
    memory := hmem
    card := hcard }

end

/-! ### Calls with mask (R153, R154) -/

/-- The word that encCall spells decodes to its call, where it decodes. -/
theorem decodeMove_encCall_op {mask : BitVec 16} {b : Bool} {off : BitVec 12} {m : Move}
    (h : decodeMove (.long (encCall mask b off)) = .ok m) : m.op = .call mask b off := by
  have hmask := mask.isLt
  have hoff := off.isLt
  have hb : b2n b < 2 := by cases b <;> decide
  have hbit : b2n b = 1 ↔ b = true := by cases b <;> decide
  have hword : (encCall mask b off).toNat = 2 ^ 31 + 2 ^ 30 + 2 ^ 29 + mask.toNat * 2 ^ 13 + b2n b * 2 ^ 12 + off.toNat := by
    rw [encCall, BitVec.toNat_ofNat, Nat.mod_eq_of_lt (by omega)]
  have hkind : bitsOf (encCall mask b off).toNat 30 29 = 3 := by rw [hword]; unfold bitsOf; omega
  have hsrc : bitsOf (encCall mask b off).toNat 12 12 = b2n b := by rw [hword]; unfold bitsOf; omega
  have hregs : bitsOf (encCall mask b off).toNat 28 13 = mask.toNat := by rw [hword]; unfold bitsOf; omega
  have hrel : bitsOf (encCall mask b off).toNat 11 0 = off.toNat := by rw [hword]; unfold bitsOf; omega
  simp only [decodeMove, decodeLong, hkind, hsrc, hregs, hrel, hbit, BitVec.ofNat_toNat, BitVec.setWidth_eq] at h
  cases b
  case false =>
    cases h
    rfl
  case true =>
    by_cases hz : off = 0
    · subst hz
      cases h
      rfl
    · rw [if_pos rfl, if_pos (by simpa using hz)] at h
      cases h

/-- A call's target depends on the PC and br.tgt alone. -/
theorem callTarget_congr (x y : Triad) (hpc : x.pc = y.pc) (htgt : port x 0xA0 = port y 0xA0) (b : Bool) (off : BitVec 12) :
    callTarget x b off = callTarget y b off := by
  unfold callTarget
  rw [hpc, htgt]

/-- A call's start passes its checks: the target is even, and the return address lies below 0x20000 (R153). -/
theorem callCheck_start {x : Triad} {mask : BitVec 16} {b : Bool} {off : BitVec 12}
    (heven : (callTarget x b off).getLsbD 0 = false) (hra : (x.pc + 4).toNat < 0x20000) : callCheck x mask b off 0 = none := by
  simp only [callCheck, heven, Bool.false_eq_true, if_false, if_neg (Nat.not_le.2 hra), ite_self]

/-- A call that is triggered starts its routine. -/
theorem callEff_start {s : State} {t : Nat} {mask : BitVec 16} {b : Bool} {off : BitVec 12}
    (heven : (callTarget (getT s t) b off).getLsbD 0 = false) (hra : ((getT s t).pc + 4).toNat < 0x20000) (v : Word)
    (seg : BitVec 3) (m : Move) : callEff mask b off s t v seg m none = .start s (.call mask b off 0) := by
  simp only [callEff, Option.getD_none, stepsDone, callCheck_start heven hra]

/-- The first step stores the frame word and lowers g31. -/
theorem callStep_first {s e : State} {t : Nat} {mask : BitVec 16}
    (h : segStore s t (supervisor (getT s t)) 2 (callOffset (getT s t) mask 0) 4 (callFrame mask ((getT s t).pc + 4)) = .ok e) :
    callStep s t mask 0 = .ok (setT e t (setPort (getT e t) 0x1F (callOffset (getT s t) mask 0))) := by
  simp only [callStep, if_true, h]

/-- A later step stores one masked register, g31 with its value before the call. -/
theorem callStep_later {s e : State} {t : Nat} {mask : BitVec 16} {k : Nat} (hk : 1 ≤ k)
    (h : segStore s t (supervisor (getT s t)) 2 (port (getT s t) 0x1F + BitVec.ofNat 32 (4 * k)) 4
      (if (maskRegs mask).getD (k - 1) 16 = 31 then port (getT s t) 0x1F + BitVec.ofNat 32 (4 * (1 + (maskRegs mask).length))
        else port (getT s t) ((maskRegs mask).getD (k - 1) 16)) = .ok e) :
    callStep s t mask k = .ok e := by
  have hne : k ≠ 0 := Nat.ne_of_gt hk
  simp only [callStep, callOffset, if_neg hne, h]

section
variable {s e : State} {t : Nat} {r : Running} {mask : BitVec 16} {b : Bool} {off : BitVec 12} {k : Nat}

/-- A step of a call under way that stores without fault. -/
theorem routineStep_call {c : Circ} (hrun : (getT s t).run = some r) (hr : r.routine = .call mask b off k)
    (h : callStep s t mask k = .ok e) :
    routineStep s t c = afterStep e t { r with routine := .call mask b off (k + 1) } (k + 1) := by
  simp only [routineStep, hrun, stepOf, hr, h]

/-- The last step of a call retires the trigger move at the call's target. -/
theorem finishRoutine_call (hr : r.routine = .call mask b off k) :
    finishRoutine s t r = counted s t (retireOf { progCleared r.resumed (getT s t) with landed := true } (routineMove r) none
      (callTarget (getT s t) b off) r.pair false) := by
  have htarget : callTarget (progCleared r.resumed (getT s t)) b off = callTarget (getT s t) b off :=
    callTarget_congr (progCleared r.resumed (getT s t)) (getT s t) rfl (port_progCleared_other _ _ (by decide)) b off
  rw [← htarget]
  simp only [finishRoutine, hr, retire, progCleared_eq]

/-- A step of a call that is not the last one leaves the call under way. -/
theorem afterStep_call_on (hr : r.routine = .call mask b off k) {n : Nat} (hn : n ≠ 1 + (maskRegs mask).length) :
    afterStep s t r n = retireStep s t { getT s t with run := some r } 5 n := by
  simp only [afterStep, hr, routineSteps, routineUnit, if_neg hn]

theorem afterStep_call_last (hr : r.routine = .call mask b off k) :
    afterStep s t r (1 + (maskRegs mask).length) = finishRoutine s t r := by
  simp only [afterStep, hr, routineSteps, if_true]

/-- What a command that ends with a call's step leaves: s0 is the state before it, s the one in which the step's results stand. -/
theorem stepped_call {s0 : State} {r0 : Running} (hres : r.resumed = r0.resumed) (hr : r.routine = .call mask b off k)
    (hmade : s.aud.made = []) (hacc : s.aud.acc = false) (hset : Settled (getT s t)) :
    ∃ w, finish (splitDone (keepPace s0 (atPoint (traceCommit s0 (afterStep s t r k)) t) t) t) = .next w ∧
      Stepped s w t r0 r (getT s t) (k == 1 + (maskRegs mask).length) (callTarget (getT s t) b off) := by
  by_cases hlast : k = 1 + (maskRegs mask).length
  · obtain ⟨hself, hothers, hmem, hcard⟩ := afterwards_counted s t (retireOf
      { progCleared r.resumed (getT s t) with landed := true } (routineMove r) none (callTarget (getT s t) b off) r.pair false) hacc
    obtain ⟨hretired, hports⟩ := retireOf_retiredTo _ _ _ _ _ _ hself
    have hstep := (afterStep_call_last (s := s) (t := t) hr).trans (finishRoutine_call hr)
    rw [← hlast] at hstep
    rw [hstep, ends_counted s0 s t _ hmade (settled_retireOf (by exact hset) ..), beq_iff_eq.2 hlast]
    rw [hres] at hretired hports hothers hmem hcard ⊢
    exact ⟨_, finish_eq _, .of_retiredTo hretired hports hothers hmem hcard⟩
  · obtain ⟨hself, hothers, hmem, hcard⟩ := afterwards_counted s t (feedCheck { getT s t with
      run := some r, rcount := (getT s t).rcount + 1, entered := false } (getT s t).pc
        (BitVec.ofNat 32 (0xFFFF0000 + 5 * 0x100 + k)) 0) hacc
    rw [afterStep_call_on hr hlast, beq_eq_false_iff_ne.2 hlast, retireStep, ends_counted s0 s t _ hmade (by exact hset)]
    exact ⟨_, finish_eq _, .of_counted hself hothers hmem hcard⟩

end

/-- A call that is triggered makes its first step with the call under way. -/
theorem startRoutine_call {u e : State} {t : Nat} {r : Running} {c : Circ} {mask : BitVec 16} {b : Bool} {off : BitVec 12}
    (hres : r.resumed = false) (hr : r.routine = .call mask b off 0)
    (h : callStep (setT u t { getT u t with run := some r, pairA := none }) t mask 0 = .ok e) :
    startRoutine u t r c = afterStep e t { r with routine := .call mask b off 1 } 1 := by
  obtain ⟨routine, value, enc, len, resumed, pair⟩ := r
  cases hres
  cases hr
  exact routineStep_call (by rw [getT_setT_same]) rfl h

/-- Settles O16: the first step and the later ones are each one store (`callStep_first`, `callStep_later`), counted as the step of
a call (`stepped_call`). -/
theorem maskedCalls : Obligations.MaskedCalls := by
  unfold Obligations.MaskedCalls
  intro t mask b off s1 regs n x1 target
  refine ⟨fun s u m v hm P => ?start, fun s c r k S hr haud hset hk hkn => ?later⟩
  case start =>
    intro x low r heven hra hstore haud hset
    have heff : moveEff m.op {} u t.toNat v (segOf m.op) m none = .start u (.call mask b off 0) := by
      rw [decodeMove_encCall_op hm]
      exact callEff_start heven hra v (segOf (.call mask b off)) m
    have hstep : callStep (setT u t.toNat { x with run := some (r 0), pairA := none }) t.toNat mask 0 =
        .ok (setT s1 t.toNat (setPort x1 0x1F low)) := by
      have h := callStep_first (s := setT u t.toNat { x with run := some (r 0), pairA := none }) (t := t.toNat) (mask := mask)
        (e := s1)
      rw [getT_setT_same] at h
      exact h hstore
    have hrun := (runEnc_eq hm s t.toNat {}).trans (runMove_start P heff)
    rw [startRoutine_call rfl rfl hstep] at hrun
    obtain ⟨w, hw, hstepped⟩ := stepped_call (s := setT s1 t.toNat (setPort x1 0x1F low)) (s0 := s) (r := r 1) (r0 := r 0) (k := 1)
      rfl rfl (haud ▸ P.untraced) (haud ▸ P.noAccess) (by rw [getT_setT_same]; exact hset)
    have hlast : (1 == 1 + n) = (n == 0) := by rw [Bool.eq_iff_iff, beq_iff_eq, beq_iff_eq]; omega
    rw [getT_setT_same, hlast, callTarget_congr (setPort x1 0x1F low) x1 rfl (port_setPort_other x1 low (by decide))] at hstepped
    exact ⟨w, (congrArg finish hrun).trans hw, hstepped.of_setT⟩
  case later =>
    intro x g31 reg hstore
    have hstep := routineStep_call (c := c) S.under hr (callStep_later hk hstore)
    obtain ⟨w, hw, hstepped⟩ := stepped_call (s := s1) (s0 := s) (r := { r with routine := .call mask b off (k + 1) }) (r0 := r)
      rfl rfl (haud ▸ S.untraced) (haud ▸ S.noAccess) hset
    have hlast : (k + 1 == 1 + n) = (k == n) := by rw [Bool.eq_iff_iff, beq_iff_eq, beq_iff_eq]; omega
    rw [← hstep, ← stepOnly_eq S] at hw
    rw [hlast] at hstepped
    exact ⟨w, hw, hstepped⟩

/-! ### Loops (R157 to R160) -/

theorem exec_lpGo {f : MoveForm} {m : Move} (h : moveOf 0xAC f = .ok m) (t : BitVec 5) (s : State) :
    exec (.lpGo t f) s = finish (runMove s t.toNat (.ok m) m.len {} loopGoEff) :=
  congrArg finish (runForm_eq h s t.toNat {} loopGoEff)

theorem exec_lpExit {f : MoveForm} {m : Move} (h : moveOf 0xAD f = .ok m) (t : BitVec 5) (s : State) :
    exec (.lpExit t f) s = finish (runMove s t.toNat (.ok m) m.len {} loopExitEff) :=
  congrArg finish (runForm_eq h s t.toNat {} loopExitEff)

/-- lp.go with a free level and an even end. -/
theorem loopGoEff_free {s : State} {t : Nat} {v : Word} (hfree : (getT s t).loops.length < 4) (heven : v.getLsbD 0 = false)
    (seg : BitVec 3) (m : Move) (r : Option Routine) :
    loopGoEff s t v seg m r =
      if (getT s t).lcnt = 0 then .moved s v
      else if v.toNat ≤ (nextPc s t m).toNat then .done s
      else .done (setT s t { getT s t with
        loops := { start := nextPc s t m, stop := v, count := (getT s t).lcnt } :: (getT s t).loops }) :=
  (if_neg (Nat.not_le.2 hfree)).trans (if_neg (by rw [heven]; decide))

theorem loopBack_elsewhere {l : LoopLevel} {pc : Word} (h : l.stop ≠ pc) (r : List LoopLevel) :
    loopBack (l :: r) pc = (l :: r, pc) := if_neg h

theorem loopBack_repeats {l : LoopLevel} {pc : Word} (h : l.stop = pc) (hcount : 1 < l.count.toNat) (r : List LoopLevel) :
    loopBack (l :: r) pc = ({ l with count := l.count - 1 } :: r, l.start) := (if_pos h).trans (if_pos hcount)

theorem loopBack_ends {l : LoopLevel} {pc : Word} (h : l.stop = pc) (hcount : l.count.toNat ≤ 1) (r : List LoopLevel) :
    loopBack (l :: r) pc = loopBack r pc := (if_pos h).trans (if_neg (Nat.not_lt.2 hcount))

/-- Settles O18: lp.go jumps, leaves the triad's record, or opens a level (`loopGoEff_free`), lp.exit changes the record's loop
stack alone; the loop-back has one equation per case. -/
theorem loopMoves : Obligations.LoopMoves := by
  unfold Obligations.LoopMoves
  refine ⟨fun t f s u m v P => ⟨fun hm hfree heven => ?go, fun hm => ?exit⟩, fun _ => rfl, fun l r pc =>
    ⟨fun h => loopBack_elsewhere h r, fun h hcount => loopBack_repeats h hcount r, fun h hcount => loopBack_ends h hcount r⟩⟩
  case go =>
    have heff := loopGoEff_free hfree heven (segOf m.op) m none
    rw [exec_lpGo hm]
    split
    case isTrue hzero =>
      rw [if_pos hzero] at heff
      exact finish_onlyJump (taken := false) P (.inr heff)
    case isFalse hcount =>
      rw [if_neg hcount] at heff
      split
      case isTrue hempty =>
        rw [if_pos hempty] at heff
        exact finish_unchanged P heff
      case isFalse hbody =>
        rw [if_neg hbody] at heff
        exact finish_loops P heff
  case exit =>
    rw [exec_lpExit hm]
    exact finish_loops P rfl

end Sys2Proof.Machine
